-- ==== Sys2Proof/Word.lean ====
section
/-! DEFINITION. The word types of the block: bytes (00 R10) and the sparse tables that hold its addressed stores. -/

namespace Sys2Proof

/-- One byte of a register, an entry, a parameter block or a reply (00 R10). -/
abbrev Byte := BitVec 8

/-- A string of bytes in ascending address order (00 R10). -/
abbrev Bytes := List Byte

/-- A sparse table keyed by number, kept in rising key order. -/
abbrev Tab (α : Type) := List (Nat × α)

end Sys2Proof
end

