-- ==== Sys2Proof/Config.lean ====
section
/-! DEFINITION. What the manual leaves to published standards it names only, and the free values (log entries 4, 6 and 7).
Nothing here has a body, so no proof can lean on a value. -/

namespace Sys2Proof.Config

/-- Byte `j` of the random request numbered `draw` (16 R470, R471): a free value, log entry 4. -/
opaque freeByte : (draw j : Nat) → BitVec 8

/-- The measured values, counts and codes the manual does not fix, by purpose and occasion: free values, log entry 4. -/
opaque freeNat : (purpose occasion : Nat) → Nat

/-- Private material of a new key pair, by algorithm code, modulus bits, exponent code and draw (09 R264, R268). -/
opaque pkPrivate : (alg bits exp draw : Nat) → Bytes
/-- Class 9 material of an ML-DSA private key (FIPS 204; 09 R264). -/
opaque mldsaPublic : (alg : Nat) → (priv : Bytes) → Bytes
/-- An ML-DSA signature, hedged and pure: algorithm, private material, message, context string, draw (FIPS 204; 09 R263, R271). -/
opaque mldsaSign : (alg : Nat) → (priv msg ctx : Bytes) → (draw : Nat) → Bytes
/-- Whether an ML-DSA signature verifies (FIPS 204; 09 R273). -/
opaque mldsaVerify : (alg : Nat) → (pub msg ctx sig : Bytes) → Bool
/-- ML-KEM encapsulation: ciphertext (FIPS 203; 09 R275). -/
opaque kemCiphertext : (alg : Nat) → (pub : Bytes) → (draw : Nat) → Bytes
/-- ML-KEM encapsulation: shared secret. -/
opaque kemSecret : (alg : Nat) → (pub : Bytes) → (draw : Nat) → Bytes
/-- ML-KEM decapsulation: shared secret, with implicit rejection (09 R275). -/
opaque kemDecaps : (alg : Nat) → (priv ct : Bytes) → Bytes
/-- STS: a decoder key from a vending key, meter PAN, KT, SGC, TI and KRN, by DKGA code (11 R316; IEC 62055-41). -/
opaque stsDecoderKey : (dkga : Nat) → (vending pan : Bytes) → (kt sgc ti krn : Nat) → Bytes
/-- STS: EA07 or EA11 encipherment of a 64-bit block, by algorithm code (11 R317 step 2). -/
opaque stsEncipher : (alg : Nat) → (key : Bytes) → (block : Nat) → Nat
/-- STS: the CRC of a data block without its CRC field (11 R317 step 1). -/
opaque stsCrc : (block : Nat) → Nat
/-- STS: data block j (of 2 or 4) of a decoder key transfer (11 R322; IEC 62055-41). -/
opaque stsKeyChangeBlock : (alg j : Nat) → (newKey : Bytes) → (kt ti krn base : Nat) → Nat
/-- STS: whether a class 2 subclass carries a register value (11 R329). -/
opaque stsSubclassHasValue : (subclass : Nat) → Bool
/-- STS: whether a class 2 subclass carries a TID (11 R329). -/
opaque stsSubclassHasTid : (subclass : Nat) → Bool

/-- What a TR-31 key block says once authenticated (06 R161, R162). -/
structure KeyBlock where
  usage : Nat
  mode : Nat
  expo : Nat
  tdes : Bool
  key : Bytes
  kp : Option Bytes
deriving DecidableEq, Repr, Inhabited

/-- What a TR-34 key token carries (09 R279). -/
structure Token where
  twoPass : Bool
  nonce : Bytes
  signedAt : Nat
  envelope : Bytes
  tdesContent : Bool
  contentKeyBits : Nat
deriving DecidableEq, Repr, Inhabited

/-- The form of a TR-34 token; none when malformed (09 R280 check 1). -/
opaque tr34Parse : (token : Bytes) → Option Token
/-- Whether a TR-34 token's signature verifies under the KDH's key (09 R280 check 2). -/
opaque tr34Verify : (pub token : Bytes) → Bool
/-- The key block of a TR-34 token; none when key transport fails (09 R280 check 4). -/
opaque tr34Open : (priv token : Bytes) → Option KeyBlock
/-- A TR-34 key token the module builds (09 R279). -/
opaque tr34Build : (receiverPub signerPriv key : Bytes) → (usageModeExpo : Nat × Nat × Nat) → (nonce : Bytes) → (timeDraw : Nat × Nat) → Bytes

/-- The conditioned noise that re-masks the keeper shares (06 R175 step 1): byte j of occasion n, a free value. -/
opaque keeperNoise : (n j : Nat) → BitVec 8
/-- The permutation of the keeper's cells fixed per die (06 R175): the bit that the cell at an address holds, a free value. -/
opaque dieCell : Nat → Nat
/-- The pattern of inverted cells fixed per die (06 R175), a free value. -/
opaque dieSense : Nat → Bool
/-- An entry line of the handle index, from the slots it serves with their handles and chain positions (07 R194): a free value. -/
opaque indexLine : List (Nat × Nat × Nat) → Bytes
/-- The vendor public keys, ECDSA P-384 and ML-DSA-87, whose digest OTP holds (05 R136); the manual does not give them. -/
opaque vendorP384 : (digest : Bytes) → Bytes
opaque vendorMldsa : (digest : Bytes) → Bytes

end Sys2Proof.Config
end

