-- ==== Sys2Proof/Syntax.lean ====
section
/-! DEFINITION. The commands of the block: one constructor of `Instr` per row of opcode_table.json, with the row's operands.
What a command carries from outside the module (bytes that host memory returned, a frame's fields, a measured value) is its operand. -/

namespace Sys2Proof

/-- The issuer of a host access or command: the PF, or VF n, which is tenant Tn (03 R71). -/
inductive Fn
  | pf
  | vf (n : Nat)
deriving DecidableEq, Repr, Inhabited

/-- One descriptor of a DATA_SGL list (04 R99): address, length, reserved bytes. -/
structure Desc where
  addr : Nat
  len : Nat
  resv : Nat
deriving DecidableEq, Repr, Inhabited

/-- How an exchange with a custodian card ended (14 R413, R414). -/
inductive CardOutcome
  | returned (payload : Bytes)
  | withdrawn
  | protocolError
  | refused
  | timedOut
deriving DecidableEq, Repr, Inhabited

/-- A firmware image in a slot, as the module reads it from its bytes (05 R135 to R137): the header's fields, whether header and size are of the form
of R135 and R136, whether the body has BODY_DIGEST, whether both vendor signatures verify; what the countersignature covers, and the countersignature. -/
structure Image where
  formOk : Bool := false
  type : Nat := 1
  major : Nat := 0
  minor : Nat := 0
  security : Nat := 1
  stepMin : Nat := 1
  stepMax : Nat := 255
  digestOk : Bool := false
  vendorOk : Bool := false
  signed : Bytes := []
  counter : Bytes := []
deriving DecidableEq, Repr, Inhabited

/-- A failed check on reading the vault (07 R203, R212): `kind` 0 an error corrected by ECC, 1 a tag or seal, 2 an uncorrectable error; the channel;
LEVEL and first line of the unit it poisons. -/
structure LineFail where
  kind : Nat
  channel : Nat
  level : Nat
  first : Nat
deriving DecidableEq, Repr, Inhabited

/-- What the world answers to the requests one run of a command makes: host-memory reads (none: the read ended in error, 04 R111),
the card exchange of a ceremony step, whether host-memory writes succeed, whether a test operation passes, and what reading the records' vault lines meets. -/
structure Inputs where
  params : Option Bytes := none
  sgl : Option (List Desc) := none
  data : Option Bytes := some []
  dataAgain : Option Bytes := some []
  aad : Option Bytes := some []
  outWriteOk : Bool := true
  replyWriteOk : Bool := true
  card : CardOutcome := .protocolError
  testPasses : Bool := true
  lineFault : Option LineFail := none
deriving DecidableEq, Repr, Inhabited

/-- What a dispatched task does with its core before Starter acts again (05 R129, R126): it stays on the core, it yields with a wait mask,
where an engine has begun on the inputs given, or it ends, its command running to its end with the inputs given. -/
inductive Run
  | stays
  | yields (mask : Nat) (begun : Option Inputs)
  | ends (inputs : Inputs)
deriving DecidableEq, Repr, Inhabited

/-- The kind of an interconnect access (13 R380). -/
inductive Access
  | read
  | write
  | fetch
deriving DecidableEq, Repr, Inhabited

/-- A register access: an inbound PCIe request to a BAR (03 R75); an access of an internal initiator by its class code (13 R379),
whose `ctx` is the Starter context served, for the core and DMA classes, and the scope of its handler slot for CORE_HANDLER; or a configuration
request for the dword at an offset of a function's configuration space (03 R65 to R70). -/
inductive RegAccess
  | host (fn : Fn) (write : Bool) (offset bytes value : Nat) (allEnables : Bool)
  | internal (cls ctx addr bytes : Nat) (kind : Access) (value : Nat)
  | config (fn : Fn) (write : Bool) (offset value : Nat)
deriving DecidableEq, Repr, Inhabited

/-- One vault bay as the identity-memory reader finds it (02 R56). -/
structure Dimm where
  fitted : Bool := false
  rdimmEcc : Bool := false
  megaTransfers : Nat := 0
  gigabytes : Nat := 0
  manufacturer : Nat := 0
  part : Nat := 0
  serial : Nat := 0
deriving DecidableEq, Repr, Inhabited

/-- The cell slot as the reader finds it (02 R61). -/
structure Cell where
  seated : Bool := false
  readable : Bool := false
  partOk : Bool := false
  serial : Nat := 0
  millivolts : Nat := 0
deriving DecidableEq, Repr, Inhabited

/-- What the ROM's tests find at a fabric start (18 R499 steps 3 to 6): noise sources and DRBG test, inner core test, and lanes, PIN lanes and
public-key units that fail their tests. -/
structure BootInputs where
  sourcesPass : Nat := 15
  drbgPass : Bool := true
  innerPass : Bool := true
  failedLanes : List Nat := []
  failedPins : List Nat := []
  failedPks : List Nat := []
  dimms : List Dimm := []
deriving DecidableEq, Repr, Inhabited

/-- The header of a ring frame as the receiver checks it (12 R340), with the outcome of its tag check (12 R344). -/
structure Hdr where
  type : Nat
  src : Nat
  dst : Nat
  cls : Nat
  epoch : Nat
  seq : Nat
  length : Nat
  keysel : Nat
  clock : Nat
  tagOk : Bool
  east : Bool
deriving DecidableEq, Repr, Inhabited

/-- The payload of a JOIN frame (12 R349 step 1). -/
structure JoinInfo where
  serial : Nat
  fwMajor : Nat
  configSeq : Nat
  ringId : Nat
  mldsa : Bytes
  p384 : Bytes
  kem : Bytes
  kemCt : Bytes
  answer : Bool
  sigMldsa : Bytes
  sigP384 : Bytes
deriving DecidableEq, Repr, Inhabited

/-- The payload of a VIEW frame (12 R353). -/
structure ViewInfo where
  epoch : Nat
  present : Nat
  signer : Nat
  sigMldsa : Bytes
  sigP384 : Bytes
deriving DecidableEq, Repr, Inhabited

/-- One entry of the placement map (12 R355); 0xFF for none. `prior` is the state a loss of INCOMING returns to (12 R356). -/
structure MapEntry where
  primary : Nat := 255
  secondary : Nat := 255
  incoming : Nat := 255
  st : Nat := 5
  prior : Nat := 5
deriving DecidableEq, Repr, Inhabited

/-- A key record's chain member (06 R151), with MATERIAL unmasked and without its tag; `changeSeq` is its CHANGE_SEQ (07 R220). -/
structure Record where
  handle : Nat := 0
  alg : Nat := 0
  usage : Nat := 0
  mode : Nat := 0
  expo : Nat := 0
  st : Nat := 0
  kcvMethod : Nat := 0
  retiring : Nat := 0
  chainPos : Nat := 0
  chainLen : Nat := 1
  kcv : Bytes := []
  params : Bytes := []
  notBefore : Nat := 0
  notAfter : Nat := 0
  invocations : Nat := 0
  material : Bytes := []
  changeSeq : Nat := 0
  poisoned : Bool := false
  tag : Bytes := []
deriving DecidableEq, Repr, Inhabited

/-- The outcome of a command: status, RESULT and reply data (12 R360), and output data by host address, in the order written (04 R99). -/
structure Reply where
  status : Nat
  result : Bytes
  data : Bytes
  outs : List (Nat × Bytes) := []
deriving DecidableEq, Repr, Inhabited

/-- One change that a REPLICATE carries (12 R359, R360): a record written or destroyed, or a shared root slot written at a SEQ, in place of
both banks where `fresh`, or returned to its previous bank (12 R368; log entry 24). -/
inductive Change
  | put (r : Record)
  | drop (tomb : Record)
  | root (slot seq : Nat) (content kcv : Bytes) (fresh : Bool)
  | rootBack (slot seq : Nat)
  /-- The vault formatted for a load, or for a joiner of a ring whose vault is READY (12 R369, R349; log entry 31). -/
  | format (accept : Bool)
  /-- The load ended on every member (12 R369; log entry 31). -/
  | loadEnd
  /-- The highest MANIFEST_SEQ issued (12 R369; log entry 31). -/
  | manifest (seq : Nat)
  /-- An index that has held a record, told to every member (06 R150; log entry 92). -/
  | used (handle : Nat)
deriving DecidableEq, Repr, Inhabited

/-- The payload of a FORWARD frame (12 R21 R22): the entry, its stamps, and what the origin read from host memory. -/
structure Forwarded where
  issue : Nat
  originCtx : Nat
  tenant : Nat
  gen : Nat
  level : Nat
  entry : Bytes
  inputs : Inputs
deriving DecidableEq, Repr, Inhabited

/-- What the monitored sources read at the end of a scan period (15 R431, R437): a mask of the sources in alarm or out of range,
a mask of the windowed sources that have read in range for 1 ms, and a measured value for each windowed source 10 to 15. -/
structure ScanInput where
  inAlarm : Nat
  settled : Nat
  measured : List Int
deriving DecidableEq, Repr, Inhabited

/-- The causes of 17 R486, by their codes. -/
abbrev Cause := Nat

/-- A fault as raised (17 R477): scope 0 command, 1 tenant, 2 ring, 3 module; its cause code; the detecting subsystem; unit; object; detail;
the scope of the handler inside which it arose, if any (17 R484). -/
structure FaultInfo where
  scope : Nat
  cause : Cause
  subsystem : Nat
  unit : Nat
  object : Nat
  detail : Nat
  inHandler : Option Nat
deriving DecidableEq, Repr, Inhabited

/-- How a POISON_REPAIR_DONE ended (07 R213): the outcome code of VMP_POISON_LOG. -/
abbrev Outcome := Nat

/-- Every row of the operation and event table. Rows of the host's commands name the Starter context that holds the fetched entry. -/
inductive Instr
  -- 0x00xx management (04)
  | identify (k : Nat) (i : Inputs)
  | getStatus (k : Nat) (i : Inputs)
  | setTenantConfig (k : Nat) (i : Inputs)
  | getTenantConfig (k : Nat) (i : Inputs)
  | resetTenant (k : Nat) (i : Inputs)
  | resetTenantDrainEnd (k : Nat)
  | logRead (k : Nat) (i : Inputs)
  -- 0x01xx vault (07)
  | vaultLoadBegin (k : Nat) (i : Inputs)
  | vaultLoadRecords (k : Nat) (i : Inputs)
  | vaultLoadEnd (k : Nat) (i : Inputs)
  | vaultSave (k : Nat) (i : Inputs)
  | vaultPoisonReport (k : Nat) (i : Inputs)
  -- 0x02xx life cycle and dual control (14)
  | lifecycleTransition (k : Nat) (i : Inputs)
  | lifecycleDrainEnd
  | lifecycleWipeDone (boot : BootInputs)
  | unlockRequest (k : Nat) (i : Inputs)
  | unlockApprove (k : Nat) (i : Inputs)
  | approvalBegin (k : Nat) (i : Inputs)
  | approvalAdd (k : Nat) (i : Inputs)
  | approvalClose (k : Nat) (i : Inputs)
  | custodian (k : Nat) (i : Inputs)
  | rootInit (k : Nat) (i : Inputs)
  | componentTransport (k : Nat) (i : Inputs)
  | cardOpen (k : Nat) (i : Inputs)
  -- 0x03xx maintenance (18)
  | maintStart (k : Nat) (i : Inputs)
  | maintStatus (k : Nat) (i : Inputs)
  | maintStop (k : Nat) (i : Inputs)
  | shutdown (k : Nat) (i : Inputs)
  -- 0x1xxx keys (06)
  | keyGenerate (k : Nat) (i : Inputs)
  | keyImport (k : Nat) (i : Inputs)
  | keyExport (k : Nat) (i : Inputs)
  | keyReplace (k : Nat) (i : Inputs)
  | keyComponent (k : Nat) (i : Inputs)
  | keyDestroy (k : Nat) (i : Inputs)
  | keyInfo (k : Nat) (i : Inputs)
  | keyDerive (k : Nat) (i : Inputs)
  | attest (k : Nat) (i : Inputs)
  -- 0x2xxx symmetric (08)
  | symCipher (k : Nat) (i : Inputs)
  | aead (k : Nat) (i : Inputs)
  | cmac (k : Nat) (i : Inputs)
  | keyWrap (k : Nat) (i : Inputs)
  | keyUnwrap (k : Nat) (i : Inputs)
  -- 0x3xxx public key (09)
  | pkSign (k : Nat) (i : Inputs)
  | pkVerify (k : Nat) (i : Inputs)
  | pkDecrypt (k : Nat) (i : Inputs)
  | pkKem (k : Nat) (i : Inputs)
  | pkPublic (k : Nat) (i : Inputs)
  | emvCert (k : Nat) (i : Inputs)
  | tr34 (k : Nat) (i : Inputs)
  -- 0x4xxx, 0x5xxx payment (10)
  | pinTranslate (k : Nat) (i : Inputs)
  | pinVerify (k : Nat) (i : Inputs)
  | pinGenerate (k : Nat) (i : Inputs)
  | pinChange (k : Nat) (i : Inputs)
  | arqcVerify (k : Nat) (i : Inputs)
  | cvc (k : Nat) (i : Inputs)
  | emvScript (k : Nat) (i : Inputs)
  | payMac (k : Nat) (i : Inputs)
  -- 0x6xxx metering (11)
  | stsCreditToken (k : Nat) (i : Inputs)
  | stsDecoderKey (k : Nat) (i : Inputs)
  | stsKeyChange (k : Nat) (i : Inputs)
  | stsMgmtToken (k : Nat) (i : Inputs)
  | dlmsProtect (k : Nat) (i : Inputs)
  | dlmsUnprotect (k : Nat) (i : Inputs)
  | meterKeyRotate (k : Nat) (i : Inputs)
  | meterKeyLoad (k : Nat) (i : Inputs)
  -- 0x7xxx ring (12)
  | ringConfig (k : Nat) (i : Inputs)
  | ringCtrl (k : Nat) (i : Inputs)
  | ringView (k : Nat) (i : Inputs)
  | placementMapRead (k : Nat) (i : Inputs)
  -- 0x80xx check values and random (16)
  | checkValue (k : Nat) (i : Inputs)
  | random (k : Nat) (i : Inputs)
  -- queues (04)
  | sqTailDoorbell (fn : Fn) (q idx : Nat)
  | cqHeadDoorbell (fn : Fn) (q idx : Nat)
  | qpEnable (n q w : Nat)
  | qpDisable (n q w : Nat)
  | adminQueueEnable (w : Nat)
  | adminQueueDisable (w : Nat)
  | queueFetch
  | fetchEntriesArrive (j : Nat) (entries : Option (List Bytes))
  | fetchRetryTimer (fn : Fn) (q : Nat)
  | irqCoalesceTimeout (n q : Nat)
  -- Starter (05)
  | eventFlagPost (k useNo flag : Nat)
  | taskDispatch (run : Run)
  | runLimitExpiry (core : Nat)
  | taskWaitTimer (k : Nat)
  -- resets and functions (03)
  | flrVf (n : Nat)
  | flrPf
  | d3hotReturn (fn : Fn)
  | vfEnableClear
  | vfEnableSet (numVFs : Nat)
  | busMasterEnableClear (fn : Fn)
  | busMasterEnableSet (fn : Fn)
  | perstOrLinkDown (perst : Bool)
  | perstRelease
  | glbTimeLowRead (fn : Fn)
  -- pace and profile (01)
  | profileWrite (w : Nat)
  | profileSlewDone
  | paceWindowClose (laps : List Nat) (die : Int) (hubs : List (Option Int))
  | interfaceStall (iface unit : Nat)
  | attachAck (w : Nat)
  -- configuration changes (05)
  | commitGo (block w : Nat)
  | vfcfgCommitWrite (w : Nat)
  | commitApply (block : Nat)
  | registerWrite (a : RegAccess)
  -- lock mode (08)
  | lockRequest (n : Nat)
  | lockRelease (n : Nat)
  | lockGrant (lane : Nat)
  | lockExpiry (n : Nat)
  -- access table (13)
  | actClaimRead (k : Nat)
  | actUpdateGo (k : Nat)
  | actUpdateAbandon (k : Nat)
  | actDrainDone
  | actDrainTimeout
  -- sideband and power (02)
  | smbusStatusRead
  | smbusAlertResponse
  | smbusWrite (code value : Nat)
  | auxPowerUp
  | auxLogicResetRelease (straps : Nat) (seatHigh : Bool) (record : Option Bytes) (cell : Cell)
  | keeperCheckDone (boot : BootInputs)
  | bayIdChange (straps : Nat)
  | mainPowerArrival
  | p12vRampDone (boot : BootInputs)
  | startupComplete
  | mainPowerLoss
  | auxPowerLoss
  | seatNHigh
  | attentionPress
  | removalAbortWindowEnd
  | removalDrainDone
  | ringLeaveTimeout
  | cellPackSeated (cell : Cell)
  | cellPackRemoved
  | cellVoltageLow (millivolts : Nat)
  | cardInserted (slot serial : Nat) (classB : Bool)
  | cardWithdrawn (slot : Nat)
  | cardExchangeTimeout (slot : Nat)
  | cardOpeningExpiry (slot : Nat)
  | approvalSessionExpiry (j : Nat)
  | componentSessionExpiry (n : Nat)
  | tokenSessionExpiry
  | retiringVersionExpiry (handle : Nat)
  -- sentinel (15)
  | sentinelScan (scan : ScanInput)
  | windowedSourceSecond (src : Nat) (measured : Int)
  | keeperTick
  | keeperRemask
  | logAppend
  | logReleaseWrite (seq : Nat)
  | logReleaseDone
  | timeAdjWrite (w : Nat)
  | timeSetWrite (v : Nat)
  -- ring (12)
  | ringJoinRaise
  | joinAuthTimeout
  | joinRetryTimer
  | ringFormWaitExpiry
  | beatSendTimer
  | beatReceived (h : Hdr) (pace : Nat)
  | memberLossDetected (m : Nat)
  | standbyViewDelay
  | prevEpochKeyExpiry
  | partedTimeout
  | joinFrame (h : Hdr) (j : JoinInfo)
  | viewFrame (h : Hdr) (v : ViewInfo)
  | keysFrame (h : Hdr) (epoch : Nat) (key : Bytes)
  | mapFrame (h : Hdr) (mapSeq : Nat) (entries : List (Nat × MapEntry))
  | leaveFrame (h : Hdr) (confirm : Bool) (member : Nat)
  | configFrame (h : Hdr) (config sigMldsa sigP384 : Bytes)
  | syncFrame (h : Hdr) (answer : Bool) (c : Nat)
  | noticeFrame (h : Hdr) (handle : Nat)
  | forwardFrame (h : Hdr) (f : Forwarded)
  | replyFrame (h : Hdr) (originCtx issue : Nat) (r : Reply)
  | changeLockFrame (h : Hdr) (grant : Bool) (key ctx : Nat)
  | replicateFrame (h : Hdr) (ack : Bool) (origin issue : Nat) (changes : List Change) (outcome : Reply)
  | transferFrame (h : Hdr) (request : Bool) (handle ctx : Nat) (recs : List Record)
  | copyFrame (h : Hdr) (bucket : Nat) (recs : List Record) (last : Bool)
  | saveFrame (h : Hdr) (ctx : Nat) (recs : List Record) (last : Bool)
  | frameAckTimeout (east : Bool)
  | linkRetrainTimer (east trained : Bool)
  | ringLaneFail (east : Bool) (lane : Nat)
  -- Frog and vault (07)
  | frogPeriodExpiry
  | frogGroupStep (found : List LineFail)
  | frogDrawRetry
  | poisonRepairDone (entry : Nat) (outcome : Outcome) (missing : List Nat) (recs : List Record)
  | dimmTempExcursion (bay : Nat) (temp : Int)
  -- entropy and check values (16)
  | noiseSourceTestFail (src test : Nat)
  | noiseSourceRetest (src : Nat) (passes : Bool)
  | drbgReseedDue
  | entReseedWrite (w : Nat)
  | entropyWaitTimeout (k : Nat)
  | cvuStart (u w : Nat)
  | cvuJobDone (u : Nat) (data : Option Bytes)
  -- faults (17)
  | faultDetected (f : FaultInfo)
  | commandScopeHandling (again : Inputs) (second : Bool)
  | tenantScopeHandling (queuePairInError : Option Nat)
  | ringScopeHandling (ok : Bool)
  | moduleScopeHandling (restored : Bool)
  | handlerTimeLimit (scope : Nat)
  -- maintenance ends (18)
  | fwWriteDone (boot : BootInputs)
  | fwActivateRestart (boot : BootInputs)
  | fuseDisableDone
  | cellReplaceDone
  | cellReplaceTimeout
  | selfTestDone (failed : List Nat)
  -- further ring events (12, 02, 18)
  | ringReceiverRelock (east : Bool)
  | ringLinkAck (east : Bool) (seq : Nat) (good : Bool)
  | loopProofTimeout
  | holdoverExhausted
  | joinerFormatDone
  | outcomeCacheEntryAged (origin issue : Nat)
  -- debug and flash (14, 19)
  | serviceUartStatusLine
  | serviceUartInput (byte : Nat) (addr bytes : Nat) (kind : Access)
  | jtagAccess (addr bytes : Nat) (kind : Access) (value : Nat) (start : Bool)
  | journalFlashRefresh (slot : Nat)
deriving DecidableEq, Repr

end Sys2Proof
end

