-- ==== Sys2Proof/Decode.lean ====
section
/-! DEFINITION. The command a word spells. The table gives no row any bits: commands reach the block as register accesses, entries in host
memory, frames and pin events, so no word spells one. -/

namespace Sys2Proof

/-- The command that a word of the table's bits spells: none, as no row of the table has bits. -/
def decodeTableWord (_nbits _w : Nat) : Option Instr := none

end Sys2Proof
end

