-- ==== Sys2Proof/Machine/State.lean ====
section
/-! DEFINITION. The state of the block: every register, queue, counter, store and mode the manual gives the module, as plain data,
with the queue of waiting commands; the state after reset (log entry 3); the faults and refusals of the model. -/

namespace Sys2Proof.Machine

/-! ## Outputs: what leaves the module, in the order issued -/

/-- The payload of a frame the member sends (12 R341). -/
inductive FrameBody
  | beat (pace : Nat)
  | join (j : JoinInfo)
  | view (v : ViewInfo)
  | keys (epoch : Nat) (key : Bytes)
  | map (mapSeq : Nat) (entries : List (Nat × MapEntry))
  | leave (confirm : Bool) (member : Nat)
  | config (config sigMldsa sigP384 : Bytes)
  | sync (answer : Bool) (c : Nat)
  | notice (handle : Nat)
  | forward (f : Forwarded)
  | reply (originCtx issue : Nat) (r : Reply)
  | changeLock (grant : Bool) (key ctx : Nat)
  | replicate (ack : Bool) (origin issue : Nat) (changes : List Change) (outcome : Reply)
  | transfer (request : Bool) (handle ctx : Nat) (recs : List Record)
  | copy (bucket : Nat) (recs : List Record) (last : Bool)
  | save (ctx : Nat) (recs : List Record) (last : Bool)
deriving DecidableEq, Repr

/-- A ring frame this member originates (12 R340): destination (255 for every member), epoch, frame count, ring clock, direction. -/
structure Frame where
  dst : Nat
  epoch : Nat
  count : Nat
  clock : Nat
  east : Bool
  body : FrameBody
deriving DecidableEq, Repr

/-- What the module puts on its pins and links. -/
inductive Out
  /-- A host-memory read (03 R64): requester, address, bytes. -/
  | hostRead (fn : Fn) (addr bytes : Nat)
  /-- A host-memory write, and whether it carries Relaxed Ordering (03 R66). -/
  | hostWrite (fn : Fn) (addr : Nat) (bytes : Bytes) (relaxed : Bool := false)
  /-- An MSI-X message of a vector (03 R76, R77). -/
  | msix (fn : Fn) (vector addr data : Nat)
  /-- Data a register read returned to its reader. -/
  | readData (fn : Fn) (value : Nat)
  /-- An error response of the interconnect to an internal initiator (13 R386). -/
  | errorResponse (cls : Nat)
  /-- Data an internal read returned. -/
  | internalData (cls value : Nat)
  /-- A ring frame. -/
  | frame (f : Frame)
  /-- A frame for other members passed on out of a port, unread (12 R343). -/
  | relay (h : Hdr) (east : Bool)
  /-- An SMBus read-word answer (02 R41). -/
  | smbusWord (addr value : Nat)
  /-- A line on SVC_TXD: the values it shows, in the manual's order (14 R404; log entry 54). -/
  | uart (line : List Nat)
  /-- An Uncorrectable Internal Error reported through AER (17 R488). -/
  | aerInternal
  /-- An exchange begun with the custodian card in a slot, for a command of an opcode (14 R413). -/
  | cardExchange (slot opcode : Nat)
deriving DecidableEq, Repr

/-! ## OTP and the keeper domain -/

/-- OTP fields (14, table of what OTP holds; 15 R442). -/
structure Otp where
  serial : Nat
  hwStep : Nat
  lcWord : Nat
  vendorDigest : Bytes
  tokenCastOn : Bytes
  tokenAnalysis : Bytes
  tokenBoundOff : Bytes
  jtagFuse : Nat
  fieldsLocked : Bool
  trimDestroyed : Bool
  tamperFuses : List Nat
deriving DecidableEq, Repr

/-- One record of the keeper buffer (15 R448). -/
structure KeeperRec where
  time : Nat
  kind : Nat
  source : Nat
  cls : Nat
deriving DecidableEq, Repr

/-- The keeper domain (15 R430): the two cell sets of the shares K xor M and M and the pointer between them, true for the second (06 R175), the clock
(15 R433), the latch, the zeroised flag, the buffer. `sense` inverts every cell of the set behind the pointer. -/
structure Keeper where
  answers : Bool
  cells0 : Option (Bytes × Bytes)
  cells1 : Option (Bytes × Bytes)
  cellSet : Bool
  sense : Bool
  zeroised : Bool
  latch : Bool
  latchCause : Nat
  clockValid : Bool
  timeUs : Nat
  frac : Nat
  trim : Int
  adjust : Int
  adjFrac : Nat
  timeLost : Bool
  usSinceTick : Nat
  buffer : List KeeperRec
  overwritten : Nat
  onHoldover : Bool
  auxFresh : Bool
deriving DecidableEq, Repr

/-! ## Power, bay and sideband -/

/-- The phases of an orderly removal (02, table of orderly removal; 18 R501). -/
inductive Removal
  | idle
  | abortWindow
  | draining
  | leaving
  | safe
deriving DecidableEq, Repr

/-- The attachment record (02 R55). -/
structure Attach where
  dimms : List Nat
  cell : Nat
  cellFitted : Nat
  chassis : Bytes
  position : Nat
deriving DecidableEq, Repr

/-- Power, bay connector, identity memories and the orderly removal (02). `strapSeen` holds the changes of the straps seen before the log could take
them (R40); `cellAt` the module time at which the pack was fitted (R55). -/
structure Bay where
  auxPower : Bool
  auxLogic : Bool
  p12v : Bool
  ramped : Bool
  mainLoads : Bool
  fabric : Bool
  seatHigh : Bool
  loopsMasked : Bool
  straps : Nat
  bayPos : Nat
  record : Option Bytes
  unsuitable : Bool
  ringBan : Bool
  chassis : Bytes
  attnFitted : Bool
  checkDone : Bool
  keeperState : Nat
  cellState : Nat
  removal : Removal
  removalPending : Bool
  safeToRemove : Bool
  safeAt : Nat
  drainKind : Nat
  drainFrom : Nat
  shutdownCtxs : List Nat
  attachAttention : Bool
  smbAlert : Bool
  ringJoin : Bool
  cell : Cell
  perst : Bool
  dimms : List Dimm
  dimmOk : List Bool
  refreshDouble : List Bool
  dieTemp : Int
  hubTemps : List (Option Int)
  attach : Option Attach
  strapSeen : List (Nat × Nat)
  cellAt : Nat
deriving DecidableEq, Repr

/-! ## GLB, functions, tenants, queues -/

/-- What host software sets in the configuration space of a function (03 R65, R69, R70, R74; log entry 85): the base addresses of BAR0 and, on the PF,
of VF BAR0; Max_Payload_Size and Max_Read_Request_Size by their codes; the enables of R65; whether the function is in D3hot. -/
structure FnCfg where
  bar : Nat := 0
  vfBar : Nat := 0
  mps : Nat := 0
  mrrs : Nat := 2
  relaxed : Bool := true
  tags10 : Bool := false
  compTimeout : Nat := 0
  ecrcGen : Bool := false
  ecrcCheck : Bool := false
  d3hot : Bool := false
deriving DecidableEq, Repr, Inhabited

/-- An MSI-X vector (03 R77): table entry and pending bit. -/
structure Vector' where
  addr : Nat := 0
  data : Nat := 0
  masked : Bool := true
  pending : Bool := false
deriving DecidableEq, Repr, Inhabited

/-- A queue pair: registers of 04 R92 (03 R78 for the admin queue) and the queue manager's view of it. -/
structure Qp where
  sqBase : Nat := 0
  cqBase : Nat := 0
  enable : Bool := false
  irqEn : Bool := false
  vector : Nat := 0
  sqSize : Nat := 6
  cqSize : Nat := 6
  count : Nat := 0
  time : Nat := 0
  sqTail : Nat := 0
  sqHead : Nat := 0
  cqHead : Nat := 0
  cqTail : Nat := 0
  phase : Bool := true
  doorbellErr : Bool := false
  fetchErr : Bool := false
  inflight : Nat := 0
  fenced : Bool := false
  unsignalled : Nat := 0
  retryHold : Bool := false
deriving DecidableEq, Repr, Inhabited

/-- A lock-mode grant (08 R249): lane, version handle held, module time of the grant, the chain where it was transferred. -/
structure Grant where
  lane : Nat
  handle : Nat
  grantedAt : Nat
  recs : List Record
deriving DecidableEq, Repr

/-- An open component session (06 R163). -/
structure Component where
  handle : Nat
  count : Nat
  replace : Bool
  alg : Nat
  kcvMethod : Nat
  usage : Nat
  mode : Nat
  expo : Nat
  expected : Bytes
  notBefore : Nat
  notAfter : Nat
  given : List Nat
  partialXor : Bytes
  openedAt : Nat
  challenge : Bytes
  kemPriv : Bytes
deriving DecidableEq, Repr

/-- The RESET_TENANT with DRAIN that waits (04 R119). -/
structure Drain where
  ctx : Nat
  oldGen : Nat
  newGen : Nat
  ended : Nat
  resets : Nat
deriving DecidableEq, Repr

/-- The policy that SET_TENANT_CONFIG sets (04 R117). -/
structure Policy where
  maxPrio : Nat
  contextCap : Nat
  classMask : Nat
  groupMask : Nat
deriving DecidableEq, Repr, Inhabited

/-- A tenant: VFCFG entry (03 R79), VF registers (03 R81), queue pairs, policy (04 R117; `policyDue` is sealed and applies once the completion of its
command is written), credit (04 R106), configuration space (03 R65). `credited`
says that the tenant has been given credit since the module's start (04 R110). -/
structure Tenant where
  enable : Bool := false
  enableShadow : Bool := false
  lockAllowed : Bool := false
  lockAllowedShadow : Bool := false
  weight : Nat := 0x100
  weightShadow : Nat := 0x100
  commitMarked : Bool := false
  qpCount : Nat := 2
  gen : Nat := 1
  resetCount : Nat := 0
  st : Nat := 0
  bme : Bool := false
  lockKey : Nat := 0
  lockReq : Bool := false
  grant : Option Grant := none
  forced : Bool := false
  refused : Bool := false
  event : Nat := 0
  eventEn : Nat := 0
  eventVector : Nat := 0
  timeLatch : Nat := 0
  msix : Tab Vector' := []
  qps : Tab Qp := []
  policySet : Bool := false
  maxPrio : Nat := 4
  contextCap : Nat := 256
  classMask : Nat := 0
  groupMask : Nat := 0x80
  credit : Int := 0
  refill : Nat := 0
  active : Bool := false
  fetchedInWindow : Bool := false
  discards : Nat := 0
  faultTimes : List Nat := []
  drain : Option Drain := none
  policyDue : Option Policy := none
  component : Option Component := none
  rrNext : Nat := 0
  hostDenyAt : Option Nat := none
  hostDenyOmitted : Nat := 0
  cfg : FnCfg := {}
  credited : Bool := false
deriving DecidableEq, Repr, Inhabited

/-- The GLB block (03 R78), pace (01 R23) and profile (01 R29). -/
structure Glb where
  fwRunning : Bool
  starting : Bool
  vaultLoaded : Bool
  rootOk : Bool
  locked : Bool
  failStop : Bool
  pace : Nat
  settling : Bool
  windowSeq : Nat
  refs : List Nat
  profile : Nat
  active : Nat
  thermalFallback : Bool
  slewing : Bool
  slewInWindow : Bool
  timeLatch : Nat
  event : Nat
  eventEn : Nat
  cfgReject : Bool
  cfgCause : Bool
  cfgOffset : Nat
  pfGen : Nat
  vfCommitPending : Bool
  admin : Qp
deriving DecidableEq, Repr

/-- A fetch read issued and not yet answered (04 R104): queue, first slot, count, contexts set aside. -/
structure FetchRead where
  fn : Fn
  q : Nat
  first : Nat
  count : Nat
deriving DecidableEq, Repr

/-- The host link (03) and the queue manager (04 R110). -/
structure Host' where
  linkUp : Bool
  vfEnable : Bool
  numVFs : Nat
  pfBme : Bool
  pfMsix : Tab Vector'
  rate : Nat
  burst : Nat
  rateWritten : Nat
  burstWritten : Nat
  tenantSel : Nat
  discardTotal : Nat
  fetchTotal : Nat
  reads : List FetchRead
  rrTenant : Nat
  hostDenyAt : Option Nat
  hostDenyOmitted : Nat
  pfCfg : FnCfg
deriving DecidableEq, Repr

/-! ## Starter -/

/-- What a WAITING context waits for, beside its flags. -/
inductive Wait
  | nothing
  | engine
  | fence
  | hostMemory
  | entropy
  | ringReply
  | holder
  | transfer (handle : Nat)
  | cvuPool
  | changeLock (key : Nat)
  | removal
  | ringLeave
  | tenantDrain (tenant : Nat)
  | resetTurn (tenant : Nat)
  | repair
  | keyFill
  | cacheRoom
  | lifecycle
  | joinedAcks (left : Nat)
  | saveGather
deriving DecidableEq, Repr

/-- Where a forwarded-in command came from (12 R22, R360). -/
structure Origin where
  member : Nat
  ctx : Nat
  issue : Nat
deriving DecidableEq, Repr

/-- The kinds of engine units a command needs (17 R483). -/
inductive UnitKind
  | none
  | lane
  | pin
  | pk
  | cvu
deriving DecidableEq, Repr, Inhabited

/-- A request that waits for a unit (08 R231): its kind, the version a lane is to load, the lane of a grant, the order of arrival. -/
structure Want where
  kind : UnitKind
  key : Option Nat
  locked : Option Nat
  seq : Nat
deriving DecidableEq, Repr, Inhabited

/-- A Starter context (05 R121 to R128). `code` is the state code of R123; `loaded` the records whose keys its engine holds, `underGrant` the grant
it reached its lane under (08 R253); `fetchNo` the order in which its command was fetched (04 R119); `policy` CLASS_MASK of its tenant when it passed step 2
of 04 R101 (04 R117); `want` the request for a unit that waits; `avoid` the unit on which it failed and is not to run again (17 R480); `stream` the
trailer that a failure of its streamed decryption writes, with its address (08 R243); `taken` the handles of which its engine has taken values, with the
first of each (08 R238); `undo` the records its change replaces, while members apply it (06 R159). -/
structure Ctx where
  code : Nat := 0x0F
  useNo : Nat := 0
  level : Nat := 0
  fn : Fn := .pf
  gen : Nat := 0
  qp : Nat := 0
  entry : Bytes := []
  flags : Tab Nat := []
  mask : Nat := 0
  wait : Wait := .nothing
  origin : Option Origin := none
  sentTo : Option Nat := none
  issue : Nat := 0
  inputs : Option Inputs := none
  held : Option Reply := none
  engineBegun : Bool := false
  stream : Option (Nat × Bytes) := none
  ranAgain : Bool := false
  transferred : List Record := []
  asked : List Nat := []
  locksHeld : List Nat := []
  changes : List Change := []
  policyPassed : Bool := false
  approved : Bool := false
  routeH : Option Nat := none
  askedAt : Nat := 0
  loaded : List Record := []
  underGrant : Option Grant := none
  undo : List Record := []
  fetchNo : Nat := 0
  policy : Option Nat := none
  want : Option Want := none
  avoid : Option Nat := none
  taken : List (Nat × Nat) := []
deriving DecidableEq, Repr, Inhabited

/-- A command core (05 R129): online, the context it runs, and the order of its dispatch. -/
structure Core where
  online : Bool := true
  running : Option Nat := none
  order : Nat := 0
  faultAt : Option Nat := none
deriving DecidableEq, Repr, Inhabited

/-- Starter (05). `owed` are the posts that engines at work owe; `toRun` the tasks that a pre-emption at a post has put on a core (R130) and whose work
the next TASK_DISPATCH gives. -/
structure Sch where
  ctxs : Tab Ctx
  ready : List (List Nat)
  cores : List Core
  dispatchOrder : Nat
  mgmtReserve : Nat
  mgmtShadow : Nat
  runLimit : Nat
  pending : Bool
  commits : Nat
  dispatchTotal : Nat
  preemptTotal : Nat
  flagOverrun : Nat
  stray : Nat
  runLimitHits : Nat
  tenantSel : Nat
  owed : List (Nat × Nat)
  toRun : List Nat
deriving DecidableEq, Repr

/-! ## Root store, key vault, vault memory -/

/-- One bank of a root-store slot (06 R169, R170): commit record, material wrapped by RFC 3394 under the keeper key, its check value. -/
structure Bank where
  seq : Nat := 0
  code : Nat := 0x0F
  wrapped : Bytes := []
  kcv : Bytes := []
deriving DecidableEq, Repr, Inhabited

/-- A root-store slot: banks A and B. -/
structure Slot where
  a : Bank := {}
  b : Bank := {}
deriving DecidableEq, Repr, Inhabited

/-- A TR-34 nonce issued (09 R279). -/
structure Nonce where
  tenant : Nat
  handle : Nat
  nonce : Bytes
  issuedAt : Nat
deriving DecidableEq, Repr

/-- The root store and the key vault's own registers (06). `marks` holds one more than each high-water mark; `floorSpent` says that the floor would pass
its limit (R157); `cache` the record slots whose records the key cache holds, the latest used first (00 R5). -/
structure Keys where
  root : Tab Slot
  floor : Nat
  floorSpent : Bool
  cache : List Nat
  maskKey : Option Bytes
  tagKey : Option Bytes
  marks : Tab Nat
  everUsed : Tab (List Nat)
  nonces : List Nonce
  stash : Option (Tab Tenant)
deriving DecidableEq, Repr

/-- A counter block (07 R198). -/
structure Group where
  major : Nat := 0
  minors : Tab Nat := []
  frozen : Bool := false
deriving DecidableEq, Repr, Inhabited

/-- An entry of the poison list (07 R217, R223). `copies` says on which copies the unit failed: bit 0 those on even channels, bit 1 those on odd (R216). -/
structure Poison where
  first : Nat := 0
  level : Nat := 0
  cause : Nat := 0
  outcome : Nat := 7
  handles : Nat := 0
  openedOrder : Nat := 0
  copies : Nat := 0
deriving DecidableEq, Repr, Inhabited

/-- The vault memory protector (07). `st` and `frog` are the codes of R223 and R208. -/
structure Vmp where
  st : Nat
  frog : Nat
  mirrored : Bool
  degraded : Bool
  channels : Nat
  dimmCount : Nat
  mirrorCfg : Bool
  frogRate : Nat
  frogPeriod : Nat
  frogPeriodShadow : Nat
  pending : Bool
  commits : Nat
  n : Nat
  memKey : Option Bytes
  oldKey : Option Bytes
  row : Nat
  groups : Tab Group
  nodes : Tab Nat
  cache : List (Nat × Nat)
  frozenNodes : List Nat
  slots : Tab Record
  tombs : List Record
  loadTombs : List Record
  acceptStale : Bool
  sweepTime : Nat
  sweepAt : Option Nat
  sweepRate : Nat
  sweepHosted : Bool
  drawRetry : Bool
  sweepWaits : Bool
  sweeps : Nat
  ecc : List Nat
  ue : Nat
  tagFail : Nat
  minorRolls : Nat
  frozenCount : Nat
  poison : Tab Poison
  poisonOrder : Nat
  report : List (Nat × Nat)
  poisonSel : Nat
  event : Nat
  eventEn : Nat
  manifestSeq : Nat
  chanErr : List (List Nat)
  chanDown : Nat
  changes : List Change
deriving DecidableEq, Repr

/-! ## Engines -/

/-- A lane core (08 R230, R249): the handle of the key held and the tenant that locks it. -/
structure Lane where
  online : Bool := true
  busy : Option Nat := none
  key : Option Nat := none
  lockedBy : Option Nat := none
  faultAt : Option Nat := none
deriving DecidableEq, Repr, Inhabited

/-- A PIN lane or public-key unit. -/
structure EngUnit where
  online : Bool := true
  busy : Option Nat := none
  faultAt : Option Nat := none
deriving DecidableEq, Repr, Inhabited

/-- The engines (08, 09, 10); `arrivals` numbers the requests for units as they come. -/
structure Eng where
  arrivals : Nat
  lanes : List Lane
  lockQueue : List Nat
  pins : List EngUnit
  pks : List EngUnit
  innerOk : Bool
deriving DecidableEq, Repr

/-! ## Ring -/

/-- A ring port (12 R371 RING_PORT). -/
structure Port where
  lanes : Nat := 0
  auth : Bool := false
  failed : Bool := false
  neighbour : Nat := 255
  replay : List (Frame × Nat) := []
  tagFails : List Nat := []
deriving DecidableEq, Repr, Inhabited

/-- What this member knows of another (12 R371 RING_PEER). `kem` and `kemCt` are the key of its last JOIN that was answered and the answer to it (R349). -/
structure Peer where
  pace : Nat := 0
  beatAt : Option Nat := none
  pairKey : Option Bytes := none
  cfgSeq : Nat := 0
  seen : List Nat := []
  clock : Nat := 0
  mldsa : Bytes := []
  p384 : Bytes := []
  kem : Bytes := []
  kemCt : Bytes := []
deriving DecidableEq, Repr, Inhabited

/-- A change lock held at PRIMARY (12 R359): key, holder (member, context), waiters. -/
structure ChangeLock where
  key : Nat
  holder : Nat × Nat
  waiters : List (Nat × Nat)
deriving DecidableEq, Repr

/-- A cached outcome (12 R360). -/
structure Cached where
  origin : Nat
  issue : Nat
  at' : Nat
  aged : Bool
  outcome : Reply
deriving DecidableEq, Repr

/-- The relay ring controller (12). `st` is the code of R371; `lostFrom` the members of which frames were discarded for their tag and whose commands are
still to be issued again (17 R482). -/
structure Ring where
  st : Nat
  config : Option Bytes
  nextConfig : Option Bytes
  joinEn : Bool
  replRate : Nat
  replShadow : Nat
  formWait : Nat
  pending : Bool
  commits : Nat
  epoch : Nat
  present : Nat
  acting : Nat
  mapSeq : Nat
  map : Tab MapEntry
  east : Port
  west : Port
  peers : Tab Peer
  ringKey : Option Bytes
  prevKey : Option Bytes
  nextKey : Option (Nat × Bytes)
  mapEpoch : Nat
  formatDue : Option Bool
  foundRing : Bool
  kemPriv : Bytes
  frameCount : Nat
  clock : Nat
  clockFloor : Nat
  issueNo : Nat
  cache : List Cached
  locks : List ChangeLock
  grants : List (Nat × Nat)
  forwarded : Nat
  reissues : Nat
  losses : Nat
  resends : Nat
  integrity : Nat
  peerSel : Nat
  event : Nat
  eventEn : Nat
  leavers : List Nat
  joiners : List Nat
  suspects : List Nat
  retry : Bool
  loopProof : Bool
  proofHeld : Bool
  copying : List Nat
  syncAsked : List Nat
  syncLow : Nat
  syncOwed : List Nat
  gathered : List Record
  gatherLeft : List Nat
  gatherCtx : Option Nat
  gatherDone : Bool
  waitAcks : List (Nat × List Nat)
  lostFrom : List Nat
deriving DecidableEq, Repr

/-! ## Access table -/

/-- An access-table entry (13 R380). -/
structure ActEntry where
  base : Nat := 0
  last : Nat := 0
  mask : Nat := 0
  r : Bool := false
  w : Bool := false
  x : Bool := false
  valid : Bool := false
  lock : Bool := false
  prot : Bool := false
  resv : Nat := 0
deriving DecidableEq, Repr, Inhabited

/-- The access table (13 R388); `dma` holds the module's own host-memory accesses that wait while it is CLOSED (13 R383, R390). -/
structure Act where
  st : Nat
  claim : Option Nat
  result : Nat
  denyCount : Nat
  entries : Tab ActEntry
  stage : Tab ActEntry
  waiting : List RegAccess
  dma : List (Nat × Out)
deriving DecidableEq, Repr

/-! ## Life cycle and custodians -/

/-- A token session (14 R400): target code, shares given by index, time of BEGIN. -/
structure TokenSession where
  target : Nat
  shares : List (Nat × Bytes)
  openedAt : Nat
deriving DecidableEq, Repr

/-- An approval session (14 R410, R418). -/
structure Session where
  code : Nat := 0x0F
  action : Nat := 0
  digest : Bytes := []
  challenge : Bytes := []
  openedAt : Nat := 0
  ttl : Nat := 0
  approvedBy : List Nat := []
  bound : Nat := 0
deriving DecidableEq, Repr, Inhabited

/-- A custodian card slot (14 R413, R418). -/
structure CardSlot where
  present : Bool := false
  serial : Nat := 0
  classB : Bool := false
  opened : Bool := false
  openedAt : Nat := 0
  used : Bool := false
  lastFail : Nat := 0
  exchange : Option Nat := none
deriving DecidableEq, Repr, Inhabited

/-- The steps of a transition in progress (14 R401). -/
inductive LcPhase
  | none
  | draining
  | wiping
deriving DecidableEq, Repr

/-- The life-cycle controller and the custodian ports (14 R418). -/
structure Lcd where
  st : Nat
  pendingTarget : Nat
  phase : LcPhase
  execCtx : Option Nat
  rolledForward : Bool
  token : Option TokenSession
  tokenFails : Nat
  rootInit : Option (List Nat)
  sessions : List Session
  unlockSession : Option Nat
  refuseCause : Nat
  cards : List CardSlot
  sessionSel : Nat
  ttl : Nat
  ttlShadow : Nat
  remoteEn : Bool
  remoteShadow : Bool
  uartStatus : Bool
  pending : Bool
  commits : Nat
  event : Nat
  eventEn : Nat
deriving DecidableEq, Repr

/-! ## Sentinel -/

/-- An event log entry (15 R452). -/
structure LogEntry where
  seq : Nat := 0
  time : Nat := 0
  type : Nat := 0
  cls : Nat := 0
  flags : Nat := 0
  source : Nat := 0
  fn : Nat := 0xFFFE
  data : Bytes := []
  chain : Bytes := []
deriving DecidableEq, Repr, Inhabited

/-- A windowed source's history (15 R440, R441, R455). -/
structure Hist where
  times : List Nat := []
  out : Bool := false
  loggedAt : Option Nat := none
  summary : Nat := 0
  last : Int := 0
deriving DecidableEq, Repr, Inhabited

/-- The sentinel (15 R460). `invalidAt` holds one more than each time. -/
structure Sen where
  response : Nat
  busy : Bool
  lockCause : Nat
  active : Nat
  latched : Nat
  cls : List Nat
  clsShadow : List Nat
  threshold : Nat
  window : Nat
  esc : Nat
  thresholdShadow : Nat
  windowShadow : Nat
  escShadow : Nat
  pending : Bool
  commits : Nat
  hist : Tab Hist
  log : List LogEntry
  nextSeq : Nat
  oldest : Nat
  lastChain : Bytes
  base : Bytes
  lost : Nat
  readMax : Nat
  releasing : Option Nat
  submitted : List LogEntry
  full : Bool
  event : Nat
  eventEn : Nat
  invalidAt : Tab Nat
deriving DecidableEq, Repr

/-! ## Check values, entropy, maintenance, faults -/

/-- A check-value unit (16 R466). -/
structure Cvu where
  width : Nat := 0x20
  refin : Bool := true
  refout : Bool := true
  raw : Bool := false
  poly : Nat := 0x04C11DB7
  crcInit : Nat := 0xFFFFFFFF
  xorout : Nat := 0xFFFFFFFF
  widthS : Nat := 0x20
  refinS : Bool := true
  refoutS : Bool := true
  rawS : Bool := false
  polyS : Nat := 0x04C11DB7
  initS : Nat := 0xFFFFFFFF
  xoroutS : Nat := 0xFFFFFFFF
  addr : Nat := 0
  len : Nat := 0
  owner : Bool := false
  irqEn : Bool := false
  busy : Bool := false
  cmd : Option Nat := none
  isDone : Bool := false
  error : Bool := false
  err : Nat := 0
  jobs : Nat := 0
  result : Nat := 0
  online : Bool := true
  faultAt : Option Nat := none
  pend : Bool := false
deriving DecidableEq, Repr, Inhabited

/-- The four units and CVU_COMMIT. -/
structure CvuBlock where
  units : List Cvu
  pending : Bool
  commits : Nat
deriving DecidableEq, Repr

/-- The noise sources and the DRBG (16 R473). `draws` names the next free random bytes (log entry 4). -/
structure Ent where
  draws : Nat
  online : Nat
  retired : Nat
  inRow : List Nat
  poolFailed : Bool
  drbgFailed : Bool
  kat : Bool
  requests : Nat
  minSources : Nat
  minShadow : Nat
  pending : Bool
  commits : Nat
  reseedDue : Bool
  fails : List Nat
  reseeds : Nat
  lastReseed : Nat
  event : Nat
  eventEn : Nat
  seeded : Bool
deriving DecidableEq, Repr

/-- A maintenance activity (18 R503, R515). `withdrawn`: CELL_REPLACE has seen the old pack go (R511). -/
structure Activity where
  code : Nat := 0
  st : Nat := 0
  status : Nat := 0
  done' : Nat := 0
  total : Nat := 0
  detail : Nat := 0
  started : Nat := 0
  ended : Nat := 0
  arg : Nat := 0
  image : Option Image := none
  withdrawn : Bool := false
deriving DecidableEq, Repr, Inhabited

/-- The maintenance slot, the firmware slots and the boot record (18, 05 R139). -/
structure Mnt where
  occupant : Option Activity
  companion : Option Activity
  last : Activity
  slotA : Option Image
  slotB : Option Image
  activeB : Bool
  trial : Bool
  tried : Bool
  runningB : Bool
  running : Option Image
deriving DecidableEq, Repr

/-- A fault in a handler's care (17 R477): as raised, the entry of the fault that was passed up to it, FLAGS.OVERLAP, and what lower
handlings passed up with it (17 R484). -/
structure HeldFault where
  info : FaultInfo
  causedBy : Nat := 0xFFFFFFFFFFFFFFFF
  overlap : Bool := false
  below : List FaultInfo := []
deriving DecidableEq, Repr

/-- One scope's handler slot (17 R477, R478). -/
structure Scope where
  current : Option HeldFault := none
  waiting : List HeldFault := []
deriving DecidableEq, Repr, Inhabited

/-- The four scopes and the subsystem a module-scope handler holds. -/
structure Flt where
  scopes : List Scope
  qmFailed : Bool
  noAckRetried : Bool
deriving DecidableEq, Repr

/-! ## The whole state -/

/-- Everything the manual gives the module. -/
structure Dev where
  otp : Otp
  keeper : Keeper
  bay : Bay
  glb : Glb
  host : Host'
  tenants : Tab Tenant
  sch : Sch
  keys : Keys
  vmp : Vmp
  eng : Eng
  ring : Ring
  act : Act
  lcd : Lcd
  sen : Sen
  cvu : CvuBlock
  ent : Ent
  mnt : Mnt
  flt : Flt
  out : List Out
deriving DecidableEq, Repr

/-- The block: the device and the commands that wait, first in, first out. -/
structure State where
  dev : Dev
  pending : List Instr
deriving DecidableEq, Repr

/-- The model's only fault. Safe: no step is taken. -/
inductive Fault
  /-- Raised by JTAG_ACCESS and SERVICE_UART_INPUT for an address that the 40-bit internal address space of chapter 13 does not hold. Safe. -/
  | addressSpace
deriving DecidableEq, Repr

/-- The model's refusals. -/
inductive Refusal
  /-- Raised by no meaning: it marks a row that has none yet. Safe. -/
  | notModelled (mnemonic : String)
  /-- Raised by `step` for a command whose operand lies outside its field, which no pin or register of the module can carry. Safe. -/
  | illFormed
deriving DecidableEq, Repr

/-! ## Reset: a sled as it leaves the factory, without power (log entry 3) -/

/-- Access-table entry of a range, with its classes and permissions (13 R377). -/
def romEntry (first last mask : Nat) (r w x prot : Bool) : ActEntry :=
  { base := first / 64, last := last / 64, mask, r, w, x, valid := true, lock := true, prot }

/-- Entries 0 to 13 as the mask ROM installs them (13 R377). An entry has one permission set for its classes; where the table of
R377 gives two classes different permissions, the entry holds their union and `Ops` applies the table's split (log entry 12). -/
def romEntries : List ActEntry :=
  [ romEntry 0x0044000000 0x004400FFFF 0x007 true true false true,
    romEntry 0x0040000000 0x00403FFFFF 0x100 true true false true,
    romEntry 0x0041000000 0x0041001FFF 0x105 true false false true,
    romEntry 0x0042000000 0x004200FFFF 0x00F true true false true,
    romEntry 0x0045000000 0x00450FFFFF 0x00F true true false true,
    romEntry 0x0043000000 0x00430FFFFF 0x406 true true false true,
    romEntry 0x0100000000 0x01FFFFFFFF 0x407 true true false true,
    romEntry 0x0000000000 0x000003FFFF 0x001 true false true true,
    romEntry 0x0001000000 0x00017FFFFF 0x00F true true true true,
    romEntry 0x0002000000 0x0002FFFFFF 0x00E true true false true,
    romEntry 0x0004000000 0x00043FFFFF 0x00E true true false true,
    romEntry 0x0046000000 0x0046FFFFFF 0x28E true true false true,
    romEntry 0x0010000000 0x00100FFFFF 0x01E true true false false,
    romEntry 0xFF00000000 0xFF0000003F 0x060 true true false false ]

/-- Entries 14 to 31: VALID 0 and LOCK 1 (13 R377). -/
def lockedEntry : ActEntry := { lock := true }

/-- The table at fabric reset, by entry number. -/
def actAtReset : Tab ActEntry :=
  (romEntries.zipIdx.map fun p => (p.2, p.1)) ++ ((List.range 18).map fun j => (j + 14, lockedEntry))

/-- The service image the factory programmed in slot A (log entry 3). -/
def factoryImage : Image :=
  { formOk := true, type := 1, major := 1, minor := 0, security := 1, stepMin := 1, stepMax := 255, digestOk := true, vendorOk := true }

/-- OTP of a shipped module. -/
def resetOtp : Otp :=
  { serial := 0x3A0701195C2E8810, hwStep := 1, lcWord := 0xFFFFFFFF, vendorDigest := [], tokenCastOn := [], tokenAnalysis := [],
    tokenBoundOff := [], jtagFuse := 0xFF, fieldsLocked := true, trimDestroyed := false, tamperFuses := [0, 0, 0, 0, 0] }

/-- The keeper of a shipped module. -/
def resetKeeper : Keeper :=
  { answers := true, cells0 := none, cells1 := none, cellSet := false, sense := false, zeroised := true, latch := false,
    latchCause := 0xFF, clockValid := true, timeUs := 789004800000000, frac := 0, trim := 0, adjust := 0, adjFrac := 0,
    timeLost := false, usSinceTick := 0, buffer := [], overwritten := 0, onHoldover := false, auxFresh := false }

/-- A sled out of its bay. -/
def resetBay : Bay :=
  { auxPower := false, auxLogic := false, p12v := false, ramped := false, mainLoads := false, fabric := false, seatHigh := true,
    loopsMasked := false, straps := 0, bayPos := 0, record := none, unsuitable := false, ringBan := false, chassis := [],
    attnFitted := false, checkDone := false, keeperState := 0, cellState := 0, removal := .idle, removalPending := false,
    safeToRemove := false, safeAt := 0, drainKind := 0, drainFrom := 0, shutdownCtxs := [], attachAttention := false,
    smbAlert := false, ringJoin := false, cell := {}, perst := true, dimms := [],
    dimmOk := [false, false, false, false], refreshDouble := [false, false, false, false], dieTemp := 0,
    hubTemps := [none, none, none, none], attach := none, strapSeen := [], cellAt := 0 }

/-- The admin queue pair at reset (03 R78). -/
def resetQp : Qp := {}

/-- The GLB block at reset (03 R78). -/
def resetGlb : Glb :=
  { fwRunning := false, starting := false, vaultLoaded := false, rootOk := false, locked := false, failStop := false, pace := 0,
    settling := false, windowSeq := 0, refs := [0, 0, 0, 0], profile := 2, active := 2, thermalFallback := false, slewing := false,
    slewInWindow := false, timeLatch := 0, event := 0, eventEn := 0, cfgReject := false, cfgCause := false, cfgOffset := 0,
    pfGen := 1, vfCommitPending := false, admin := resetQp }

/-- The host link and the queue manager at reset (03 R70, 04 R110). -/
def resetHost : Host' :=
  { linkUp := false, vfEnable := false, numVFs := 0, pfBme := false, pfMsix := [], rate := 0x1770, burst := 4,
    rateWritten := 0x1770, burstWritten := 4, tenantSel := 0, discardTotal := 0, fetchTotal := 0, reads := [], rrTenant := 0,
    hostDenyAt := none, hostDenyOmitted := 0, pfCfg := {} }

/-- Starter at reset (05 R133). -/
def resetSch : Sch :=
  { ctxs := [], ready := List.replicate 8 [], cores := List.replicate 24 {}, dispatchOrder := 0, mgmtReserve := 1, mgmtShadow := 1,
    runLimit := 200, pending := false, commits := 0, dispatchTotal := 0, preemptTotal := 0, flagOverrun := 0, stray := 0,
    runLimitHits := 0, tenantSel := 0, owed := [], toRun := [] }

/-- The key vault at reset: root store erased by transition 1 (14 R398). -/
def resetKeys : Keys :=
  { root := [], floor := 0, floorSpent := false, cache := [], maskKey := none, tagKey := none, marks := [], everUsed := [], nonces := [], stash := none }

/-- The VMP at reset (07 R223). -/
def resetVmp : Vmp :=
  { st := 0x0F, frog := 0x0F, mirrored := false, degraded := false, channels := 0, dimmCount := 0, mirrorCfg := false, frogRate := 8,
    frogPeriod := 24, frogPeriodShadow := 24, pending := false, commits := 0, n := 0, memKey := none, oldKey := none, row := 0,
    groups := [], nodes := [], cache := [], frozenNodes := [], slots := [], tombs := [], loadTombs := [], acceptStale := false,
    sweepTime := 0, sweepAt := none, sweepRate := 8, sweepHosted := false, drawRetry := false, sweepWaits := false, sweeps := 0,
    ecc := [0, 0, 0, 0], ue := 0, tagFail := 0, minorRolls := 0, frozenCount := 0, poison := [], poisonOrder := 0, report := [],
    poisonSel := 0, event := 0, eventEn := 0, manifestSeq := 0, chanErr := [[], [], [], []], chanDown := 0, changes := [] }

/-- The engines at reset (08 R230, 09 R260, 10 R281). -/
def resetEng : Eng :=
  { arrivals := 0, lanes := List.replicate 64 {}, lockQueue := [], pins := List.replicate 16 {}, pks := List.replicate 16 {}, innerOk := true }

/-- The ring controller at reset (12 R371). -/
def resetRing : Ring :=
  { st := 0x0F, config := none, nextConfig := none, joinEn := true, replRate := 4, replShadow := 4, formWait := 10, pending := false, commits := 0,
    epoch := 0, present := 0, acting := 0, mapSeq := 0, map := [], east := {}, west := {}, peers := [], ringKey := none,
    prevKey := none, nextKey := none, mapEpoch := 0, formatDue := none, foundRing := false, kemPriv := [], frameCount := 0, clock := 0, clockFloor := 0, issueNo := 1, cache := [], locks := [],
    grants := [], forwarded := 0, reissues := 0, losses := 0, resends := 0, integrity := 0, peerSel := 0, event := 0, eventEn := 0,
    leavers := [], joiners := [], suspects := [], retry := false, loopProof := false, proofHeld := false, copying := [],
    syncAsked := [], syncLow := 0, syncOwed := [], gathered := [], gatherLeft := [], gatherCtx := none, gatherDone := false, waitAcks := [], lostFrom := [] }

/-- The access table at reset (13 R377, R388). -/
def resetAct : Act :=
  { st := 0x0F, claim := none, result := 0, denyCount := 0, entries := actAtReset, stage := actAtReset,
    waiting := [], dma := [] }

/-- The life-cycle controller at reset (14 R418). -/
def resetLcd : Lcd :=
  { st := 0x55, pendingTarget := 0, phase := .none, execCtx := none, rolledForward := false, token := none, tokenFails := 0,
    rootInit := none, sessions := List.replicate 8 {}, unlockSession := none, refuseCause := 0, cards := [{}, {}], sessionSel := 0,
    ttl := 600, ttlShadow := 600, remoteEn := false, remoteShadow := false, uartStatus := true, pending := false, commits := 0,
    event := 0, eventEn := 0 }

/-- The sentinel at reset (15 R460). -/
def resetSen : Sen :=
  { response := 0x0F, busy := false, lockCause := 0xFF, active := 0, latched := 0, cls := [2, 2, 2, 2, 2], clsShadow := [2, 2, 2, 2, 2],
    threshold := 8, window := 1000, esc := 2, thresholdShadow := 8, windowShadow := 1000, escShadow := 2, pending := false,
    commits := 0, hist := [], log := [], nextSeq := 0, oldest := 0, lastChain := List.replicate 16 0, base := List.replicate 16 0,
    lost := 0, readMax := 0xFFFFFFFFFFFFFFFF, releasing := none, submitted := [], full := false, event := 0, eventEn := 0,
    invalidAt := [] }

/-- The check-value units at reset (16 R466). -/
def resetCvu : CvuBlock := { units := List.replicate 4 {}, pending := false, commits := 0 }

/-- The entropy source at reset (16 R473). -/
def resetEnt : Ent :=
  { draws := 0, online := 0, retired := 0, inRow := [0, 0, 0, 0], poolFailed := false, drbgFailed := false, kat := true, requests := 0,
    minSources := 2, minShadow := 2, pending := false, commits := 0, reseedDue := false, fails := [0, 0, 0, 0], reseeds := 0,
    lastReseed := 0, event := 0, eventEn := 0, seeded := false }

/-- The maintenance slot and the firmware slots of a shipped module. -/
def resetMnt : Mnt :=
  { occupant := none, companion := none, last := {}, slotA := some factoryImage, slotB := none, activeB := false, trial := false,
    tried := false, runningB := false, running := none }

/-- No fault is being handled. -/
def resetFlt : Flt := { scopes := List.replicate 4 {}, qmFailed := false, noAckRetried := false }

/-- The device at reset. -/
def Dev.reset : Dev :=
  { otp := resetOtp, keeper := resetKeeper, bay := resetBay, glb := resetGlb, host := resetHost, tenants := [], sch := resetSch,
    keys := resetKeys, vmp := resetVmp, eng := resetEng, ring := resetRing, act := resetAct, lcd := resetLcd, sen := resetSen,
    cvu := resetCvu, ent := resetEnt, mnt := resetMnt, flt := resetFlt, out := [] }

/-- The block right after reset: a shipped sled without power, and no command waiting (log entry 3). -/
def State.reset : State := { dev := Dev.reset, pending := [] }

end Sys2Proof.Machine
end

