-- ==== Sys2Proof/Machine/Bytes.lean ====
section
/-! DEFINITION. Byte strings, bit fields, and the canonical sparse tables: the plain operations every meaning uses. -/

namespace Sys2Proof.Machine

/-- The value of a little-endian field (00 R10). -/
def leNat : Bytes → Nat
  | [] => 0
  | b :: t => b.toNat + 256 * leNat t

/-- `len` bytes of a value, little-endian (00 R10). -/
def natLe : (len v : Nat) → Bytes
  | 0, _ => []
  | n + 1, v => BitVec.ofNat 8 v :: natLe n (v / 256)

/-- The value of a big-endian string. -/
def beNat (b : Bytes) : Nat := leNat b.reverse

/-- `len` bytes of a value, big-endian. -/
def natBe (len v : Nat) : Bytes := (natLe len v).reverse

/-- `n` bytes of a string from `off`. -/
def slice (p : Bytes) (off n : Nat) : Bytes := (p.drop off).take n

/-- The little-endian field of `n` bytes at `off`. -/
def field (p : Bytes) (off n : Nat) : Nat := leNat (slice p off n)

/-- Whether `n` bytes at `off` are zero (00 R12). -/
def zeros (p : Bytes) (off n : Nat) : Bool := (slice p off n).all (· == 0)

/-- `n` zero bytes. -/
def zeroBytes (n : Nat) : Bytes := List.replicate n 0

/-- A string padded with zeros on the right, or cut, to `n` bytes. -/
def fitTo (n : Nat) (b : Bytes) : Bytes := (b ++ zeroBytes n).take n

/-- Exclusive or of two strings, as long as the shorter. -/
def xorBytes : Bytes → Bytes → Bytes
  | a :: s, b :: t => (a ^^^ b) :: xorBytes s t
  | _, _ => []

/-- ASCII bytes of a list of character codes. -/
def ascii (l : List Nat) : Bytes := l.map (BitVec.ofNat 8)

/-- A string cut into blocks of `n` bytes, the last maybe shorter; `fuel` bounds the blocks. -/
def chunksAux (n : Nat) : (fuel : Nat) → Bytes → List Bytes
  | 0, _ => []
  | f + 1, b => if b.isEmpty then [] else b.take n :: chunksAux n f (b.drop n)

/-- A string cut into blocks of `n` bytes. -/
def chunks (n : Nat) (b : Bytes) : List Bytes := chunksAux n b.length b

/-- Bit `i` of a number (00 R11). -/
def bit (v i : Nat) : Bool := v / 2 ^ i % 2 == 1

/-- Bits [hi:lo] of a number (00 R11). -/
def bits (v hi lo : Nat) : Nat := v / 2 ^ lo % 2 ^ (hi + 1 - lo)

/-- A flag as a bit at position `i`. -/
def flag (b : Bool) (i : Nat) : Nat := if b then 2 ^ i else 0

/-- A number with bit `i` set. -/
def setBit (v i : Nat) : Nat := v ||| 2 ^ i

/-- A number with the bits of a mask cleared. -/
def clearBits (v m : Nat) : Nat := v - (v &&& m)

/-- A counter that holds at its largest value (17 R496). -/
def holdAt (width v : Nat) : Nat := min v (2 ^ width - 1)

/-- A counter that wraps. -/
def wrapAt (width v : Nat) : Nat := v % 2 ^ width

/-- A signed value as a two's complement field. -/
def signed (width : Nat) (v : Int) : Nat := (v % (2 ^ width : Nat)).toNat

/-- The signed value of a two's complement field. -/
def unsigned (width v : Nat) : Int :=
  if bit v (width - 1) then (v : Int) - (2 ^ width : Nat) else v

/-- The value at a key of a sparse table; `d` where nothing is listed. -/
def tabGet {α : Type} (d : α) : Tab α → Nat → α
  | [], _ => d
  | (k', v) :: t, k => if k = k' then v else tabGet d t k

/-- A sparse table with one value set, kept in rising key order with no entry equal to the default. -/
def tabPut {α : Type} [DecidableEq α] (d : α) : Tab α → Nat → α → Tab α
  | [], k, v => if v = d then [] else [(k, v)]
  | (k', v') :: t, k, v =>
    if k < k' then (if v = d then (k', v') :: t else (k, v) :: (k', v') :: t)
    else if k = k' then (if v = d then t else (k, v) :: t)
    else (k', v') :: tabPut d t k v

/-- The canonical form of a sparse table: keys strictly rising, no entry equal to the default. -/
def tabWf {α : Type} [DecidableEq α] (d : α) : Tab α → Bool
  | [] => true
  | [(_, v)] => decide (v ≠ d)
  | (k, v) :: (k', v') :: t => decide (v ≠ d) && decide (k < k') && tabWf d ((k', v') :: t)

/-- A sparse table in canonical form: as it is where it has the form, else built again entry by entry. -/
def tabCanon {α : Type} [DecidableEq α] (d : α) (t : Tab α) : Tab α :=
  if tabWf d t then t else t.foldr (fun p acc => tabPut d acc p.1 p.2) []

/-- Element `i` of a list replaced by a function's value. -/
def modifyAt {α : Type} (l : List α) (i : Nat) (f : α → α) : List α := l.modify i f

/-- The lowest number that a list does not hold. -/
def lowestNotIn (l : List Nat) : (fuel k : Nat) → Nat
  | 0, k => k
  | f + 1, k => if l.contains k then lowestNotIn l f (k + 1) else k

/-- Insertion of a number into a rising list without repeats. -/
def insertNat (l : List Nat) (k : Nat) : List Nat :=
  match l with
  | [] => [k]
  | a :: t => if k < a then k :: a :: t else if k = a then a :: t else a :: insertNat t k

/-- The first of a list that a test accepts, with its position. -/
def findAt {α : Type} (p : α → Bool) : (l : List α) → (from' : Nat) → Option (Nat × α)
  | [], _ => none
  | a :: t, i => if p a then some (i, a) else findAt p t (i + 1)

/-- Insertion sort by a key, stable. -/
def insertBy {α : Type} (key : α → Nat) (a : α) : List α → List α
  | [] => [a]
  | b :: t => if key a < key b then a :: b :: t else b :: insertBy key a t

/-- A list in rising order of a key. -/
def sortBy {α : Type} (key : α → Nat) (l : List α) : List α := l.foldl (fun acc a => insertBy key a acc) []

end Sys2Proof.Machine
end

