-- ==== Sys2Proof/Machine/Crypto.lean ====
section
/-! DEFINITION. The ciphers, modes, digests, key derivations and check values that the lane cores, the public-key units, the key vault and the
check-value units compute (00 R8; 08 R230, R234, R237; 06 R172, R174; 09 R264, R277; 10 R291, R292, R305, R313; 15 R453; 16 R461), written out
from the standards the manual names (PRESUMED, log entry 6). The dummy rounds and the shuffled byte order of 08 R236 change no result and are
not part of the functions. -/

namespace Sys2Proof.Machine

/-! ## AES (FIPS 197)

A block and a round key are one number of 128 bits, the first byte highest, as the standard writes a state column by column; the two substitution
tables are numbers whose byte `b` is the value at `b`. -/

/-- The AES S-box, as one number. -/
def sboxWord : Nat :=
    0x16bb54b00f2d99416842e6bf0d89a18cdf2855cee9871e9b948ed9691198f8e19e1dc186b95735610ef6034866b53e708a8bbd4b1f74dde8c6b4a61c2e2578ba * 2 ^ 1536 +
    0x8ae7a65eaf4566ca94ed58d6d37c8e779e4959162acd3c25c2406490a3a32e0db0b5ede14b8ee4688902a22dc4f816073195d643d7ea7c41744975fec130ccd * 2 ^ 1024 +
    0xd2f3ff1021dab6bcf5389d928f40a351a89f3c507f02f94585334d43fbaaefd0cf584c4a39becb6a5bb1fc20ed00d153842fe329b3d63b52a05a6e1b1a2c8309 * 2 ^ 512 +
    0x75b227ebe28012079a059618c323c7041531d871f1e5a534ccf73f362693fdb7c072a49cafa2d4adf04759fa7dc982ca76abd7fe2b670130c56f6bf27b777c63

/-- The inverse S-box, as one number. -/
def invSboxWord : Nat :=
    0x7d0c2155631469e126d677ba7e042b17619953833cbbebc8b0f52aae4d3be0a0ef9cc9939f7ae52d0d4ab519a97f51605fec8027591012b131c7078833a8dd1f * 2 ^ 1536 +
    0xf45acd78fec0db9a2079d2c64b3e56fc1bbe18aa0e62b76f89c5291d711af1476edf751ce837f9e28535ade72274ac9673e6b4f0cecff297eadc674f4111913a * 2 ^ 1024 +
    0x6b8a130103bdafc1020f3fca8f1e2cd00645b3b80558e4f70ad3bc8c00abd890849d8da75746155edab9edfd5048706c92b6655dcc5ca4d41698688664f6f872 * 2 ^ 512 +
    0x25d18b6d49a25b76b224d92866a12e084ec3fa420b954cee3d23c2a632947b54cbe9dec444438e3487ff2f9b8239e37cfbd7f3819ea340bf38a53630d56a0952

/-- The S-box at a byte. -/
def sub (b : Nat) : Nat := sboxWord >>> (8 * b) % 256

/-- The inverse S-box at a byte. -/
def invSub (b : Nat) : Nat := invSboxWord >>> (8 * b) % 256

/-- Byte `i` of a block, the first byte being 0. -/
def byteOf (s i : Nat) : Nat := s >>> (8 * (15 - i)) % 256

/-- A block whose byte j is a substitution of byte `order j` of another: the byte substitution and the row shift of a round together. -/
def substitute (f : Nat → Nat) (order : List Nat) (s : Nat) : Nat := order.foldl (fun acc i => acc * 256 + f (byteOf s i)) 0

/-- The order in which ShiftRows takes the bytes of a block. -/
def shiftOrder : List Nat := (List.range 16).map fun j => (5 * j) % 16

/-- The order in which InvShiftRows takes them. -/
def unshiftOrder : List Nat := (List.range 16).map fun j => (13 * j) % 16

/-- A byte repeated in all 16 places of a block. -/
def everyByte (b : Nat) : Nat := b * 0x01010101010101010101010101010101

/-- Every byte of a block times x in the field of FIPS 197. -/
def timesX (s : Nat) : Nat := ((s &&& everyByte 0x7F) <<< 1) ^^^ ((s >>> 7 &&& everyByte 1) * 0x1B)

/-- Every column of a block turned by one row upwards. -/
def turn (s : Nat) : Nat :=
  (s &&& 0x00FFFFFF00FFFFFF00FFFFFF00FFFFFF) <<< 8 ||| (s >>> 24 &&& 0x000000FF000000FF000000FF000000FF)

/-- MixColumns. -/
def mixColumns (s : Nat) : Nat :=
  let t := turn s
  timesX (s ^^^ t) ^^^ t ^^^ turn (t ^^^ turn t)

/-- InvMixColumns: the matrix of MixColumns after a correction of every byte by four times its sum with the byte two rows away. -/
def unmixColumns (s : Nat) : Nat := mixColumns (s ^^^ timesX (timesX (s ^^^ turn (turn s))))

/-- The substitution of the four bytes of a word. -/
def subWord (w : Nat) : Nat := sub (w >>> 24) * 2 ^ 24 + sub (w >>> 16 % 256) * 2 ^ 16 + sub (w >>> 8 % 256) * 2 ^ 8 + sub (w % 256)

/-- The words of the key schedule from word i on, the newest first. -/
def expandKey (nk : Nat) : (n i rcon : Nat) → List Nat → List Nat
  | 0, _, _, ws => ws
  | n + 1, i, rcon, ws =>
    let prev := ws.headD 0
    let t := if i % nk = 0 then subWord (prev % 2 ^ 24 * 256 + prev >>> 24) ^^^ rcon * 2 ^ 24
      else if 6 < nk ∧ i % nk = 4 then subWord prev else prev
    expandKey nk n (i + 1) (if i % nk = 0 then timesX rcon else rcon) ((ws.getD (nk - 1) 0 ^^^ t) :: ws)

/-- A list of words joined four by four. -/
def joinFours : List Nat → List Nat
  | a :: b :: c :: d :: t => (((a * 2 ^ 32 + b) * 2 ^ 32 + c) * 2 ^ 32 + d) :: joinFours t
  | _ => []

/-- The round keys of a key of 16, 24 or 32 bytes, first round first. -/
def roundKeys (key : Bytes) : List Nat :=
  let nk := key.length / 4
  joinFours (expandKey nk (3 * nk + 28) nk 1 ((chunks 4 key).map beNat).reverse).reverse

/-- The rounds of the cipher over the round keys that are left. -/
def cipherRounds : List Nat → Nat → Nat
  | [], s => s
  | [k], s => substitute sub shiftOrder s ^^^ k
  | k :: ks, s => cipherRounds ks (mixColumns (substitute sub shiftOrder s) ^^^ k)

/-- The rounds of the inverse cipher over the round keys that are left, the last first. -/
def decipherRounds : List Nat → Nat → Nat
  | [], s => s
  | [k], s => substitute invSub unshiftOrder s ^^^ k
  | k :: ks, s => decipherRounds ks (unmixColumns (substitute invSub unshiftOrder s ^^^ k))

/-- AES encryption of one 16-byte block under a key of 16, 24 or 32 bytes. -/
def aesEnc (key block : Bytes) : Bytes :=
  match roundKeys key with
  | [] => []
  | k :: ks => natBe 16 (cipherRounds ks (beNat block ^^^ k))

/-- AES decryption of one 16-byte block. -/
def aesDec (key block : Bytes) : Bytes :=
  match (roundKeys key).reverse with
  | [] => []
  | k :: ks => natBe 16 (decipherRounds ks (beNat block ^^^ k))

/-! ## DES and TDES (SP 800-67) -/

/-- Bits of a number, most significant first. -/
def toBits (w v : Nat) : List Bool := (List.range w).map fun i => bit v (w - 1 - i)

/-- The number of a list of bits, most significant first. -/
def ofBits (l : List Bool) : Nat := l.foldl (fun acc b => 2 * acc + (if b then 1 else 0)) 0

/-- A selection of bits, numbered from 1. -/
def permute (table : List Nat) (l : List Bool) : List Bool := table.map fun j => l.getD (j - 1) false

def desIp : List Nat :=
  [58,50,42,34,26,18,10,2,60,52,44,36,28,20,12,4,62,54,46,38,30,22,14,6,64,56,48,40,32,24,16,8,
   57,49,41,33,25,17,9,1,59,51,43,35,27,19,11,3,61,53,45,37,29,21,13,5,63,55,47,39,31,23,15,7]

def desFp : List Nat :=
  [40,8,48,16,56,24,64,32,39,7,47,15,55,23,63,31,38,6,46,14,54,22,62,30,37,5,45,13,53,21,61,29,
   36,4,44,12,52,20,60,28,35,3,43,11,51,19,59,27,34,2,42,10,50,18,58,26,33,1,41,9,49,17,57,25]

def desE : List Nat :=
  [32,1,2,3,4,5,4,5,6,7,8,9,8,9,10,11,12,13,12,13,14,15,16,17,16,17,18,19,20,21,20,21,22,23,24,25,24,25,26,27,28,29,28,29,30,31,32,1]

def desP : List Nat :=
  [16,7,20,21,29,12,28,17,1,15,23,26,5,18,31,10,2,8,24,14,32,27,3,9,19,13,30,6,22,11,4,25]

def desPc1 : List Nat :=
  [57,49,41,33,25,17,9,1,58,50,42,34,26,18,10,2,59,51,43,35,27,19,11,3,60,52,44,36,
   63,55,47,39,31,23,15,7,62,54,46,38,30,22,14,6,61,53,45,37,29,21,13,5,28,20,12,4]

def desPc2 : List Nat :=
  [14,17,11,24,1,5,3,28,15,6,21,10,23,19,12,4,26,8,16,7,27,20,13,2,41,52,31,37,47,55,30,40,51,45,33,48,44,49,39,56,34,53,46,42,50,36,29,32]

def desShifts : List Nat := [1,1,2,2,2,2,2,2,1,2,2,2,2,2,2,1]

def desS : List (List Nat) :=
  [[14,4,13,1,2,15,11,8,3,10,6,12,5,9,0,7,0,15,7,4,14,2,13,1,10,6,12,11,9,5,3,8,4,1,14,8,13,6,2,11,15,12,9,7,3,10,5,0,15,12,8,2,4,9,1,7,5,11,3,14,10,0,6,13],
   [15,1,8,14,6,11,3,4,9,7,2,13,12,0,5,10,3,13,4,7,15,2,8,14,12,0,1,10,6,9,11,5,0,14,7,11,10,4,13,1,5,8,12,6,9,3,2,15,13,8,10,1,3,15,4,2,11,6,7,12,0,5,14,9],
   [10,0,9,14,6,3,15,5,1,13,12,7,11,4,2,8,13,7,0,9,3,4,6,10,2,8,5,14,12,11,15,1,13,6,4,9,8,15,3,0,11,1,2,12,5,10,14,7,1,10,13,0,6,9,8,7,4,15,14,3,11,5,2,12],
   [7,13,14,3,0,6,9,10,1,2,8,5,11,12,4,15,13,8,11,5,6,15,0,3,4,7,2,12,1,10,14,9,10,6,9,0,12,11,7,13,15,1,3,14,5,2,8,4,3,15,0,6,10,1,13,8,9,4,5,11,12,7,2,14]] ++
  [[2,12,4,1,7,10,11,6,8,5,3,15,13,0,14,9,14,11,2,12,4,7,13,1,5,0,15,10,3,9,8,6,4,2,1,11,10,13,7,8,15,9,12,5,6,3,0,14,11,8,12,7,1,14,2,13,6,15,0,9,10,4,5,3],
   [12,1,10,15,9,2,6,8,0,13,3,4,14,7,5,11,10,15,4,2,7,12,9,5,6,1,13,14,0,11,3,8,9,14,15,5,2,8,12,3,7,0,4,10,1,13,11,6,4,3,2,12,9,5,15,10,11,14,1,7,6,0,8,13],
   [4,11,2,14,15,0,8,13,3,12,9,7,5,10,6,1,13,0,11,7,4,9,1,10,14,3,5,12,2,15,8,6,1,4,11,13,12,3,7,14,10,15,6,8,0,5,9,2,6,11,13,8,1,4,10,7,9,5,0,15,14,2,3,12],
   [13,2,8,4,6,15,11,1,10,9,3,14,5,0,12,7,1,15,13,8,10,3,7,4,12,5,6,11,0,14,9,2,7,11,4,1,9,12,14,2,0,6,10,13,15,3,5,8,2,1,14,7,4,10,8,13,15,12,9,0,3,5,6,11]]

/-- The 16 DES round keys. -/
def desKeys : (shifts : List Nat) → (c d : List Bool) → List (List Bool)
  | [], _, _ => []
  | n :: ns, c, d =>
    let c' := c.drop n ++ c.take n
    let d' := d.drop n ++ d.take n
    permute desPc2 (c' ++ d') :: desKeys ns c' d'

/-- The DES round function. -/
def desF (r k : List Bool) : List Bool :=
  let x := (permute desE r).zipWith xor k
  permute desP ((List.range 8).map (fun j =>
    let six := (x.drop (6 * j)).take 6
    let row := ofBits [six.getD 0 false, six.getD 5 false]
    let col := ofBits ((six.drop 1).take 4)
    toBits 4 ((desS.getD j []).getD (16 * row + col) 0))).flatten

/-- The DES rounds. -/
def desRounds : List (List Bool) → List Bool → List Bool → List Bool
  | [], l, r => r ++ l
  | k :: ks, l, r => desRounds ks r (l.zipWith xor (desF r k))

/-- DES of one 8-byte block, `inv` for decryption. -/
def des (inv : Bool) (key block : Bytes) : Bytes :=
  let pk := permute desPc1 (toBits 64 (beNat key))
  let ks := desKeys desShifts (pk.take 28) (pk.drop 28)
  let x := permute desIp (toBits 64 (beNat block))
  natBe 8 (ofBits (permute desFp (desRounds (if inv then ks.reverse else ks) (x.take 32) (x.drop 32))))

/-- The third part of a TDES key: the first again for a two-key key. -/
def tdesThird (key : Bytes) : Bytes := if key.length ≤ 16 then key.take 8 else slice key 16 8

/-- TDES encryption of one block under a two-key or three-key key. -/
def tdesEnc (key block : Bytes) : Bytes :=
  des false (tdesThird key) (des true (slice key 8 8) (des false (key.take 8) block))

/-- TDES decryption of one block. -/
def tdesDec (key block : Bytes) : Bytes :=
  des true (key.take 8) (des false (slice key 8 8) (des true (tdesThird key) block))

/-! ## Block modes (08 R234, R237) -/

/-- A block cipher: AES, or TDES. -/
def encBlock (isAes : Bool) (key block : Bytes) : Bytes := if isAes then aesEnc key block else tdesEnc key block

/-- The inverse of a block cipher. -/
def decBlock (isAes : Bool) (key block : Bytes) : Bytes := if isAes then aesDec key block else tdesDec key block

/-- The block length of a cipher. -/
def blockLen (isAes : Bool) : Nat := if isAes then 16 else 8

/-- ECB. -/
def ecb (isAes inv : Bool) (key data : Bytes) : Bytes :=
  ((chunks (blockLen isAes) data).map (if inv then decBlock isAes key else encBlock isAes key)).flatten

/-- CBC encryption over blocks. -/
def cbcEncAux (isAes : Bool) (key : Bytes) : (iv : Bytes) → List Bytes → Bytes
  | _, [] => []
  | iv, b :: bs => let c := encBlock isAes key (xorBytes b iv); c ++ cbcEncAux isAes key c bs

/-- CBC encryption. -/
def cbcEnc (isAes : Bool) (key iv data : Bytes) : Bytes := cbcEncAux isAes key iv (chunks (blockLen isAes) data)

/-- CBC decryption over blocks. -/
def cbcDecAux (isAes : Bool) (key : Bytes) : (iv : Bytes) → List Bytes → Bytes
  | _, [] => []
  | iv, b :: bs => xorBytes (decBlock isAes key b) iv ++ cbcDecAux isAes key b bs

/-- CBC decryption. -/
def cbcDec (isAes : Bool) (key iv data : Bytes) : Bytes := cbcDecAux isAes key iv (chunks (blockLen isAes) data)

/-- The last cipher block of CBC, or the IV for no data: a CBC-MAC. -/
def cbcLast (isAes : Bool) (key iv data : Bytes) : Bytes :=
  (chunks (blockLen isAes) data).foldl (fun acc b => encBlock isAes key (xorBytes b acc)) iv

/-- A counter block plus i, modulo 2^128. -/
def ctrBlock (icb : Bytes) (i : Nat) : Bytes := natBe 16 ((beNat icb + i) % 2 ^ 128)

/-- CTR mode from an initial counter block. -/
def ctr (key icb data : Bytes) : Bytes :=
  ((chunks 16 data).zipIdx.map fun p => xorBytes p.1 (aesEnc key (ctrBlock icb p.2))).flatten

/-- The counter block of GCM plus i: the last 32 bits count (SP 800-38D). -/
def inc32 (cb : Bytes) (i : Nat) : Bytes := cb.take 12 ++ natBe 4 ((beNat (cb.drop 12) + i) % 2 ^ 32)

/-- CTR mode with a 32-bit counter. -/
def gctr (key icb data : Bytes) : Bytes :=
  ((chunks 16 data).zipIdx.map fun p => xorBytes p.1 (aesEnc key (inc32 icb p.2))).flatten

/-! ## CMAC (SP 800-38B) and the SP 800-108 derivation (06 R174) -/

/-- Doubling in the CMAC field of a block length. -/
def cmacDouble (isAes : Bool) (b : Bytes) : Bytes :=
  let w := 8 * blockLen isAes
  let v := beNat b
  natBe (blockLen isAes) ((2 * v) % 2 ^ w ^^^ (if bit v (w - 1) then (if isAes then 0x87 else 0x1B) else 0))

/-- CMAC over the blocks of a message with the last block masked. -/
def cmacOf (isAes : Bool) (key msg : Bytes) : Bytes :=
  let n := blockLen isAes
  let k1 := cmacDouble isAes (encBlock isAes key (zeroBytes n))
  let k2 := cmacDouble isAes k1
  let head := if msg.isEmpty then 0 else (msg.length - 1) / n * n
  let tail := msg.drop head
  let last := if tail.length = n then xorBytes tail k1 else xorBytes (fitTo n (tail ++ [0x80])) k2
  cbcLast isAes key (zeroBytes n) (msg.take head ++ last)

/-- AES-CMAC. -/
def aesCmac (key msg : Bytes) : Bytes := cmacOf true key msg

/-- SP 800-108 in counter mode with AES-CMAC as its function: label, context, output length in bytes (06 R174). -/
def kdf108 (base label ctx : Bytes) (len : Nat) : Bytes :=
  (((List.range ((len + 15) / 16)).map fun i =>
    aesCmac base (natBe 4 (i + 1) ++ label ++ [0] ++ ctx ++ natBe 4 (8 * len))).flatten).take len

/-! ## GCM (SP 800-38D) and CCM (SP 800-38C) -/

/-- Multiplication in the GCM field: bits of `x` from the left, running value `v`. -/
def gfmulAux : List Bool → (v z : Nat) → Nat
  | [], _, z => z
  | b :: bs, v, z =>
    gfmulAux bs (if v % 2 = 1 then v / 2 ^^^ (0xE1 * 2 ^ 120) else v / 2) (if b then z ^^^ v else z)

/-- Multiplication in the GCM field. -/
def gfmul (x y : Nat) : Nat := gfmulAux (toBits 128 x) y 0

/-- GHASH over whole 16-byte blocks. -/
def ghash (h : Nat) (data : Bytes) : Nat :=
  (chunks 16 data).foldl (fun y b => gfmul (y ^^^ beNat b) h) 0

/-- Zeros that fill a string to a block boundary. -/
def padBlock (b : Bytes) : Bytes := b ++ zeroBytes ((16 - b.length % 16) % 16)

/-- The pre-counter block J0. -/
def gcmJ0 (key iv : Bytes) : Bytes :=
  if iv.length = 12 then iv ++ [0, 0, 0, 1]
  else natBe 16 (ghash (beNat (aesEnc key (zeroBytes 16))) (padBlock iv ++ zeroBytes 8 ++ natBe 8 (8 * iv.length)))

/-- The GCM text transformation, the same in both directions. -/
def gcmText (key iv data : Bytes) : Bytes := gctr key (inc32 (gcmJ0 key iv) 1) data

/-- The full GCM tag of a ciphertext and its AAD. -/
def gcmTag (key iv aad ct : Bytes) : Bytes :=
  let h := beNat (aesEnc key (zeroBytes 16))
  let s := ghash h (padBlock aad ++ padBlock ct ++ natBe 8 (8 * aad.length) ++ natBe 8 (8 * ct.length))
  xorBytes (natBe 16 s) (aesEnc key (gcmJ0 key iv))

/-- The CCM authentication blocks of AAD. -/
def ccmAad (aad : Bytes) : Bytes :=
  if aad.isEmpty then []
  else if aad.length < 0xFF00 then padBlock (natBe 2 aad.length ++ aad)
  else padBlock ([0xFF, 0xFE] ++ natBe 4 aad.length ++ aad)

/-- The full-length CCM tag before truncation is its CBC-MAC masked with counter block 0. -/
def ccmTag (key nonce aad pt : Bytes) (tagLen : Nat) : Bytes :=
  let q := 15 - nonce.length
  let flags := (if aad.isEmpty then 0 else 64) + 8 * ((tagLen - 2) / 2) + (q - 1)
  let b0 := BitVec.ofNat 8 flags :: nonce ++ natBe q pt.length
  let mac := cbcLast true key (zeroBytes 16) (b0 ++ ccmAad aad ++ padBlock pt)
  let a0 := BitVec.ofNat 8 (q - 1) :: nonce ++ zeroBytes q
  (xorBytes mac (aesEnc key a0)).take tagLen

/-- The CCM text transformation. -/
def ccmText (key nonce data : Bytes) : Bytes :=
  let q := 15 - nonce.length
  ctr key (BitVec.ofNat 8 (q - 1) :: nonce ++ natBe q 1) data

/-! ## RFC 3394 -/

/-- One pass of the wrap over the registers. -/
def wrapPass (kek : Bytes) (t : Nat) : (a : Bytes) → List Bytes → Bytes × List Bytes
  | a, [] => (a, [])
  | a, r :: rs =>
    let b := aesEnc kek (a ++ r)
    let (a', rs') := wrapPass kek (t + 1) (natBe 8 (beNat (b.take 8) ^^^ t)) rs
    (a', b.drop 8 :: rs')

/-- The six passes of the wrap. -/
def wrapPasses (kek : Bytes) : (n j : Nat) → Bytes × List Bytes → Bytes × List Bytes
  | 0, _, ar => ar
  | n + 1, j, (a, rs) => wrapPasses kek n (j + 1) (wrapPass kek (j * rs.length + 1) a rs)

/-- RFC 3394 key wrap of a multiple of eight bytes. -/
def keyWrap (kek key : Bytes) : Bytes :=
  let (a, rs) := wrapPasses kek 6 0 (List.replicate 8 0xA6, chunks 8 key)
  a ++ rs.flatten

/-- One pass of the unwrap over the registers in reverse order, counter falling. -/
def unwrapPass (kek : Bytes) : (t : Nat) → (a : Bytes) → List Bytes → Bytes × List Bytes
  | _, a, [] => (a, [])
  | t, a, r :: rs =>
    let b := aesDec kek (natBe 8 (beNat a ^^^ t) ++ r)
    let (a', rs') := unwrapPass kek (t - 1) (b.take 8) rs
    (a', b.drop 8 :: rs')

/-- The six passes of the unwrap. -/
def unwrapPasses (kek : Bytes) : (n : Nat) → Bytes × List Bytes → Bytes × List Bytes
  | 0, ar => ar
  | n + 1, (a, rs) => unwrapPasses kek n (unwrapPass kek ((n + 1) * rs.length) a rs)

/-- RFC 3394 key unwrap; none when the integrity check fails. -/
def keyUnwrap (kek wrapped : Bytes) : Option Bytes :=
  let (a, rs) := unwrapPasses kek 6 (wrapped.take 8, (chunks 8 (wrapped.drop 8)).reverse)
  if a = List.replicate 8 0xA6 then some rs.reverse.flatten else none

/-! ## SHA-256 and SHA-384 (FIPS 180-4)

One compression for both word widths: a width fixes the amounts of the rotations and shifts, and SHA-256 has the upper halves of the constants. -/

/-- The 80 constants of 64 bits, eight to a number. -/
def shaRows : List Nat :=
  [0x428A2F98D728AE227137449123EF65CDB5C0FBCFEC4D3B2FE9B5DBA58189DBBC3956C25BF348B53859F111F1B605D019923F82A4AF194F9BAB1C5ED5DA6D8118,
   0xD807AA98A303024212835B0145706FBE243185BE4EE4B28C550C7DC3D5FFB4E272BE5D74F27B896F80DEB1FE3B1696B19BDC06A725C71235C19BF174CF692694,
   0xE49B69C19EF14AD2EFBE4786384F25E30FC19DC68B8CD5B5240CA1CC77AC9C652DE92C6F592B02754A7484AA6EA6E4835CB0A9DCBD41FBD476F988DA831153B5,
   0x983E5152EE66DFABA831C66D2DB43210B00327C898FB213FBF597FC7BEEF0EE4C6E00BF33DA88FC2D5A79147930AA72506CA6351E003826F142929670A0E6E70,
   0x27B70A8546D22FFC2E1B21385C26C9264D2C6DFC5AC42AED53380D139D95B3DF650A73548BAF63DE766A0ABB3C77B2A881C2C92E47EDAEE692722C851482353B,
   0xA2BFE8A14CF10364A81A664BBC423001C24B8B70D0F89791C76C51A30654BE30D192E819D6EF5218D69906245565A910F40E35855771202A106AA07032BBD1B8,
   0x19A4C116B8D2D0C81E376C085141AB532748774CDF8EEB9934B0BCB5E19B48A8391C0CB3C5C95A634ED8AA4AE3418ACB5B9CCA4F7763E373682E6FF3D6B2B8A3,
   0x748F82EE5DEFB2FC78A5636F43172F6084C87814A1F0AB728CC702081A6439EC90BEFFFA23631E28A4506CEBDE82BDE9BEF9A3F7B2C67915C67178F2E372532B,
   0xCA273ECEEA26619CD186B8C721C0C207EADA7DD6CDE0EB1EF57D4F7FEE6ED17806F067AA72176FBA0A637DC5A2C898A6113F9804BEF90DAE1B710B35131C471B,
   0x28DB77F523047D8432CAAB7B40C724933C9EBE0A15C9BEBC431D67C49C100D4C4CC5D4BECB3E42B6597F299CFC657E2A5FCB6FAB3AD6FAEC6C44198C4A475817]

/-- The initial values of SHA-512, whose upper halves are those of SHA-256, and of SHA-384. -/
def shaStart : Nat := 0x6A09E667F3BCC908BB67AE8584CAA73B3C6EF372FE94F82BA54FF53A5F1D36F1510E527FADE682D19B05688C2B3E6C1F1F83D9ABFB41BD6B5BE0CD19137E2179
def sha384Start : Nat := 0xCBBB9D5DC1059ED8629A292A367CD5079159015A3070DD17152FECD8F70E593967332667FFC00B318EB44A8768581511DB0C2E0D64F98FA747B5481DBEFA4FA4

/-- The eight words of 64 bits of a number. -/
def eightWords (n : Nat) : List Nat := [448, 384, 320, 256, 192, 128, 64, 0].map fun e => n >>> e % 2 ^ 64

/-- What a word width fixes: the width, the four triples of amounts (the last of a schedule triple is a shift). -/
structure ShaWidth where
  width : Nat
  sumE : Nat × Nat × Nat
  sumA : Nat × Nat × Nat
  near : Nat × Nat × Nat
  far : Nat × Nat × Nat

/-- Words of 32 bits. -/
def sha32 : ShaWidth := { width := 32, sumE := (6, 11, 25), sumA := (2, 13, 22), near := (7, 18, 3), far := (17, 19, 10) }
/-- Words of 64 bits. -/
def sha64 : ShaWidth := { width := 64, sumE := (14, 18, 41), sumA := (28, 34, 39), near := (1, 8, 7), far := (19, 61, 6) }

/-- A word turned right: the low part of the word written twice. -/
def ShaWidth.turned (x : ShaWidth) (v n : Nat) : Nat := (v + v <<< x.width) >>> n % 2 ^ x.width

/-- The sum of a word turned by three amounts. -/
def ShaWidth.sum (x : ShaWidth) (r : Nat × Nat × Nat) (v : Nat) : Nat := x.turned v r.1 ^^^ x.turned v r.2.1 ^^^ x.turned v r.2.2

/-- The sum of a word turned by two amounts and shifted by the third. -/
def ShaWidth.mix (x : ShaWidth) (r : Nat × Nat × Nat) (v : Nat) : Nat := x.turned v r.1 ^^^ x.turned v r.2.1 ^^^ v >>> r.2.2

/-- `n` more words of the message schedule, the newest first. -/
def ShaWidth.schedule (x : ShaWidth) : (n : Nat) → List Nat → List Nat
  | 0, w => w
  | n + 1, w =>
    x.schedule n ((x.mix x.far (w.getD 1 0) + w.getD 6 0 + x.mix x.near (w.getD 14 0) + w.getD 15 0) % 2 ^ x.width :: w)

/-- The working variables, `a` first. -/
structure ShaVars where
  a : Nat
  b : Nat
  c : Nat
  d : Nat
  e : Nat
  f : Nat
  g : Nat
  h : Nat

/-- One step with the sum of a constant and a word of the schedule. -/
def ShaWidth.step (x : ShaWidth) (v : ShaVars) (kw : Nat) : ShaVars :=
  let chosen := v.g ^^^ (v.e &&& (v.f ^^^ v.g))
  let majority := (v.a &&& v.b) ||| (v.c &&& (v.a ||| v.b))
  let s := v.h + x.sum x.sumE v.e + chosen + kw
  { a := (s + x.sum x.sumA v.a + majority) % 2 ^ x.width, b := v.a, c := v.b, d := v.c, e := (v.d + s) % 2 ^ x.width, f := v.e, g := v.f, h := v.g }

/-- The constants of a width. -/
def ShaWidth.constants (x : ShaWidth) : List Nat := ((shaRows.map eightWords).flatten.take (x.width / 2 + 48)).map (· >>> (64 - x.width))

/-- One block taken into the eight words of the digest. -/
def ShaWidth.block (x : ShaWidth) (h : List Nat) (block : Bytes) : List Nat :=
  match h with
  | [a, b, c, d, e, f, g, i] =>
    let k := x.constants
    let w := (x.schedule (k.length - 16) ((chunks (x.width / 8) block).map beNat).reverse).reverse
    let v := (k.zipWith (· + ·) w).foldl x.step { a, b, c, d, e, f, g, h := i }
    (h.zipWith (· + ·) [v.a, v.b, v.c, v.d, v.e, v.f, v.g, v.h]).map (· % 2 ^ x.width)
  | _ => h

/-- A message filled to whole blocks of 16 words: a one bit, zeros, the length in bits in the last two words. -/
def ShaWidth.fill (x : ShaWidth) (msg : Bytes) : Bytes :=
  let n := 2 * x.width
  let m := msg ++ [0x80]
  m ++ zeroBytes ((2 * n - x.width / 4 - m.length % n) % n) ++ natBe (x.width / 4) (8 * msg.length)

/-- The digest words of a message from initial words. -/
def ShaWidth.digest (x : ShaWidth) (start : List Nat) (msg : Bytes) : List Nat := (chunks (2 * x.width) (x.fill msg)).foldl x.block start

/-- SHA-256. -/
def sha256 (msg : Bytes) : Bytes := ((sha32.digest ((eightWords shaStart).map (· >>> 32)) msg).map (natBe 4)).flatten

/-- SHA-384. -/
def sha384 (msg : Bytes) : Bytes := (((sha64.digest (eightWords sha384Start) msg).map (natBe 8)).flatten).take 48

/-! ## CRC (16 R461) and the MACs of 10 R313 -/

/-- One input bit of a CRC of width `w`. -/
def crcBit (w poly reg : Nat) (b : Bool) : Nat :=
  let top := bit reg (w - 1) != b
  let sh := 2 * reg % 2 ^ w
  if top then sh ^^^ poly else sh

/-- The bits of an input byte in the order REFIN gives. -/
def crcByteBits (refin : Bool) (b : Byte) : List Bool :=
  let l := toBits 8 b.toNat
  if refin then l.reverse else l

/-- The register after every input byte. -/
def crcRun (w poly : Nat) (refin : Bool) (reg : Nat) (data : Bytes) : Nat :=
  data.foldl (fun r b => (crcByteBits refin b).foldl (crcBit w poly) r) reg

/-- The result of a CRC (16 R461, R462). -/
def crc (w poly init xorout : Nat) (refin refout raw : Bool) (data : Bytes) : Nat :=
  let reg := crcRun w poly refin init data
  if raw then reg
  else (if refout then ofBits (toBits w reg).reverse else reg) ^^^ xorout

/-- ISO/IEC 9797-1 padding method 1 or 2 to 8-byte blocks. -/
def isoPad (method2 : Bool) (b : Bytes) : Bytes :=
  let p := if method2 then b ++ [0x80] else if b.isEmpty then zeroBytes 8 else b
  p ++ zeroBytes ((8 - p.length % 8) % 8)

/-- ISO/IEC 9797-1 MAC algorithm 1 with TDES. -/
def isoMac1 (key padded : Bytes) : Bytes := cbcLast false key (zeroBytes 8) padded

/-- ISO/IEC 9797-1 MAC algorithm 3: single DES chaining under the first key, then the last step with the second and third. -/
def isoMac3 (key padded : Bytes) : Bytes :=
  let h := (chunks 8 padded).foldl (fun acc b => des false (key.take 8) (xorBytes b acc)) (zeroBytes 8)
  des false (tdesThird key) (des true (slice key 8 8) h)

/-! ## SHA-1 (FIPS 180-4; 09 R277, 10 R305) -/

/-- Rotation left of a word of 32 bits. -/
def turnedLeft (v n : Nat) : Nat := ((v + v <<< 32) <<< n >>> 32) % 2 ^ 32

/-- The function and the constant of step t on the second to fourth variables. -/
def sha1Mix (t b c d : Nat) : Nat :=
  if t < 20 then (d ^^^ (b &&& (c ^^^ d))) + 0x5A827999
  else if t < 40 then (b ^^^ c ^^^ d) + 0x6ED9EBA1
  else if t < 60 then ((b &&& c) ||| (d &&& (b ||| c))) + 0x8F1BBCDC
  else (b ^^^ c ^^^ d) + 0xCA62C1D6

/-- `n` steps from step t on; the last 16 words of the schedule, the one due first. -/
def sha1Steps : (n t : Nat) → (w : List Nat) → (a b c d e : Nat) → List Nat
  | 0, _, _, a, b, c, d, e => [a, b, c, d, e]
  | n + 1, t, w, a, b, c, d, e =>
    let next := turnedLeft (w.getD 13 0 ^^^ w.getD 8 0 ^^^ w.getD 2 0 ^^^ w.headD 0) 1
    sha1Steps n (t + 1) (w.drop 1 ++ [next]) ((turnedLeft a 5 + sha1Mix t b c d + e + w.headD 0) % 2 ^ 32) a (turnedLeft b 30) c d

/-- One block taken into the five words of the digest. -/
def sha1Block (h : List Nat) (block : Bytes) : List Nat :=
  (h.zipWith (· + ·) (sha1Steps 80 0 ((chunks 4 block).map beNat) (h.getD 0 0) (h.getD 1 0) (h.getD 2 0) (h.getD 3 0) (h.getD 4 0))).map (· % 2 ^ 32)

/-- SHA-1; its messages are filled as those of SHA-256. -/
def sha1 (msg : Bytes) : Bytes :=
  (((chunks 64 (sha32.fill msg)).foldl sha1Block [0x67452301, 0xEFCDAB89, 0x98BADCFE, 0x10325476, 0xC3D2E1F0]).map (natBe 4)).flatten

/-! ## RSA's own operation (09 R264, R277) -/

/-- The product of an accumulator and b to the power of the lowest `n` bits of e, modulo m. -/
def powMod : (n b e m acc : Nat) → Nat
  | 0, _, _, _, acc => acc
  | n + 1, b, e, m, acc => if e = 0 then acc else powMod n (b * b % m) (e / 2) m (if e % 2 = 1 then acc * b % m else acc)

/-- The private operation on a block by the primes and exponents of class 8 material (R264), as k bytes. -/
def rsaRaw (k : Nat) (priv block : Bytes) : Bytes :=
  let n := (priv.length - 4) / 5
  let part := fun j => beNat (slice priv (4 + n * j) n)
  let p := part 0
  let q := part 1
  let x := beNat block
  let a := powMod (8 * n) (x % p) (part 2) p 1
  let b := powMod (8 * n) (x % q) (part 3) q 1
  natBe k (b + q * (part 4 * (a + p - b % p) % p))

/-- The public operation on a block by the modulus and exponent of class 9 material (R264), as many bytes as the modulus. -/
def rsaRecover (pub sig : Bytes) : Bytes :=
  let k := pub.length - 4
  natBe k (powMod 32 (beNat sig) (beNat (pub.drop k)) (beNat (pub.take k)) 1)

/-! ## DUKPT (ANSI X9.24-1 and X9.24-3; 10 R291, R292) -/

/-- The mask of a TDES DUKPT key's second half of a derivation. -/
def dukptMask : Bytes := ascii [0xC0, 0xC0, 0xC0, 0xC0, 0, 0, 0, 0, 0xC0, 0xC0, 0xC0, 0xC0, 0, 0, 0, 0]

/-- The initial key of a KSN with its counter cleared. -/
def tdesDukptInitial (bdk ksn : Bytes) : Bytes := tdesEnc bdk (ksn.take 8) ++ tdesEnc (xorBytes bdk dukptMask) (ksn.take 8)

/-- One half of a key of TDES DUKPT: a register enciphered under the left half between two sums with the right half. -/
def dukptHalf (key reg : Bytes) : Bytes := xorBytes (des false (key.take 8) (xorBytes reg (key.drop 8))) (key.drop 8)

/-- The key of a counter's bits from bit `n` − 1 down, from the key and the register of the bits above. -/
def tdesDukptSteps (counter : Nat) : (n : Nat) → (key : Bytes) → (reg : Nat) → Bytes
  | 0, key, _ => key
  | n + 1, key, reg =>
    if bit counter n then
      let r := natBe 8 (reg + 2 ^ n)
      tdesDukptSteps counter n (dukptHalf (xorBytes key dukptMask) r ++ dukptHalf key r) (reg + 2 ^ n)
    else tdesDukptSteps counter n key reg

/-- The transaction key of a KSN from its initial key. -/
def tdesDukptTransaction (initial ksn : Bytes) : Bytes :=
  let v := beNat (ksn.drop 2)
  tdesDukptSteps (v % 2 ^ 21) 21 initial (v / 2 ^ 21 * 2 ^ 21)

/-- The algorithm indicator and the bits of a key type: two-key and three-key TDES, AES-128, AES-192, AES-256. -/
def dukptType (type : Nat) : Nat × Nat :=
  if type = 1 then (0, 128) else if type = 2 then (1, 192) else if type = 0x10 then (2, 128) else if type = 0x11 then (3, 192) else (4, 256)

/-- A key of a type and usage derived under an AES key, with the last eight bytes of the derivation data. -/
def dukptDerive (key : Bytes) (usage type : Nat) (last : Bytes) : Bytes :=
  let t := dukptType type
  (((List.range 2).map fun j => aesEnc key ([1, BitVec.ofNat 8 (j + 1)] ++ natBe 2 usage ++ natBe 2 t.1 ++ natBe 2 t.2 ++ last)).flatten).take (t.2 / 8)

/-- The type of an AES key of a length. -/
def aesTypeOf (key : Bytes) : Nat := if key.length = 16 then 0x10 else if key.length = 24 then 0x11 else 0x12

/-- The initial key of a BDK ID and a derivation ID. -/
def aesDukptInitial (bdk id : Bytes) : Bytes := dukptDerive bdk 0x8001 (aesTypeOf bdk) id

/-- The derivation key of a counter's bits from bit `n` − 1 down, from that of the bits above. -/
def aesDukptSteps (id : Bytes) (counter : Nat) : (n : Nat) → (key : Bytes) → (above : Nat) → Bytes
  | 0, key, _ => key
  | n + 1, key, above =>
    if bit counter n then aesDukptSteps id counter n (dukptDerive key 0x8000 (aesTypeOf key) (id ++ natBe 4 (above + 2 ^ n))) (above + 2 ^ n)
    else aesDukptSteps id counter n key above

/-- The working key of a KSN, of a type and usage, from its initial key. -/
def aesDukptWorking (initial ksn : Bytes) (type usage : Nat) : Bytes :=
  let id := slice ksn 4 4
  let counter := beNat (slice ksn 8 4)
  dukptDerive (aesDukptSteps id counter 32 initial 0) usage type (id ++ natBe 4 counter)

end Sys2Proof.Machine
end

