-- ==== Sys2Proof/Machine/Interconnect.lean ====
section
/-! DEFINITION. The check of the interconnect access table (13 R381 to R385, R392): each access decided by its class, the address of its first byte and
its kind; what decides the module's own host-memory accesses too (13 R383). -/

namespace Sys2Proof.Machine

/-- Entry e in force; its staged copy. -/
def actEntry (d : Dev) (e : Nat) : ActEntry := tabGet {} d.act.entries e
def actStage (d : Dev) (e : Nat) : ActEntry := tabGet {} d.act.stage e

/-! ## The check (R381 to R385, R392) -/

/-- Whether an entry covers the unit of an address. -/
def covers (e : ActEntry) (addr : Nat) : Bool := e.valid && decide (e.base ≤ addr / 64) && decide (addr / 64 ≤ e.last)

/-- The lowest-numbered valid entry that covers an address. -/
def decider (d : Dev) (addr : Nat) : Option (Nat × ActEntry) := d.act.entries.find? fun p => covers p.2 addr

/-- The classes a PROTECTED entry masks out: HOST, QM_DMA, CVU_DMA, DEBUG (R382). -/
def maskedOut (cls : Nat) : Bool := cls == 4 || cls == 5 || cls == 6 || cls == 11

/-- Where R377 gives the classes of a ROM entry different permissions, those of a class (log entry 12). -/
def romSplit (e cls : Nat) (kind : Access) : Bool :=
  match e with
  | 5 => cls != 2 || kind == .read
  | 6 => cls != 10 || kind == .write
  | 8 => if cls = 0 then kind != .fetch else kind == .fetch
  | 12 => cls != 3 || kind == .read
  | 13 => cls != 6 || kind == .read
  | _ => true

/-- The permission bit of an entry for a kind of access. -/
def permits (e : ActEntry) : Access → Bool
  | .read => e.r
  | .write => e.w
  | .fetch => e.x

/-- Whether an entry permits an access of a class. -/
def entryPermits (no : Nat) (e : ActEntry) (cls : Nat) (kind : Access) : Bool :=
  bit e.mask cls && !(e.prot && maskedOut cls) && permits e kind && romSplit no cls kind

/-- What a stopped table still permits. -/
def stoppedPermits (d : Dev) (cls addr : Nat) (kind : Access) : Bool :=
  (cls == 4 && kind == .read && decide (0x10000000 ≤ addr) && decide (addr ≤ 0x10000FFF)) ||
    (cls == 10 && (covers (actEntry d 5) addr || covers (actEntry d 6) addr))

/-- One access decided by its first byte: permitted, and whether a PROTECTED entry decided it. -/
def decideAccess (d : Dev) (cls addr : Nat) (kind : Access) : Bool × Bool :=
  if d.act.st = 0xF0 then (stoppedPermits d cls addr kind, false)
  else match decider d addr with
    | none => (false, false)
    | some p => (entryPermits p.1 p.2 cls kind, p.2.prot)

/-- The host window, at which every host-memory access is checked (13 R383). -/
def hostWindow : Nat := 0xFF00000000

end Sys2Proof.Machine
end

