-- ==== Sys2Proof/Machine/Ops.lean ====
section
/-! DEFINITION. The named operations over the state: contexts, tenants, queue pairs, module time, readiness, root store, randomness,
the event log's append, MSI-X, rejected writes. -/

namespace Sys2Proof.Machine

/-! ## Status codes (04 R111 and the detail codes of the chapters) -/

def stOk : Nat := 0x0000
def stOkRetiring : Nat := 0x0101
def stBadOpcode : Nat := 0x1001
def stBadLength : Nat := 0x1002
def stBadParam : Nat := 0x1003
def stHostMemory : Nat := 0x1004
def stKeyNotFound : Nat := 0x2001
def stKeyUsage : Nat := 0x2002
def stKeyExpired : Nat := 0x2003
def stKeyUnavailable : Nat := 0x2004
def stNonceExhausted : Nat := 0x2005
def stKeyExists : Nat := 0x2006
def stVersionLimit : Nat := 0x2007
def stRetiringPresent : Nat := 0x2008
def stKeyTestFail : Nat := 0x2009
def stVaultFull : Nat := 0x200A
def stKeyCheckFail : Nat := 0x200B
def stNotPermitted : Nat := 0x3001
def stDualControl : Nat := 0x3002
def stTokenInvalid : Nat := 0x3004
def stApprovalInvalid : Nat := 0x3005
def stCardFailed : Nat := 0x3006
def stMacMismatch : Nat := 0x4001
def stTagFail : Nat := 0x4002
def stPinMismatch : Nat := 0x4003
def stCryptogramMismatch : Nat := 0x4004
def stBusy : Nat := 0x5001
def stLockExpired : Nat := 0x5002
def stMaintBusy : Nat := 0x5003
def stRingUnsafe : Nat := 0x5004
def stLocked : Nat := 0x6001
def stNotReady : Nat := 0x6002
def stLogFull : Nat := 0x6003
def stImageMismatch : Nat := 0x6004
def stImageStale : Nat := 0x6005
def stVaultPopulation : Nat := 0x6006
def stNotInRing : Nat := 0x6007
def stConfigStale : Nat := 0x6008
def stImageRejected : Nat := 0x6009
def stInternalFault : Nat := 0x7001
def stMemoryIntegrity : Nat := 0x7002
def stDeviceFault : Nat := 0x7003
def stEntropyFail : Nat := 0x7004

/-! ## Sparse tables of the state -/

/-- Tenant n (03 R71). -/
def tn (d : Dev) (n : Nat) : Tenant := tabGet {} d.tenants n
/-- Tenant n replaced. -/
def setTn (d : Dev) (n : Nat) (t : Tenant) : Dev := { d with tenants := tabPut {} d.tenants n t }
/-- Tenant n changed by a function. -/
def modTn (d : Dev) (n : Nat) (f : Tenant → Tenant) : Dev := setTn d n (f (tn d n))

/-- Starter context k (05 R121). -/
def ctxOf (d : Dev) (k : Nat) : Ctx := tabGet {} d.sch.ctxs k
/-- Context k replaced. -/
def setCtx (d : Dev) (k : Nat) (c : Ctx) : Dev := { d with sch.ctxs := tabPut {} d.sch.ctxs k c }
/-- Context k changed by a function. -/
def modCtx (d : Dev) (k : Nat) (f : Ctx → Ctx) : Dev := setCtx d k (f (ctxOf d k))

/-- A queue pair of a function; the admin queue pair for the PF (04 R87). -/
def qpOf (d : Dev) (fn : Fn) (q : Nat) : Qp :=
  match fn with
  | .pf => d.glb.admin
  | .vf n => tabGet {} (tn d n).qps q
/-- A queue pair replaced. -/
def setQp (d : Dev) (fn : Fn) (q : Nat) (p : Qp) : Dev :=
  match fn with
  | .pf => { d with glb.admin := p }
  | .vf n => modTn d n fun t => { t with qps := tabPut {} t.qps q p }
/-- A queue pair changed by a function. -/
def modQp (d : Dev) (fn : Fn) (q : Nat) (f : Qp → Qp) : Dev := setQp d fn q (f (qpOf d fn q))

/-- A root-store slot (06 R169). -/
def rootSlot (d : Dev) (s : Nat) : Slot := tabGet {} d.keys.root s
/-- A root-store slot replaced. -/
def setRoot (d : Dev) (s : Nat) (v : Slot) : Dev := { d with keys.root := tabPut {} d.keys.root s v }

/-- A ring peer (12 R371). -/
def peerOf (d : Dev) (m : Nat) : Peer := tabGet {} d.ring.peers m
/-- A ring peer changed by a function. -/
def modPeer (d : Dev) (m : Nat) (f : Peer → Peer) : Dev :=
  { d with ring.peers := tabPut {} d.ring.peers m (f (peerOf d m)) }

/-- A placement map entry (12 R355). -/
def mapOf (d : Dev) (b : Nat) : MapEntry := tabGet {} d.ring.map b
/-- A placement map entry replaced. -/
def setMap (d : Dev) (b : Nat) (e : MapEntry) : Dev := { d with ring.map := tabPut {} d.ring.map b e }

/-- The tenant number of a function as log entries and statements carry it (15 R452, 14 R409). -/
def fnCode : Fn → Nat
  | .pf => 0xFFFF
  | .vf n => n

/-- The current generation of a function (03 R84). -/
def genOf (d : Dev) : Fn → Nat
  | .pf => d.glb.pfGen
  | .vf n => (tn d n).gen

/-- Bus Master Enable of a function (03 R73). -/
def bmeOf (d : Dev) : Fn → Bool
  | .pf => d.host.pfBme
  | .vf n => (tn d n).bme

/-! ## Outputs, module time -/

/-- An output issued after those already issued. -/
def emit (d : Dev) (o : Out) : Dev := { d with out := d.out ++ [o] }

/-- An access of the module to host memory, by the queue manager (class 5) or a check-value unit (class 6): checked at the host window like every
access, waiting while the table is CLOSED (13 R383, R390). -/
def dma (d : Dev) (cls : Nat) (kind : Access) (o : Out) : Dev :=
  if d.act.st = 0x33 then { d with act.dma := d.act.dma ++ [(cls, o)] }
  else if (decideAccess d cls hostWindow kind).1 then emit d o else d

/-- The configuration space of a function. -/
def fnCfg (d : Dev) : Fn → FnCfg
  | .pf => d.host.pfCfg
  | .vf n => (tn d n).cfg

/-- The configuration space of a function changed. -/
def modCfg (d : Dev) (fn : Fn) (f : FnCfg → FnCfg) : Dev :=
  match fn with
  | .pf => { d with host.pfCfg := f d.host.pfCfg }
  | .vf n => modTn d n fun t => { t with cfg := f t.cfg }

/-- A host-memory write of a function's reply or output data: Relaxed Ordering is set wherever the function enables it (03 R65, R66; DESIGN CHOICE,
log entry 100). -/
def dataWrite (d : Dev) (fn : Fn) (addr : Nat) (b : Bytes) : Dev := dma d 5 .write (.hostWrite fn addr b (fnCfg d fn).relaxed)

/-- A host-memory write that keeps its order: a completion entry or a trailer (03 R66). -/
def orderedWrite (d : Dev) (fn : Fn) (addr : Nat) (b : Bytes) : Dev := dma d 5 .write (.hostWrite fn addr b false)

/-- Module time (15 R435): with main power, the value at the last tick plus the reference's microseconds, at most 29. -/
def now (d : Dev) : Nat := d.keeper.timeUs + (if d.bay.p12v then min d.keeper.usSinceTick 29 else 0)

/-- One microsecond without a command: the timestamp reference counts on between ticks while main power lasts (15 R435; log entry 2). -/
def idle (d : Dev) : Dev :=
  if d.bay.p12v then { d with keeper.usSinceTick := min 29 (d.keeper.usSinceTick + 1) } else d

/-- BAY_POSITION of the bay identity record (02 R57). -/
def bayPosition (d : Dev) : Nat := field (d.bay.record.getD []) 5 1

/-! ## Readiness (18 R497) -/

def rdFailStop : Nat := 1
def rdFirmwareLess : Nat := 2
def rdStarting : Nat := 3
def rdLocked : Nat := 4
def rdDraining : Nat := 5
def rdNoVault : Nat := 6
def rdLoading : Nat := 7
def rdLogFull : Nat := 8
def rdInService : Nat := 9

/-- Whether fetching on tenant queue pairs is stopped by a drain (04 R107, 18 R497). -/
def draining (d : Dev) : Bool :=
  d.bay.removal == .draining || d.bay.removal == .leaving || d.bay.removal == .safe

/-- The readiness state, the lowest code whose condition holds (18 R497). -/
def readiness (d : Dev) : Nat :=
  if d.glb.failStop then rdFailStop
  else if !d.glb.fwRunning && !d.glb.starting then rdFirmwareLess
  else if d.glb.starting then rdStarting
  else if d.glb.locked then rdLocked
  else if draining d then rdDraining
  else if d.vmp.st == 0x0F then rdNoVault
  else if d.vmp.st == 0x33 || d.vmp.st == 0x55 then rdLoading
  else if d.sen.full then rdLogFull
  else rdInService

/-- GLB_STATUS.IN_SERVICE (18 R497). -/
def inService (d : Dev) : Bool :=
  d.bay.fabric && d.lcd.st == 0x96 &&
    (readiness d == rdLogFull || readiness d == rdInService ||
      (readiness d == rdDraining && (d.bay.drainFrom == rdLogFull || d.bay.drainFrom == rdInService)))

/-- Whether VF n exists on the host (03 R71). -/
def vfExists (d : Dev) (n : Nat) : Bool := d.host.linkUp && d.host.vfEnable && decide (n < d.host.numVFs)

/-- VF_STATUS.ADMITTED: every condition of R72. -/
def admitted (d : Dev) (n : Nat) : Bool :=
  vfExists d n && (tn d n).bme && (tn d n).enable && inService d

/-- Whether the life-cycle state never lets the module be LOCKED (15 R432). -/
def neverLocked (d : Dev) : Bool := d.lcd.st == 0x3C || d.lcd.st == 0xF0 || d.lcd.st == 0x5A

/-! ## Randomness (16 R470, R471) -/

/-- Whether the DRBG answers a request at once (16 R472). -/
def drbgUp (d : Dev) : Bool := d.ent.seeded && !d.ent.drbgFailed

/-- One reseed (16 R471): the count and its time; it leaves FAILED. Without a state to reseed it is an instantiation (16 R470). -/
def reseed (d : Dev) : Dev :=
  { d with ent.requests := 0, ent.reseedDue := false, ent.seeded := true, ent.drbgFailed := false,
           ent.reseeds := d.ent.reseeds + (if d.ent.seeded then 1 else 0), ent.lastReseed := if d.ent.seeded then now d else d.ent.lastReseed }

/-- Ones in the low four bits of a mask. -/
def ones4 (m : Nat) : Nat := ((List.range 4).filter fun j => m / 2 ^ j % 2 == 1).length

/-- The pool judged by the online sources, and the DRBG FAILED where a reseed is due that a failed pool cannot supply (16 R469, R472). -/
def judgePool (d : Dev) : Dev :=
  let failed := decide (ones4 d.ent.online < d.ent.minSources)
  { d with ent.poolFailed := failed, ent.drbgFailed := d.ent.drbgFailed || ((d.ent.reseedDue || decide (2 ^ 20 ≤ d.ent.requests)) && failed) }

/-- A pending commit of the ENT block applied at its boundary, the next DRBG request (05 R144). -/
def applyEnt (d : Dev) : Dev :=
  if d.ent.pending then
    judgePool { d with ent.minSources := d.ent.minShadow, ent.pending := false, ent.commits := (d.ent.commits + 1) % 256 }
  else d

/-- What the DRBG does before a request: the reseed that is due, or FAILED when the pool cannot supply it (16 R471, R472). -/
def drbgBefore (prediction : Bool) (d0 : Dev) : Dev :=
  let d := applyEnt d0
  if d.ent.kat && (d.ent.reseedDue || prediction || !d.ent.seeded || decide (2 ^ 20 ≤ d.ent.requests)) then
    if d.ent.poolFailed then { d with ent.drbgFailed := true, ent.reseedDue := true } else reseed d
  else d

/-- The bytes of the request numbered `draw` (log entry 4). -/
def drawBytes (draw n : Nat) : Bytes := (List.range n).map (Config.freeByte draw)

/-- One request of `n` bytes: its bytes and the state after it. -/
def draw (d : Dev) (n : Nat) : Bytes × Dev :=
  (drawBytes d.ent.draws n, { d with
    ent.draws := d.ent.draws + 1, ent.requests := d.ent.requests + 1
    ent.drbgFailed := d.ent.drbgFailed || (d.ent.poolFailed && decide (2 ^ 20 ≤ d.ent.requests + 1)) })

/-- The dummy-round counts and byte orders that the blocks of one command draw on a lane core (08 R236): at least one request, in a number the manual
leaves open (free; log entry 95). -/
def drawMasks (d : Dev) : Dev :=
  let t := d.ent.requests + 1 + Config.freeNat 14 d.ent.draws
  { d with
    ent.draws := d.ent.draws + 1
    ent.requests := if d.ent.poolFailed then min t (2 ^ 20) else (t - 1) % 2 ^ 20 + 1
    ent.reseeds := if d.ent.poolFailed then d.ent.reseeds else d.ent.reseeds + (t - 1) / 2 ^ 20
    ent.lastReseed := if d.ent.poolFailed || decide (t ≤ 2 ^ 20) then d.ent.lastReseed else now d
    ent.drbgFailed := d.ent.drbgFailed || (d.ent.poolFailed && decide (2 ^ 20 ≤ t)) }

/-! ## The keeper key and the root store (06 R169 to R176) -/

/-- The shares behind the keeper's pointer. -/
def Keeper.shares (k : Keeper) : Option (Bytes × Bytes) := if k.cellSet then k.cells1 else k.cells0

/-- The keeper key while both its shares are held (06 R175, R176). -/
def keeperKey (d : Dev) : Option Bytes := d.keeper.shares.map fun x => xorBytes x.1 x.2

/-- The physical cells of one set (06 R175): the cell at an address holds the bit that the die's permutation puts there, inverted by the die's
pattern and by the sense of the set. A set that holds no shares is clear. -/
def Keeper.cellImage (k : Keeper) (set : Bool) : List Bool :=
  match (if set then k.cells1 else k.cells0) with
  | none => List.replicate 512 false
  | some x => (List.range 512).map fun a => bit (leNat (x.1 ++ x.2)) (Config.dieCell a) != (Config.dieSense a != (k.sense != (set != k.cellSet)))

/-- Bytes of a bank of a root slot (06 R169). -/
def bankSize (slot : Nat) : Nat := if slot = 5 ∨ slot = 0x1F ∨ 0x1000 ≤ slot then 128 else 8192

/-- Material wrapped for a bank: filled with zeros to whole words of 64 bits (RFC 3394; log entry 88); nothing without a keeper key. -/
def wrapRoot (d : Dev) (content : Bytes) : Bytes :=
  match keeperKey d with
  | some key => keyWrap key (content ++ zeroBytes ((8 - content.length % 8) % 8))
  | none => []

/-- What a bank's material unwraps to under the keeper key, whatever its STATE; none where it does not unwrap intact. -/
def unwrapRoot (d : Dev) (b : Bank) : Option Bytes := (keeperKey d).bind fun key => keyUnwrap key b.wrapped

/-- The content of a bank that is VERIFIED and unwraps intact (06 R171). -/
def bankContent (d : Dev) (b : Bank) : Option Bytes := if b.code = 0x55 then unwrapRoot d b else none

/-- Whether a bank is VERIFIED and unwraps intact under the keeper key (06 R171). -/
def bankUsable (d : Dev) (b : Bank) : Bool := (bankContent d b).isSome

/-- The bank in force of a slot, true for bank B (06 R171). -/
def bankInForce (d : Dev) (s : Slot) : Option Bool :=
  match bankUsable d s.a, bankUsable d s.b with
  | true, true => some (decide (s.a.seq < s.b.seq))
  | true, false => some false
  | false, true => some true
  | false, false => none

/-- A slot's content in force (06 R171). -/
def slotInForce (d : Dev) (s : Nat) : Option Bytes :=
  (bankInForce d (rootSlot d s)).bind fun inB => bankContent d (if inB then (rootSlot d s).b else (rootSlot d s).a)

/-- A slot's content in force; none while the root store is not unwrapped. -/
def rootContent (d : Dev) (s : Nat) : Option Bytes := if d.glb.rootOk then slotInForce d s else none

/-- The SEQ of a slot's bank in force; 0 for none. -/
def rootSeq (d : Dev) (s : Nat) : Nat :=
  match bankInForce d (rootSlot d s) with
  | some true => (rootSlot d s).b.seq
  | some false => (rootSlot d s).a.seq
  | none => 0

/-- The bank a replacement writes, true for bank B (06 R170): the one R171 would not choose at a start now. -/
def bankToWrite (d : Dev) (s : Slot) : Bool :=
  match bankInForce d s with
  | some inB => !inB
  | none => decide (s.a.code = 0x55 ∧ ¬ s.b.code = 0x55) || decide (s.a.code = 0x55 ∧ s.b.code = 0x55 ∧ s.b.seq < s.a.seq)

/-- A bank of a slot replaced. -/
def setBank (s : Slot) (inB : Bool) (b : Bank) : Slot := if inB then { s with b } else { s with a := b }

/-- The SEQ a replacement takes (06 R170). -/
def nextBankSeq (s : Slot) : Nat := max s.a.seq s.b.seq + 1

/-- A bank written, wrapped under the keeper key, in a state code (06 R170, 14 R417). -/
def writeBank (d : Dev) (s seq code : Nat) (content kcv : Bytes) : Dev :=
  setRoot d s (setBank (rootSlot d s) (bankToWrite d (rootSlot d s))
    { seq, code, wrapped := wrapRoot d content, kcv })

/-- A committed replacement of a root slot (06 R170). -/
def commitRoot (d : Dev) (s : Nat) (content kcv : Bytes) : Dev :=
  writeBank d s (nextBankSeq (rootSlot d s)) 0x55 content kcv

/-! ## The event log (15 R451 to R456) -/

/-- Whether a type may use the last 1,024 entries (15 R454). -/
def logReserve (type : Nat) : Bool :=
  !(type == 0x0022 || type == 0x0023 || type == 0x0024 || type == 0x0030 || type == 0x0041)

/-- Entries in use (15 R460 SEN_LOG_USED). -/
def logUsed (d : Dev) : Nat := d.sen.nextSeq - d.sen.oldest

/-- An entry submitted to the sentinel (15 R451). -/
def submit (d : Dev) (type cls source fn : Nat) (data : Bytes) : Dev :=
  { d with sen.submitted := d.sen.submitted ++
      [{ time := now d, type, cls, flags := if d.keeper.timeLost then 8 else 0, source, fn, data := fitTo 24 data }] }

/-- Bytes 0x00 to 0x2F of an entry (15 R452). -/
def logHead (e : LogEntry) : Bytes :=
  natLe 8 e.seq ++ natLe 8 e.time ++ natLe 2 e.type ++ natLe 1 e.cls ++ natLe 1 e.flags ++ natLe 2 e.source ++ natLe 2 e.fn ++ e.data

/-- The CHAIN of an entry after the entry before it (15 R453). -/
def chainOf (prev : Bytes) (e : LogEntry) : Bytes := (sha256 (prev ++ logHead e)).take 16

/-- An entry placed in the log with the next SEQ and its chain (15 R451, R453), and the marks of a filling log (15 R456, R460). -/
def place (d : Dev) (e : LogEntry) : Dev :=
  let e1 := { e with seq := d.sen.nextSeq }
  let e2 := { e1 with chain := chainOf d.sen.lastChain e1 }
  let used := logUsed d + 1
  let ev := (if used = 943718 then 8 else 0) ||| (if used = 1047552 then 16 else 0)
  { d with sen.log := d.sen.log ++ [e2], sen.nextSeq := d.sen.nextSeq + 1, sen.lastChain := e2.chain,
           sen.full := d.sen.full || decide (1047552 ≤ used), sen.event := d.sen.event ||| ev }

/-- Whether an entry finds no room (15 R456). -/
def logRefuses (d : Dev) (type : Nat) : Bool :=
  decide (1048576 ≤ logUsed d) || (d.sen.full && !logReserve type)

/-- An entry lost and counted (15 R456). -/
def lose (d : Dev) : Dev := { d with sen.lost := holdAt 32 (d.sen.lost + 1) }

/-- The 64 bytes of a placed entry (15 R452). -/
def logBytes (e : LogEntry) : Bytes := logHead e ++ fitTo 16 e.chain

/-! ## MSI-X (03 R76, R77) -/

/-- Vector v of a function. -/
def vectorOf (d : Dev) (fn : Fn) (v : Nat) : Vector' :=
  match fn with
  | .pf => tabGet {} d.host.pfMsix v
  | .vf n => tabGet {} (tn d n).msix v

/-- Vector v of a function replaced. -/
def setVector (d : Dev) (fn : Fn) (v : Nat) (x : Vector') : Dev :=
  match fn with
  | .pf => { d with host.pfMsix := tabPut {} d.host.pfMsix v x }
  | .vf n => modTn d n fun t => { t with msix := tabPut {} t.msix v x }

/-- A message of a vector falls due: sent, or left pending while masked or while Bus Master Enable is 0 (03 R77). -/
def signalVector (d : Dev) (fn : Fn) (v : Nat) : Dev :=
  let x := vectorOf d fn v
  if d.bay.seatHigh then d
  else if x.masked || !bmeOf d fn then setVector d fn v { x with pending := true }
  else dma d 5 .write (.msix fn v x.addr x.data)

/-- Vector v's pending message sent if it may be (03 R77). -/
def releaseVector (d : Dev) (fn : Fn) (v : Nat) : Dev :=
  let x := vectorOf d fn v
  if x.pending && !x.masked && bmeOf d fn && !d.bay.seatHigh then dma (setVector d fn v { x with pending := false }) 5 .write (.msix fn v x.addr x.data)
  else d

/-! ## Rejected writes (05 R142) -/

/-- A PF register write or commit rejected: the sticky bit, with OFFSET and CAUSE of the first (03 R78). -/
def rejectPf (d : Dev) (cause : Bool) (offset : Nat) : Dev :=
  if d.glb.cfgReject then d
  else { d with glb.cfgReject := true, glb.cfgCause := cause, glb.cfgOffset := offset }

/-- A VF register write rejected (03 R81). -/
def rejectVf (d : Dev) (n : Nat) : Dev := modTn d n fun t => { t with event := setBit t.event 4 }

/-! ## Ring facts (12 R345, R351, R355) -/

/-- Entry i of a ring configuration is used (12 R345). -/
def cfgUsed (cfg : Bytes) (i : Nat) : Bool := field cfg (0x20 + 64 * i) 1 == i && decide (i < 16)
/-- The serial in entry i. -/
def cfgSerial (cfg : Bytes) (i : Nat) : Nat := field cfg (0x20 + 64 * i + 8) 8
/-- The chassis serial in entry i. -/
def cfgChassis (cfg : Bytes) (i : Nat) : Bytes := slice cfg (0x20 + 64 * i + 0x10) 16
/-- The identity digest in entry i. -/
def cfgDigest (cfg : Bytes) (i : Nat) : Bytes := slice cfg (0x20 + 64 * i + 0x20) 32
/-- ANCHOR, STANDBY, RING_ID and CONFIG_SEQ. -/
def cfgAnchor (cfg : Bytes) : Nat := field cfg 5 1
def cfgStandby (cfg : Bytes) : Nat := field cfg 6 1
def cfgRingId (cfg : Bytes) : Nat := field cfg 8 8
def cfgSeq (cfg : Bytes) : Nat := field cfg 0x10 8

/-- The member number a configuration gives a serial. -/
def cfgMemberOf (cfg : Bytes) (serial : Nat) : Option Nat :=
  (List.range 16).find? fun i => cfgUsed cfg i && cfgSerial cfg i == serial

/-- This module's member number (12 R371 RING_STATUS.MEMBER). -/
def memberNo (d : Dev) : Nat :=
  match d.ring.config with
  | some c => (cfgMemberOf c d.otp.serial).getD 0
  | none => 0

/-- Members of a mask in ascending number. -/
def membersOf (mask : Nat) : List Nat := (List.range 16).filter (bit mask)

/-- The order of succession among present members (12 R351). -/
def succession (d : Dev) (mask : Nat) : List Nat :=
  match d.ring.config with
  | none => membersOf mask
  | some c =>
    let first := [cfgAnchor c, cfgStandby c].filter (bit mask)
    first ++ (membersOf mask).filter fun m => m != cfgAnchor c && m != cfgStandby c

/-- The acting anchor of a set of present members. -/
def actingOf (d : Dev) (mask : Nat) : Option Nat := (succession d mask).head?
/-- The standby anchor of a set of present members. -/
def standbyOf (d : Dev) (mask : Nat) : Option Nat := ((succession d mask).drop 1).head?

/-- Whether this member is joined: MEMBER or LEAVING (12 R371). -/
def joined (d : Dev) : Bool := d.ring.st == 0x55 || d.ring.st == 0x96

/-- RING_STATUS.IS_ANCHOR. -/
def isAnchor (d : Dev) : Bool := joined d && actingOf d d.ring.present == some (memberNo d)

/-- RING_STATUS.DUAL: every bucket is DUAL or MOVING (12 R371). -/
def ringDual (d : Dev) : Bool :=
  joined d && decide (d.ring.map.length = 4096) && d.ring.map.all fun p => p.2.st == 0 || p.2.st == 3 || p.2.st == 4

/-! ## Handles (06 R148) -/

def hTenant (h : Nat) : Nat := h / 2 ^ 52 % 2 ^ 12
def hClass (h : Nat) : Nat := h / 2 ^ 48 % 16
def hIndex (h : Nat) : Nat := h / 2 ^ 16 % 2 ^ 32
def hVersion (h : Nat) : Nat := h % 2 ^ 16

/-- A handle from its fields. -/
def mkHandle (t c i v : Nat) : Nat := t * 2 ^ 52 + c * 2 ^ 48 + i * 2 ^ 16 + v

/-- The key a handle names: its tenant, class and index (06 R149). -/
def keyOf (h : Nat) : Nat := h / 2 ^ 16

/-- The bucket of a handle (12 R355). -/
def bucketOf (h : Nat) : Nat :=
  (hIndex h ^^^ hIndex h / 2 ^ 12 ^^^ hIndex h / 2 ^ 24 ^^^ hTenant h * 0x9E5) % 4096

/-- Whether this module holds a handle: outside a ring always; in a ring, and while PARTED, as the map names it (12 R355). -/
def holds (d : Dev) (h : Nat) : Bool :=
  !(joined d || d.ring.st == 0xF0) || (mapOf d (bucketOf h)).primary == memberNo d || (mapOf d (bucketOf h)).secondary == memberNo d

end Sys2Proof.Machine
end

