-- ==== Sys2Proof/Machine/Flags.lean ====
section
/-! DEFINITION. Every status word and indicator the manual computes from the state, and `settle`: the event bits that follow a change
of state and the MSI-X messages and the SMBus alert that follow them. -/

namespace Sys2Proof.Machine

/-! ## Status words -/

/-- GLB_STATUS bits 7:0 (03 R78). -/
def glbLow (d : Dev) : Nat :=
  flag d.glb.fwRunning 0 + flag d.glb.rootOk 1 + flag d.glb.vaultLoaded 2 + flag (inService d) 3 + flag d.glb.locked 4 +
  flag d.glb.failStop 5 + flag d.bay.ringJoin 6 + flag (isAnchor d) 7

/-- SB_STATUS.ATTENTION: the amber-steady condition of ATTN (02 R37, R41). -/
def attention (d : Dev) : Bool := d.bay.attachAttention || d.bay.cellState != 0 || d.bay.unsuitable

/-- GLB_STATUS (03 R78). -/
def glbStatus (d : Dev) : Nat :=
  glbLow d + 2 ^ 8 * d.bay.keeperState + 2 ^ 10 * d.bay.cellState + flag d.bay.unsuitable 12 + flag d.bay.removalPending 13 +
  flag d.bay.safeToRemove 14 + flag (attention d) 15 + 2 ^ 16 * d.bay.bayPos

/-- SB_STATUS (02 R41). -/
def sbStatus (d : Dev) : Nat :=
  flag d.bay.checkDone 0 + 2 * d.bay.keeperState + flag d.bay.unsuitable 3 + flag d.bay.mainLoads 4 + flag d.bay.ringJoin 5 +
  flag d.bay.removalPending 6 + flag d.bay.safeToRemove 7 + 2 ^ 8 * d.bay.cellState + flag (attention d) 10 +
  flag d.glb.failStop 11 + 2 ^ 12 * d.bay.bayPos

/-- VF_STATUS of VF n (03 R81). -/
def vfStatus (d : Dev) (n : Nat) : Nat :=
  flag (admitted d n) 0 + flag (inService d) 1 + flag d.glb.locked 2 + flag d.bay.ringJoin 3 + flag (tn d n).lockAllowed 4 +
  2 ^ 8 * (tn d n).qpCount + 2 ^ 16 * d.glb.pace

/-- GLB_VERSION (03 R78). -/
def glbVersion (d : Dev) : Nat :=
  d.otp.hwStep + flag d.mnt.runningB 8 +
  (match d.mnt.running with | some im => 2 ^ 16 * im.minor + 2 ^ 24 * im.major | none => 0)

/-- The STATE indicator (02 R37, 18 R497): 0 dark, 1 green 1 Hz, 2 green, 3 amber, 4 amber 1 Hz, 5 red, 6 red 1 Hz. -/
def indState (d : Dev) : Nat :=
  if !d.bay.auxPower then 0
  else if !d.bay.mainLoads then (if d.bay.p12v && d.bay.unsuitable then 4 else 0)
  else if readiness d == rdFailStop || readiness d == rdFirmwareLess then 5
  else if d.lcd.st != 0x96 then 6
  else if readiness d == rdStarting then 1
  else if readiness d == rdLocked then 3
  else if readiness d == rdNoVault || readiness d == rdLoading then 4
  else if readiness d == rdDraining then
    (if d.bay.drainFrom == rdNoVault || d.bay.drainFrom == rdLoading then 4 else if d.bay.drainFrom == rdLocked then 3 else 2)
  else 2

/-- The RING indicator (02 R37): 0 dark, 1 green, 2 double flash, 3 blinking 4 Hz. -/
def indRing (d : Dev) : Nat :=
  if !d.bay.ringJoin || !d.bay.auxPower then 0
  else if d.ring.st == 0x33 || d.ring.st == 0x96 || d.ring.map.any (fun p => p.2.st == 1 || p.2.st == 2) then 3
  else if isAnchor d then 2 else 1

/-- The ATTN indicator (02 R37): 0 dark, 1 amber, 2 amber 1 Hz, 3 green. -/
def indAttn (d : Dev) : Nat :=
  if !d.bay.auxPower then 0
  else if d.bay.safeToRemove then 3
  else if d.bay.removalPending then 2
  else if attention d then 1 else 0

/-! ## Events that follow a change of state -/

/-- Bits of `new` that `old` does not hold. -/
def risen (old new : Nat) : Nat := clearBits new old

/-- A message for an event register in which an enabled bit became 1. -/
def eventMessage (fn : Fn) (v old new en : Nat) (d : Dev) : Dev :=
  if risen old new &&& en = 0 then d else signalVector d fn v

/-- VF_EVENT.MODULE_STATE and ADMISSION of one VF (03 R81), and the credit a tenant starts with when it is admitted (04 R106). A reset of the VF in the
same step leaves its register at the reset value (03 R81, R82). -/
def vfEdges (old : Dev) (d : Dev) (n : Nat) : Dev :=
  let kept := (tn old n).gen == (tn d n).gen
  let m := inService old != inService d || old.glb.locked != d.glb.locked || old.bay.ringJoin != d.bay.ringJoin
  let a := admitted old n != admitted d n
  let up := a && admitted d n
  if m || a then modTn d n fun t =>
    { t with event := t.event ||| flag (m && kept) 2 ||| flag (a && kept) 3, credit := if up then 16 else t.credit, credited := t.credited || up } else d

/-- Edges of every VF that exists. -/
def allVfEdges (old d : Dev) : Dev :=
  if d.host.linkUp && d.host.vfEnable then (List.range d.host.numVFs).foldl (vfEdges old) d else d

/-- Whether the fabric leaves reset, or goes into it, in a step: its registers then read their reset values (07 R223, 16 R473). -/
def startsIn (old d : Dev) : Bool := !old.bay.fabric || !d.bay.fabric || (d.glb.starting && !old.glb.starting)

/-- GLB, SEN, VMP, RING, ENT event bits that follow a change of state (03 R78, 15 R460, 07 R223, 12 R371, 16 R473). -/
def blockEdges (old d : Dev) : Dev :=
  { d with
    glb.event := d.glb.event ||| flag (d.bay.safeToRemove && !old.bay.safeToRemove) 1
      ||| flag (d.glb.thermalFallback && !old.glb.thermalFallback) 3 ||| flag (old.bay.cellState != d.bay.cellState) 4
      ||| flag (glbLow old != glbLow d) 5 ||| flag (d.glb.cfgReject && !old.glb.cfgReject) 7
    sen.event := d.sen.event ||| flag (d.glb.locked && !old.glb.locked) 1
    vmp.event := d.vmp.event ||| flag (!startsIn old d && old.vmp.st != d.vmp.st) 6
    ring.event := d.ring.event ||| flag (!startsIn old d && ringDual old != ringDual d) 3
    ent.event := d.ent.event ||| flag (!startsIn old d && old.ent.poolFailed != d.ent.poolFailed) 1 |||
      flag (!startsIn old d && old.ent.drbgFailed != d.ent.drbgFailed) 2 }

/-- An entropy entry of the log: 0 source offline, 1 source online, 2 pool failed, 3 pool recovered, 4 DRBG entered FAILED, 5 DRBG left FAILED
(15 R454 TYPE 0x0043; packing: log entry 16). -/
def logEntropy (d : Dev) (event : Nat) (data : Bytes) : Dev := submit d 0x0043 0 16 0xFFFE (natLe 1 event ++ data)

/-- Entries for the pool and the DRBG where a running fabric saw them change (16 R469, R472). -/
def entropyEdges (old d : Dev) : Dev :=
  if startsIn old d then d
  else
    let d1 := if old.ent.poolFailed == d.ent.poolFailed then d else logEntropy d (if d.ent.poolFailed then 2 else 3) []
    if old.ent.drbgFailed == d.ent.drbgFailed then d1 else logEntropy d1 (if d.ent.drbgFailed then 4 else 5) []

/-- SMB_ALERT_N driven low when CHECK_DONE, SAFE_TO_REMOVE or FAIL_STOP becomes 1 (02 R41). -/
def alertEdge (old d : Dev) : Dev :=
  if (d.bay.checkDone && !old.bay.checkDone) || (d.bay.safeToRemove && !old.bay.safeToRemove) ||
      (d.glb.failStop && !old.glb.failStop) then { d with bay.smbAlert := true } else d

/-- The message of one VF's event register. -/
def vfMessage (old : Dev) (d : Dev) (n : Nat) : Dev :=
  eventMessage (.vf n) (tn d n).eventVector (tn old n).event (tn d n).event (tn d n).eventEn d

/-- Messages of every event register (03 R76). -/
def messages (old d : Dev) : Dev :=
  let d := eventMessage .pf 1 old.glb.event d.glb.event d.glb.eventEn d
  let d := eventMessage .pf 2 old.sen.event d.sen.event d.sen.eventEn d
  let d := eventMessage .pf 3 old.ring.event d.ring.event d.ring.eventEn d
  let d := eventMessage .pf 4 old.vmp.event d.vmp.event d.vmp.eventEn d
  let d := eventMessage .pf 5 old.lcd.event d.lcd.event d.lcd.eventEn d
  let d := eventMessage .pf 10 old.ent.event d.ent.event d.ent.eventEn d
  (d.tenants.map Prod.fst).foldl (vfMessage old) d

/-- What follows every command: events on the edges between the old and the new state, then their messages. -/
def settle (old d : Dev) : Dev := messages old (entropyEdges old (alertEdge old (allVfEdges old (blockEdges old d))))

end Sys2Proof.Machine
end

