-- ==== Sys2Proof/Machine/Operands.lean ====
section
/-! DEFINITION. The operand forms of a host command: the fields of a command entry (04 R95 to R100), the parameters wherever they lie,
and the checks of R101 that follow from the entry alone. -/

namespace Sys2Proof.Machine

/-! ## The command entry (04 R95) -/

def eOpcode (e : Bytes) : Nat := field e 0 2
def eFlags (e : Bytes) : Nat := field e 2 1
def ePriority (e : Bytes) : Nat := field e 3 1
def eTag (e : Bytes) : Bytes := slice e 4 4
def eParamLen (e : Bytes) : Nat := field e 8 2
def eReplyUnits (e : Bytes) : Nat := field e 0x0A 2
def eDataLen (e : Bytes) : Nat := field e 0x0C 4
def eDataAddr (e : Bytes) : Nat := field e 0x10 8
def eReplyAddr (e : Bytes) : Nat := field e 0x18 8
def eParamAddr (e : Bytes) : Nat := field e 0x20 8
/-- FLAGS.INDIRECT_PARAM, DATA_SGL, FENCE, NO_IRQ (04 R96). -/
def eIndirect (e : Bytes) : Bool := bit (eFlags e) 0
def eSgl (e : Bytes) : Bool := bit (eFlags e) 1
def eFence (e : Bytes) : Bool := bit (eFlags e) 2
def eNoIrq (e : Bytes) : Bool := bit (eFlags e) 3
/-- Bytes of reply buffer (04 R100). -/
def eReplyBytes (e : Bytes) : Nat := 64 * eReplyUnits e

/-- The parameters, in the entry or in host memory (04 R98); none when their read failed. -/
def paramsOf (e : Bytes) (i : Inputs) : Option Bytes :=
  if eIndirect e then i.params.map fun p => p.take (eParamLen e) else some (slice e 0x20 (eParamLen e))

/-- PARAM_LENGTH within the limits of its place (04 R98). -/
def paramLenOk (e : Bytes) : Bool :=
  if eIndirect e then decide (1 ≤ eParamLen e) && decide (eParamLen e ≤ 16384) else decide (eParamLen e ≤ 96)

/-- Reserved bits and bytes of the entry zero, and aligned addresses (04 R95, R96, R98). -/
def entryReservedOk (e : Bytes) : Bool :=
  decide (eFlags e < 16) && decide (ePriority e < 8) &&
  (if eIndirect e then zeros e 0x28 88 && decide (eParamAddr e % 8 = 0) else zeros e (0x20 + eParamLen e) (96 - eParamLen e)) &&
  (decide (eReplyUnits e = 0) || decide (eReplyAddr e % 8 = 0))

/-- The lengths of a descriptor list sum to DATA_LENGTH (04 R99). -/
def sglSumOk (e : Bytes) (l : List Desc) : Bool := decide ((l.map Desc.len).foldl (· + ·) 0 = eDataLen e)

/-- A descriptor list has 1 to 256 descriptors of at least one byte with reserved bytes zero (04 R99). -/
def sglFormOk (l : List Desc) : Bool :=
  decide (1 ≤ l.length) && decide (l.length ≤ 256) && l.all fun x => decide (1 ≤ x.len) && x.resv == 0

/-- Whether a command still needs host memory before it can start (03 R73): indirect parameters, a descriptor list, input data or AAD. -/
def needsHostRead (e : Bytes) : Bool := eIndirect e || decide (0 < eDataLen e) || (eOpcode e == 0x2002 && decide (0 < field (slice e 0x20 (eParamLen e)) 0x20 4))

/-! ## A command at hand -/

/-- A parsed command: its context, issuer, parameters, input data, and the world's answers. -/
structure Cmd where
  k : Nat
  fn : Fn
  entry : Bytes
  p : Bytes
  data : Bytes
  i : Inputs
  inbound : Bool
deriving DecidableEq, Repr

/-- The tenant of a command's issuer; 4,096 for the PF, which is no tenant. -/
def Cmd.tenant (c : Cmd) : Nat :=
  match c.fn with
  | .pf => 4096
  | .vf n => n

/-- DATA_LENGTH. -/
def Cmd.dlen (c : Cmd) : Nat := eDataLen c.entry
/-- Reply capacity in bytes. -/
def Cmd.cap (c : Cmd) : Nat := eReplyBytes c.entry

/-- Byte, 16-bit, 32-bit, 64-bit parameter at an offset. -/
def Cmd.b1 (c : Cmd) (o : Nat) : Nat := field c.p o 1
def Cmd.b2 (c : Cmd) (o : Nat) : Nat := field c.p o 2
def Cmd.b4 (c : Cmd) (o : Nat) : Nat := field c.p o 4
def Cmd.b8 (c : Cmd) (o : Nat) : Nat := field c.p o 8

/-- How a command's effect ends: with an outcome, or waiting in its context. -/
inductive Fin
  | done (r : Reply)
  | waits (w : Wait)
deriving DecidableEq, Repr

/-- A plain outcome with an inline result (04 R102). -/
def ok (result : Bytes) : Fin := .done { status := stOk, result := fitTo 16 result, data := [] }
/-- An outcome with an inline result and reply data. -/
def okData (result data : Bytes) : Fin := .done { status := stOk, result := fitTo 16 result, data }
/-- A status without result (04 R103). -/
def failWith (status : Nat) : Fin := .done { status, result := zeroBytes 16, data := [] }
/-- The reply that carries a status alone. -/
def bare (status : Nat) : Reply := { status, result := zeroBytes 16, data := [] }

/-- Which parameter values an acceptance depends on (04 R101 step 3): none, all, or some. -/
inductive Cond
  | never
  | always
  | onParams (f : Bytes → Bool)

/-- A command card: what the manual's card fixes about an opcode. `capFor` is the least reply capacity for its issuer, `lenOk` are the limits of step 4,
`lenLate` those that depend on the parameters, judged once these are at hand (log entry 22), `handles` the records it names, `route` its routing handle (12 R21),
`loads` the handle whose key its lane loads, `takes` the records of which its engine takes values before it begins, with their number (08 R238), `locks` the keys it creates, changes or destroys (12 R359), `busyOnHold` whether it returns BUSY where it meets the hold (06 R165),
`skipHeld` whether it leaves out keys that another command holds and reports them itself (11 R337), `lateRead` whether it reads further host memory, `useLock` whether it runs on its tenant's locked lane (08 R251),
`drbg` 1 where it draws from the DRBG and 2 with prediction resistance, `origin` the step its fetching module makes before routing, `approval` the action and digest of 14 R412 with `preCheck` the checks made before
it, `check` the rest of step 7 of 04 R101, `eff` its effect once every check has passed. -/
structure Card where
  opcode : Nat
  capFor : Fn → Nat
  pf : Bool
  tenant : Bool
  group : Option Nat
  keyed : Cond
  logs : Cond
  lenOk : (entry : Bytes) → Bool
  lenLate : Cmd → Bool
  paramOk : Cmd → Bool
  handles : Cmd → List Nat
  route : Cmd → Option Nat
  locks : Cmd → List Nat
  busyOnHold : Bool
  skipHeld : Bool
  unit : Cmd → UnitKind
  loads : Cmd → Option Nat
  takes : Cmd → Dev → List (Record × Nat)
  lateRead : Cmd → Bool
  useLock : Cmd → Bool
  drbg : Cmd → Nat
  writesOut : Cmd → Bool
  origin : Cmd → Dev → Dev × Option Reply
  preCheck : Cmd → Dev → Option Nat
  approval : Cmd → Dev → Option (Nat × Bytes)
  check : Cmd → Dev → Option Nat
  eff : Cmd → Dev → Dev × Fin

/-- A management card: no key, no route, no engine, no randomness. Cards are this with their own fields. -/
def Card.plain (opcode : Nat) : Card :=
  { opcode, capFor := fun _ => 0, pf := true, tenant := false, group := none, keyed := .never, logs := .never, lenOk := fun _ => true, lenLate := fun _ => true,
    paramOk := fun _ => true, handles := fun _ => [], route := fun _ => none, locks := fun _ => [], busyOnHold := false, skipHeld := false, unit := fun _ => .none, loads := fun _ => none, takes := fun _ _ => [], lateRead := fun _ => false, useLock := fun _ => false, drbg := fun _ => 0,
    writesOut := fun _ => false, origin := fun _ d => (d, none), preCheck := fun _ _ => none, approval := fun _ _ => none, check := fun _ _ => none, eff := fun _ d => (d, ok []) }

/-- PARAM_LENGTH, DATA_LENGTH and reply bytes against fixed limits: parameters, least and most data, least reply bytes. -/
def lens (plen dmin dmax cap : Nat) (e : Bytes) : Bool :=
  decide (eParamLen e = plen) && decide (dmin ≤ eDataLen e) && decide (eDataLen e ≤ dmax) && decide (cap ≤ eReplyBytes e)

/-- The first status of a list of checks that fail. -/
def firstFail : List (Bool × Nat) → Option Nat
  | [] => none
  | (true, st) :: _ => some st
  | (false, _) :: t => firstFail t

/-! ## Life-cycle and readiness acceptance (14 R393, 18 R498) -/

/-- Step 1 of R101 on the opcode alone: the life-cycle state accepts it (14 R393; FACTORY_TEST: log entry 13). In FACTORY_TEST without firmware the
image recovery runs (05 R140, 18 R498, R502). -/
def lcAccepts (st op : Nat) (firmwareLess : Bool) : Bool :=
  if st == 0x96 then true
  else if st == 0x33 && firmwareLess && (op == 0x0301 || op == 0x0302) then true
  else if st == 0x55 then decide (op < 0x100) || (decide (0x200 ≤ op) && decide (op < 0x400)) || op == 0x1010 || op == 0x7001
  else if st == 0x3C then decide (op < 0x100) || op == 0x0201
  else op == 0x0001 || op == 0x0002

/-- Opcodes accepted in a readiness state whatever their parameters (18 R498). -/
def rdAccepts (rd op : Nat) : Bool :=
  if rd == rdFirmwareLess then [0x0001, 0x0002, 0x0301, 0x0302].contains op
  else if rd == rdStarting then [0x0001, 0x0002, 0x0020].contains op
  else if rd == rdLocked then
    [0x0001, 0x0002, 0x0020, 0x0105, 0x0201, 0x0210, 0x0211, 0x0230, 0x0231, 0x0233, 0x0301, 0x0302, 0x0303, 0x0304].contains op
  else if rd == rdDraining then
    [0x0001, 0x0002, 0x0012, 0x0020, 0x0104, 0x0105, 0x0302, 0x0303, 0x0304, 0x1007, 0x7003].contains op
  else if rd == rdNoVault || rd == rdLoading then !(op == 0x0104 || op == 0x0105)
  else decide (rd ≠ rdFailStop)

/-- The status of an opcode that a readiness state does not accept (18 R498). -/
def rdStatus (rd : Nat) : Nat :=
  if rd == rdFirmwareLess then stBadOpcode else if rd == rdLocked then stLocked
  else if rd == rdFailStop then stDeviceFault else stNotReady

/-- The parameter values that a readiness state does not accept of an opcode it accepts (18 R498, 14 R419). -/
def rdDeferred (rd op : Nat) (p : Bytes) : Option Nat :=
  if rd == rdFirmwareLess && op == 0x0301 && field p 0 1 != 1 then some stBadOpcode
  else if rd == rdLocked && op == 0x0301 && field p 0 1 != 1 && field p 0 1 != 6 then some stLocked
  else if rd == rdLocked && op == 0x0230 && field p 0 1 != 0 then some stLocked
  else if rd == rdLocked && op == 0x0201 && (field p 0 1 == 0 || field p 0 1 == 2) && field p 1 1 != 0x3C && field p 1 1 != 0xF0 then
    some stLocked
  else none

/-- Whether a condition holds on the opcode alone. -/
def Cond.now : Cond → Bool
  | .always => true
  | _ => false

/-- Whether a condition holds of the parameters. -/
def Cond.of (p : Bytes) : Cond → Bool
  | .never => false
  | .always => true
  | .onParams f => f p

end Sys2Proof.Machine
end

