-- ==== Sys2Proof/Machine/Units.lean ====
section
/-! DEFINITION. The units of the engines and the requests that wait for them (08 R231, R249, R251; 09 R260; 10 R281; 16 R463): which unit a request
gets, and the order in which waiting requests are served. -/

namespace Sys2Proof.Machine

/-- Whether a unit may serve a request: online, idle, and not the one whose fault makes the command run again (17 R480). -/
def unitServes (avoid : Option Nat) (j : Nat) (u : EngUnit) : Bool := u.online && u.busy.isNone && avoid != some j

/-- The first position of a list that a test of position and element accepts. -/
def findIdx {α : Type} (p : Nat → α → Bool) (l : List α) : Option Nat :=
  (findAt (fun x : α × Nat => p x.2 x.1) l.zipIdx 0).map Prod.fst

/-- Lanes locked now. -/
def lockedLanes (d : Dev) : Nat := (d.eng.lanes.filter fun l => l.lockedBy.isSome).length

/-- Whether a lane is idle and unlocked. -/
def laneFree (l : Lane) : Bool := l.online && l.busy.isNone && l.lockedBy.isNone

/-- Idle lanes that go to waiting lock requests before any queue-mode request (08 R231, R249). -/
def lanesOwed (d : Dev) : Nat := min d.eng.lockQueue.length (32 - lockedLanes d)

/-- The lane a queue-mode request gets: one that holds its key, else the lowest idle one; none while the idle lanes go to lock requests (08 R231). -/
def pickLane (d : Dev) (avoid key : Option Nat) : Option Nat :=
  let open' := fun (j : Nat) (l : Lane) => laneFree l && avoid != some j
  if (d.eng.lanes.filter laneFree).length ≤ lanesOwed d then none
  else
    match (if key.isSome then findIdx (fun j (l : Lane) => open' j l && l.key == key) d.eng.lanes else none) with
    | some j => some j
    | none => findIdx open' d.eng.lanes

/-- The level at which the public-key engine serves a context: its own, but level 1 for a component envelope (09 R269). -/
def pkLevel (c : Ctx) : Nat := if eOpcode c.entry = 0x1005 then min 1 c.level else c.level

/-- Whether the engine may take a request of a level: levels 2 to 7 fill at most 14 public-key units (09 R260). -/
def pkRoom (d : Dev) (level : Nat) : Bool :=
  let tenants := d.eng.pks.filter fun u => match u.busy with | some k => decide (2 ≤ pkLevel (ctxOf d k)) | none => false
  decide (level < 2) || decide (tenants.length < 14)

/-- What a request for a unit comes to. -/
inductive UnitResult
  | got (d : Dev)
  | offline
  | waits

/-- Whether context k is served by a unit already. -/
def hasUnit (d : Dev) (k : Nat) : Bool :=
  d.eng.lanes.any (·.busy == some k) || d.eng.pins.any (·.busy == some k) || d.eng.pks.any (·.busy == some k) ||
    d.cvu.units.any (·.cmd == some k)

/-- A check-value unit of the command pool in service (16 R463, 17 R483). -/
def inPool (u : Cvu) : Bool := u.online && !u.owner

/-- A unit of a kind for context k; `key` is the version loaded into a lane, `locked` the lane of a grant
the command runs under (08 R251). -/
def takeUnit (d : Dev) (k : Nat) (kind : UnitKind) (key : Option Nat) (locked : Option Nat) : UnitResult :=
  let avoid := (ctxOf d k).avoid
  if hasUnit d k then .got d
  else if locked.isSome then
    let j := locked.getD 0
    if ((d.eng.lanes.getD j {}).busy).isSome then .waits
    else .got { d with eng.lanes := modifyAt d.eng.lanes j fun l => { l with busy := some k } }
  else match kind with
    | .none => .got d
    | .lane =>
      if d.eng.lanes.all fun l => !l.online then .offline
      else match pickLane d avoid key with
        | some j => .got { d with eng.lanes := modifyAt d.eng.lanes j fun l => { l with busy := some k, key } }
        | none => .waits
    | .pin =>
      if d.eng.pins.all fun u => !u.online then .offline
      else match findIdx (unitServes avoid) d.eng.pins with
        | some j => .got { d with eng.pins := modifyAt d.eng.pins j fun u => { u with busy := some k } }
        | none => .waits
    | .pk =>
      if d.eng.pks.all fun u => !u.online then .offline
      else match (if pkRoom d (pkLevel (ctxOf d k)) then findIdx (unitServes avoid) d.eng.pks else none) with
        | some j => .got { d with eng.pks := modifyAt d.eng.pks j fun u => { u with busy := some k } }
        | none => .waits
    | .cvu =>
      if d.cvu.units.all fun u => !inPool u then .offline
      else match findIdx (fun j (u : Cvu) => inPool u && !u.busy && avoid != some j) d.cvu.units with
        | some j => .got { d with cvu.units := modifyAt d.cvu.units j fun u => { u with busy := true, cmd := some k } }
        | none => .waits

/-- The place of a waiting request: by level, then by arrival; under a grant by arrival alone (08 R231, R251; 09 R260). -/
def wantPlace (c : Ctx) (w : Want) : Nat × Nat := (if w.locked.isSome then 0 else if w.kind = .pk then pkLevel c else c.level, w.seq)

/-- A context put into a list of waiting requests in order. -/
def queueIn (d : Dev) (l : List Nat) (k : Nat) : List Nat :=
  let place := fun k => match (ctxOf d k).want with | some w => wantPlace (ctxOf d k) w | none => (8, 0)
  match l with
  | [] => [k]
  | a :: t =>
    if (place k).1 < (place a).1 ∨ ((place k).1 = (place a).1 ∧ (place k).2 < (place a).2) then k :: a :: t else a :: queueIn d t k

end Sys2Proof.Machine
end

