-- ==== Sys2Proof/Machine/Complete.lean ====
section
/-! DEFINITION. Starter contexts taken and freed (05 R121 to R128), ready lists (05 R125), and the end of a command: the generation check,
the held write, the reply, the completion entry and its interrupt (03 R73, 04 R90, R94, R102, R108, R109). -/

namespace Sys2Proof.Machine

/-! ## Contexts -/

def csFree : Nat := 0x0F
def csReady : Nat := 0x33
def csRunning : Nat := 0x55
def csWaiting : Nat := 0x96
def csHeld : Nat := 0xF0

/-- Whether a code is one of the five of 05 R123. -/
def codeKnown (code : Nat) : Bool := code == csFree || code == csReady || code == csRunning || code == csWaiting || code == csHeld

/-- Whether a context is held by a command. -/
def ctxHeld (c : Ctx) : Bool := c.code != csFree

/-- Whether the command of a context is over but for its writes, which Bus Master Enable holds up (03 R73). -/
def writesHeld (c : Ctx) : Bool := c.code == csHeld || (c.wait == .hostMemory && c.held.isSome)

/-- The numbers of the contexts that a test accepts, rising. -/
def ctxsWhere (d : Dev) (p : Ctx → Bool) : List Nat := (d.sch.ctxs.filter fun x => p x.2).map Prod.fst

/-- A context of an admin command fetched by this module. -/
def isAdmin (c : Ctx) : Bool := ctxHeld c && c.origin.isNone && c.fn == .pf
/-- A context of a tenant command fetched by this module. -/
def isTenant (c : Ctx) : Bool := ctxHeld c && c.origin.isNone && c.fn != .pf
/-- A context of a command that arrived from another member. -/
def isInbound (c : Ctx) : Bool := ctxHeld c && c.origin.isSome
/-- A context of a command of tenant n fetched by this module. -/
def isOf (n : Nat) (c : Ctx) : Bool := ctxHeld c && c.origin.isNone && c.fn == .vf n

/-- How many contexts a test accepts. -/
def countCtx (d : Dev) (p : Ctx → Bool) : Nat := (ctxsWhere d p).length

/-- The lowest free context. -/
def freeCtxNo (d : Dev) : Nat :=
  let used := ctxsWhere d ctxHeld
  lowestNotIn used (used.length + 1) 0

/-- The next use number of a context, skipping those still posted to (17 R492). -/
def nextUseNo (owed : List (Nat × Nat)) (k : Nat) : (fuel u : Nat) → Nat
  | 0, u => u
  | f + 1, u => if owed.contains (k, u) then nextUseNo owed k f ((u + 1) % 256) else u

/-- A context taken for a command (05 R121, R128), with its next use number. DESIGN CHOICE: of the free contexts the lowest-numbered is taken; the manual
names none (log entry 98). -/
def takeCtx (d : Dev) (c : Ctx) : Nat × Dev :=
  let k := freeCtxNo d
  (k, setCtx d k { c with useNo := nextUseNo d.sch.owed k 256 (((ctxOf d k).useNo + 1) % 256) })

/-- Context k off every ready list. -/
def unready (d : Dev) (k : Nat) : Dev := { d with sch.ready := d.sch.ready.map fun l => l.filter (· != k) }

/-- The core that runs context k becomes free. -/
def leaveCore (d : Dev) (k : Nat) : Dev :=
  { d with sch.toRun := d.sch.toRun.filter (· != k),
           sch.cores := d.sch.cores.map fun c => if c.running = some k then { c with running := none } else c }

/-- A unit list in which no unit serves context k any more. -/
def idleUnits (k : Nat) (l : List EngUnit) : List EngUnit := l.map fun u => if u.busy = some k then { u with busy := none } else u

/-- The engines that served context k fall idle. -/
def leaveEngines (d : Dev) (k : Nat) : Dev :=
  { d with eng.lanes := d.eng.lanes.map (fun l => if l.busy = some k then { l with busy := none } else l),
           eng.pins := idleUnits k d.eng.pins, eng.pks := idleUnits k d.eng.pks,
           cvu.units := d.cvu.units.map fun u => if u.cmd = some k then { u with cmd := none, busy := false } else u }

/-- A card exchange of context k is over. -/
def leaveCards (d : Dev) (k : Nat) : Dev :=
  { d with lcd.cards := d.lcd.cards.map fun c => if c.exchange = some k then { c with exchange := none } else c }

/-- The access-table claim of context k freed with its task, unless its update is under way (13 R389). -/
def leaveClaim (d : Dev) (k : Nat) : Dev :=
  if d.act.claim = some k ∧ d.act.st = 0x0F then { d with act.claim := none, act.stage := d.act.entries } else d

/-- A format that context k began and does not complete leaves the vault EMPTY (07 R223, R225). -/
def leaveFormat (d : Dev) (k : Nat) : Dev :=
  if d.vmp.st = 0x33 ∧ (ctxOf d k).engineBegun ∧ eOpcode (ctxOf d k).entry = 0x0101 then { d with vmp.st := 0x0F } else d

/-- Context k freed (05 R121): it keeps only its use number. -/
def freeCtx (d : Dev) (k : Nat) : Dev :=
  setCtx (leaveFormat (leaveClaim (leaveCards (leaveEngines (leaveCore (unready d k) k) k) k) k) k) k { useNo := (ctxOf d k).useNo }

/-- Context k joins the tail of its level's ready list (05 R125). -/
def pushReady (d : Dev) (k : Nat) : Dev :=
  let d := modCtx d k fun c => { c with code := csReady, wait := .nothing, want := none }
  { d with sch.ready := modifyAt d.sch.ready (ctxOf d k).level fun l => l ++ [k] }

/-- Context k joins the head of its level's ready list (05 R125: a pre-empted task). -/
def pushHead (d : Dev) (k : Nat) : Dev :=
  let d := modCtx d k fun c => { c with code := csReady }
  { d with sch.ready := modifyAt d.sch.ready (ctxOf d k).level fun l => k :: l }

/-- A waiting context made ready; any other stays as it is. -/
def wake (d : Dev) (k : Nat) : Dev := if (ctxOf d k).code = csWaiting then pushReady d k else d

/-- Every context that waits as a test says is made ready, in ascending order (05 R125). -/
def wakeWhere (d : Dev) (p : Ctx → Bool) : Dev :=
  (ctxsWhere d fun c => c.code == csWaiting && p c).foldl wake d

/-- Context k leaves its core and waits (05 R126). -/
def park (d : Dev) (k : Nat) (w : Wait) : Dev :=
  modCtx (leaveCore (unready d k) k) k fun c => { c with code := csWaiting, wait := w }

/-- Context k waits for a unit, behind the requests that came before its own (08 R231). -/
def awaitUnit (d : Dev) (k : Nat) (kind : UnitKind) (key locked : Option Nat) : Dev :=
  modCtx (park { d with eng.arrivals := d.eng.arrivals + 1 } k .engine) k fun c => { c with want := some { kind, key, locked, seq := d.eng.arrivals } }

/-! ## Frames sent (12 R340, R343) -/

/-- Hops to a member going east, over present members in ring order (12 R343). -/
def hopsEast (d : Dev) (dst : Nat) : Nat :=
  let me := memberNo d
  let n := (List.range 16).filter fun i => bit d.ring.present ((me + 1 + i) % 16) && decide (i < (dst + 16 - me) % 16)
  n.length

/-- The direction a frame travels: fewer hops, east on a tie, the other way if the link has failed (12 R343). -/
def goesEast (d : Dev) (dst : Nat) : Bool :=
  let e := hopsEast d dst
  let total := (membersOf d.ring.present).length
  let east := decide (e ≤ total - e)
  if east then !d.ring.east.failed else d.ring.west.failed

/-- The hops on the route R343 chooses. -/
def hopsTo (d : Dev) (dst : Nat) : Nat :=
  let e := hopsEast d dst
  let total := (membersOf d.ring.present).length
  if goesEast d dst then e else total - e

/-- A pending commit of the RING block applied at its boundary, the next frame the member originates (05 R144). -/
def applyRing (d : Dev) : Dev :=
  if d.ring.pending then { d with ring.replRate := d.ring.replShadow, ring.pending := false, ring.commits := (d.ring.commits + 1) % 256 } else d

/-- A frame originated out of the east port, the west port or both: it takes the member's next frame count and carries its ring clock; it stays in the
port's replay buffer (12 R340, R342). -/
def sendVia (east west : Bool) (d : Dev) (dst : Nat) (body : FrameBody) : Dev :=
  let mk (east : Bool) : Frame := { dst, epoch := d.ring.epoch, count := d.ring.frameCount, clock := d.ring.clock, east, body }
  let d1 := { d with ring.frameCount := d.ring.frameCount + 1 }
  let goE (d : Dev) : Dev := emit { d with ring.east.replay := d.ring.east.replay ++ [(mk true, 0)] } (.frame (mk true))
  let goW (d : Dev) : Dev := emit { d with ring.west.replay := d.ring.west.replay ++ [(mk false, 0)] } (.frame (mk false))
  let d2 := if east then goE d1 else d1
  if west then goW d2 else d2

/-- A frame originated, in the direction R343 gives; a frame for every member both ways. -/
def sendFrame (d0 : Dev) (dst : Nat) (body : FrameBody) : Dev :=
  let d := applyRing d0
  sendVia (dst == 255 || goesEast d dst) (dst == 255 || !goesEast d dst) d dst body

/-! ## Completion (04 R102, R103, R108) -/

/-- The 32 bytes of a completion entry (04 R102). -/
def completionBytes (entry : Bytes) (r : Reply) (replyLen gen sqHead : Nat) (phase fwd : Bool) : Bytes :=
  eTag entry ++ natLe 2 r.status ++ natLe 2 gen ++ natLe 4 replyLen ++ natLe 2 sqHead ++
    natLe 2 (flag phase 0 + flag fwd 1) ++ fitTo 16 r.result

/-- A discard counted once (04 R109): for its tenant and in the total; and in the ENDED of a draining reset (04 R119). -/
def countDiscard (d : Dev) (fn : Fn) (gen : Nat) : Dev :=
  let d := { d with host.discardTotal := d.host.discardTotal + 1 }
  match fn with
  | .pf => d
  | .vf n => modTn d n fun t =>
      { t with discards := holdAt 32 (t.discards + 1),
               drain := t.drain.map fun x => if x.oldGen = gen then { x with ended := x.ended + 1 } else x }

/-- A command ended without completion by the generation check (04 R108, R109). -/
def discard (d : Dev) (k : Nat) : Dev := freeCtx (countDiscard d (ctxOf d k).fn (ctxOf d k).gen) k

/-- The interrupt of a completion (04 R94; 03 R78 for the admin queue). -/
def coalesce (d : Dev) (fn : Fn) (q : Nat) (entry : Bytes) : Dev :=
  let qp := qpOf d fn q
  if !qp.irqEn || eNoIrq entry then d
  else match fn with
    | .pf => signalVector d .pf 0
    | .vf n =>
      if max 1 qp.count ≤ qp.unsignalled + 1 then signalVector (setQp d fn q { qp with unsignalled := 0 }) (.vf n) qp.vector
      else setQp d fn q { qp with unsignalled := qp.unsignalled + 1 }

/-- A completion entry written into the next CQ slot; the tail advances, the phase inverts when it wraps (04 R88, R89). -/
def postEntry (d : Dev) (fn : Fn) (q : Nat) (entry : Bytes) (r : Reply) (replyLen gen : Nat) (fwd : Bool) : Dev :=
  let qp := qpOf d fn q
  let tail := (qp.cqTail + 1) % 2 ^ qp.cqSize
  let d1 := orderedWrite d fn (qp.cqBase + 32 * qp.cqTail) (completionBytes entry r replyLen gen qp.sqHead qp.phase fwd)
  setQp d1 fn q { qp with cqTail := tail, phase := if tail = 0 then !qp.phase else qp.phase, inflight := qp.inflight - 1 }

/-- A command fenced on a queue pair starts once the earlier ones have completed; once it has itself, fetching goes on (04 R96). -/
def fenceAfter (d : Dev) (fn : Fn) (q : Nat) : Dev :=
  let qp := qpOf d fn q
  if qp.inflight = 0 then setQp d fn q { qp with fenced := false }
  else if qp.inflight = 1 then wakeWhere d fun c => c.fn == fn && c.qp == q && c.wait == .fence
  else d

/-- The reply data as it can be written: cut to the capacity (04 R100). -/
def replyOf (entry : Bytes) (r : Reply) : Bytes := r.data.take (eReplyBytes entry)

/-- Whether the output writes of a context are those of a streamed decryption, which writes more than once (08 R242, R243). -/
def streams (c : Ctx) (outs : List (Nat × Bytes)) : Bool := c.stream.isSome || decide (1 < outs.length)

/-- The output data of a command written, in order; of a streamed decryption no write sets Relaxed Ordering, as R243 asks of its trailers (log entry 100). -/
def writeOuts (d : Dev) (c : Ctx) (outs : List (Nat × Bytes)) : Dev :=
  outs.foldl (fun d o => if streams c outs then orderedWrite d c.fn o.1 o.2 else dataWrite d c.fn o.1 o.2) d

/-- A reply with the POISON trailer that ends a begun stream which failed: with no output data left to write, it alone is written (08 R243). -/
def withTrailer (c : Ctx) (r : Reply) : Reply :=
  match c.stream with
  | some t => if r.outs.isEmpty then { r with outs := [t] } else r
  | none => r

/-- The writes of a finished command: output data in order, reply data, then the completion entry (01 R19, 04 R108), then its interrupt; the context is freed. -/
def deliver (d : Dev) (k : Nat) (r : Reply) (replyWriteOk fwd : Bool) : Dev :=
  let c := ctxOf d k
  let data := replyOf c.entry r
  let d0 := writeOuts d c r.outs
  let d1 := if data.isEmpty then d0 else dataWrite d0 c.fn (eReplyAddr c.entry) data
  let r1 := if data.isEmpty || replyWriteOk then r else bare stHostMemory
  let len := if data.isEmpty || replyWriteOk then data.length else 0
  fenceAfter (coalesce (freeCtx (postEntry d1 c.fn c.qp c.entry r1 len c.gen fwd) k) c.fn c.qp c.entry) c.fn c.qp

/-- A finished command: a forwarded one is answered by a REPLY frame (12 R21); one with a stale generation is discarded (04 R108); with Bus
Master Enable 0 its writes are held, in state WAITING where output data is among them (03 R73); on a sled leaving its bay none are issued (02 R54); otherwise they are delivered. -/
def finishWith (d : Dev) (k : Nat) (r0 : Reply) (replyWriteOk fwd : Bool) : Dev :=
  let c := ctxOf d k
  let r := withTrailer c r0
  match c.origin with
  | some o =>
    let d1 := freeCtx d k
    if joined d && d.bay.ringJoin && bit d.ring.present o.member then sendFrame d1 o.member (.reply o.ctx o.issue r) else d1
  | none =>
    if c.gen ≠ genOf d c.fn then discard d k
    else if d.bay.seatHigh then freeCtx d k
    else if !bmeOf d c.fn then
      let d1 := leaveFormat (leaveEngines (leaveCore (unready d k) k) k) k
      if r.outs.isEmpty then modCtx d1 k fun c => { c with code := csHeld, wait := .nothing, held := some r }
      else modCtx d1 k fun c => { c with code := csWaiting, wait := .hostMemory, held := some r }
    else deliver d k r replyWriteOk fwd

/-- A command ended with a status and nothing else. -/
def endWith (d : Dev) (k : Nat) (status : Nat) : Dev := finishWith d k (bare status) true false

/-! ## A meaning as a step -/

/-- One waiting request served, if a unit is free for it: the unit is its own from now on. Where no unit of its kind is left, its command goes on and
finds so. -/
def serveUnit (d : Dev) (k : Nat) : Dev :=
  match (ctxOf d k).want with
  | none => d
  | some w => match takeUnit d k w.kind w.key w.locked with
    | .got d1 => pushReady d1 k
    | .offline => pushReady d k
    | .waits => d

/-- The requests that wait for units, in the order they are served. -/
def unitQueue (d : Dev) : List Nat := (ctxsWhere d fun c => c.code == csWaiting && c.wait == .engine).foldl (queueIn d) []

/-- Waiting requests are given the units that have fallen idle (08 R231, R251; 09 R260; 10 R281; 16 R463). -/
def serveUnits (d : Dev) : Dev := (unitQueue d).foldl serveUnit d

/-- Requests for randomness that wait go on when the pool recovers or the DRBG serves again (16 R472). -/
def wakeEntropy (old d : Dev) : Dev :=
  if (old.ent.poolFailed && !d.ent.poolFailed) || (!drbgUp old && drbgUp d) then wakeWhere d fun c => c.wait == .entropy else d

/-- Every addressed store of the device in its canonical form, so that equal stores are equal data; what any of them holds stays. -/
def canon (d : Dev) : Dev :=
  { d with
    tenants := tabCanon {} d.tenants, host.pfMsix := tabCanon {} d.host.pfMsix, sch.ctxs := tabCanon {} d.sch.ctxs
    keys.root := tabCanon {} d.keys.root, keys.marks := tabCanon 0 d.keys.marks, keys.everUsed := tabCanon [] d.keys.everUsed
    vmp.groups := tabCanon {} d.vmp.groups, vmp.nodes := tabCanon 0 d.vmp.nodes, vmp.slots := tabCanon {} d.vmp.slots
    vmp.poison := tabCanon {} d.vmp.poison, ring.map := tabCanon {} d.ring.map, ring.peers := tabCanon {} d.ring.peers
    act.entries := tabCanon {} d.act.entries, act.stage := tabCanon {} d.act.stage, sen.hist := tabCanon {} d.sen.hist
    sen.invalidAt := tabCanon 0 d.sen.invalidAt }

/-- The tenant a RESET_TENANT names, where its parameters are at hand (04 R119). -/
def resetNames (c : Ctx) : Option Nat := (paramsOf c.entry (c.inputs.getD {})).map fun p => field p 0 2

/-- Whether a RESET_TENANT of tenant n fetched before number `no` is in flight. -/
def earlierReset (d : Dev) (n no : Nat) : Bool :=
  d.sch.ctxs.any fun p => isAdmin p.2 && p.2.code != csHeld && eOpcode p.2.entry == 0x0011 && resetNames p.2 == some n && decide (p.2.fetchNo < no)

/-- A context that holds a RESET_TENANT. -/
def holdsReset (d : Dev) (k : Nat) : Bool := ctxHeld (ctxOf d k) && eOpcode (ctxOf d k).entry == 0x0011

/-- The drain of tenant n under way. -/
def drainOf (d : Dev) (n : Nat) : Option Drain :=
  match (tn d n).drain with
  | some x => if holdsReset d x.ctx then some x else none
  | none => none

/-- Whether a RESET_TENANT of tenant n must wait: another is under way, or was fetched before it (04 R119). -/
def resetWaits (d : Dev) (n no : Nat) : Bool := (drainOf d n).isSome || earlierReset d n no

/-- A RESET_TENANT that waits its turn and whose turn has come (04 R119). -/
def turnCome (d : Dev) (c : Ctx) : Bool :=
  match c.wait with
  | .resetTurn n => !resetWaits d n c.fetchNo
  | _ => false

/-- RESET_TENANTs go on when their turn comes (04 R119). -/
def wakeTurns (d : Dev) : Dev := wakeWhere d (turnCome d)

/-- Contexts that left WAITING for a ready list in one step stand at its tail in ascending number (05 R125). -/
def orderWoken (old d : Dev) : Dev :=
  let woken := fun k : Nat => (ctxOf old k).code == csWaiting
  { d with sch.ready := d.sch.ready.map fun l => if (l.filter woken).length ≤ 1 then l else l.filter (fun k => !woken k) ++ (l.filter woken).foldl insertNat [] }

/-- What follows every meaning: engines and the DRBG serve those that wait for them, the stores take their canonical form, the edges settle. -/
def Dev.after (old d : Dev) : Dev := settle old (canon (orderWoken old (wakeTurns (wakeEntropy old (serveUnits d)))))

/-- The state after a meaning that left the device at `d`. -/
def State.after (s : State) (d : Dev) : State := { s with dev := Dev.after s.dev d }

/-- A meaning as a step of the device: the queue stays. -/
def State.onDev (s : State) (f : Dev → Dev) : Host.Outcome State Fault Refusal := .next (s.after (f s.dev))

end Sys2Proof.Machine
end

