-- ==== Sys2Proof/Machine/Alarms.lean ====
section
/-! DEFINITION. The sentinel's responses: logging, alarms, LOCK, ZEROISE (15 R443 to R448), with what they end: lock-mode grants (08 R252,
R253, R538), sessions, maintenance activities (18 R506), the ring membership; and fail-stop (17 R488). -/

namespace Sys2Proof.Machine

/-! ## Lock-mode grants ended (08 R252, R253) -/

/-- Whether a command asks for the tenant's locked lane: SFLAGS.USE_LOCK of SYM_CIPHER and AEAD (08 R251). -/
def usesLock (c : Ctx) : Bool :=
  (eOpcode c.entry == 0x2001 || eOpcode c.entry == 0x2002) &&
    (match paramsOf c.entry (c.inputs.getD {}) with
     | some p => bit (field p 0x0A 1) 0
     | none => false)

/-- The contexts of tenant n that rely on its grant and have not reached the lane. -/
def relying (d : Dev) (n : Nat) : List Nat := ctxsWhere d fun c => isOf n c && !writesHeld c && !c.engineBegun && usesLock c

/-- A lane returned to the pool with its key cleared. -/
def unlockLane (d : Dev) (lane : Nat) : Dev :=
  { d with eng.lanes := modifyAt d.eng.lanes lane fun l => { l with lockedBy := none, key := none } }

/-- The grant of tenant n taken back: its lane returns to the pool, GRANTED and REMAIN clear. -/
def endGrant (d : Dev) (n : Nat) : Dev :=
  match (tn d n).grant with
  | none => d
  | some g => modTn (unlockLane d g.lane) n fun t => { t with grant := none }

/-- Forced release of tenant n's grant (08 R253): tasks relying on it return LOCK_EXPIRED, FORCED and LOCK_ENDED are set. -/
def forceRelease (d : Dev) (n : Nat) : Dev :=
  match (tn d n).grant with
  | none => d
  | some _ =>
    let d1 := (relying d n).foldl (fun d k => endWith d k stLockExpired) d
    modTn (endGrant d1 n) n fun t => { t with forced := true, event := setBit t.event 1 }

/-- Tenant n's waiting lock request ended without a grant (08 R249, R538). -/
def refuseLock (d : Dev) (n : Nat) : Dev :=
  if (tn d n).lockReq then
    modTn { d with eng.lockQueue := d.eng.lockQueue.filter (· != n) } n fun t =>
      { t with lockReq := false, refused := true, event := setBit t.event 5 }
  else d

/-- Every grant and every waiting request ended (08 R252, R538). -/
def endAllLocks (d : Dev) : Dev :=
  (d.tenants.map Prod.fst).foldl (fun d n => refuseLock (forceRelease d n) n) d

/-! ## Leaving the ring at once (12 R349, R350, R354; 15 R445) -/

/-- RING_JOIN low and this member DETACHED: the view, the map and the keys agreed at join end with the membership (12 R348; log entry 14), and a vault
that it was formatting for the ring stays EMPTY. -/
def ringDown (d : Dev) : Dev :=
  { d with
    bay.ringJoin := false
    vmp.st := if d.ring.formatDue.isSome && d.vmp.st == 0x33 then 0x0F else d.vmp.st
    ring.config := if d.ring.nextConfig.isSome then d.ring.nextConfig else d.ring.config, ring.nextConfig := none
    ring.st := 0x0F, ring.epoch := 0, ring.present := 0, ring.acting := 0, ring.mapSeq := 0, ring.map := []
    ring.east.auth := false, ring.east.neighbour := 255, ring.east.replay := []
    ring.west.auth := false, ring.west.neighbour := 255, ring.west.replay := []
    ring.peers := [], ring.ringKey := none, ring.prevKey := none, ring.nextKey := none, ring.kemPriv := [], ring.frameCount := 0
    ring.mapEpoch := 0, ring.formatDue := none, ring.foundRing := false
    ring.locks := [], ring.grants := [], ring.leavers := [], ring.joiners := [], ring.suspects := []
    ring.loopProof := false, ring.proofHeld := false, ring.copying := [], ring.syncAsked := [], ring.syncOwed := []
    ring.gathered := [], ring.gatherLeft := [], ring.gatherCtx := none, ring.gatherDone := false, ring.waitAcks := [], ring.lostFrom := [] }

/-- The orderly removal's end once RING_JOIN is low: SAFE_TO_REMOVE, its entry, and the SHUTDOWNs that wait (02 R52; 18 R501); an FW_ACTIVATE is ready
to restart (18 R508). -/
def markSafe (d : Dev) : Dev :=
  if d.bay.drainKind = 2 then { d with bay.removal := .safe }
  else
    let d1 := submit { d with bay.removal := .safe, bay.safeToRemove := true, bay.safeAt := now d, bay.shutdownCtxs := [] } 0x0012 0 12 0xFFFE (natLe 1 2)
    d.bay.shutdownCtxs.foldl (fun d k => finishWith d k { bare stOk with result := fitTo 16 (natLe 8 (now d)) } true false) d1

/-- Leaving the ring without the ring's consent: commands this module forwarded have no holder (12 R366), those that arrived are dropped and
re-issued by their origins (12 R365); what waited for the ring goes on without it. -/
def leaveRing (d : Dev) : Dev :=
  if d.bay.ringJoin || d.ring.st != 0x0F then
    let d1 := (ctxsWhere d fun c => ctxHeld c && c.origin.isNone && c.sentTo.isSome).foldl (fun d k => endWith d k stKeyUnavailable) d
    let d2 := (ctxsWhere d1 isInbound).foldl freeCtx d1
    let d3 := (ctxsWhere d2 fun c => c.code == csWaiting && match c.wait with | .joinedAcks _ => true | _ => false).foldl
      (fun d k => finishWith d k ((ctxOf d k).held.getD (bare stInternalFault)) true false) (ringDown d2)
    let d4 := wakeWhere d3 fun c => match c.wait with
      | .holder => true | .transfer _ => true | .changeLock _ => true | .saveGather => true | _ => false
    { (ctxsWhere d4 fun c => c.code == csWaiting && c.wait == .ringLeave).foldl (fun d k => endWith d k stOk)
      (if d4.bay.removal = .leaving then markSafe d4 else d4) with ring.retry := false }
  else d

/-! ## The Frog's start (07 R206, R208) -/

/-- DRAW: a new memory key, and the sweep at working row 0; without randomness the Frog goes back to IDLE and tries each second. -/
def frogDraw (d : Dev) : Dev :=
  let d1 := drbgBefore false d
  if drbgUp d1 then
    let r := draw d1 32
    let d2 := r.2
    { d2 with vmp.frog := 0x55, vmp.oldKey := d2.vmp.memKey, vmp.memKey := some r.1, vmp.row := 0, vmp.sweepTime := now d2,
              vmp.sweepAt := some (now d2), vmp.drawRetry := false }
  else { d1 with vmp.frog := 0x0F, vmp.drawRetry := true }

/-- Whether a module-scope handler holds the VMP (07 R208). -/
def vmpHeld (d : Dev) : Bool := match (d.flt.scopes.getD 3 {}).current with | some x => x.info.object == 9 | none => false

/-- A trigger with FROG_STATE IDLE and the vault READY starts a sweep; otherwise it starts nothing (07 R206). -/
def frogTrigger (d : Dev) : Dev :=
  if d.vmp.frog = 0x0F ∧ d.vmp.st = 0x96 ∧ !vmpHeld d then frogDraw { d with vmp.frog := 0x33 } else d

/-- Whether an activity in the slot makes a periodic sweep wait: FW_ACTIVATE, FUSE_DISABLE, SELF_TEST (18 R504). -/
def sweepHeldBack (d : Dev) : Bool :=
  [d.mnt.occupant, d.mnt.companion].any fun x => match x with | some a => a.code == 2 || a.code == 5 || a.code == 7 | none => false

/-- A periodic sweep that waited starts once nothing holds it back (18 R504). -/
def resumeSweep (d : Dev) : Dev :=
  if d.vmp.sweepWaits && !sweepHeldBack d then frogTrigger { d with vmp.sweepWaits := false } else d

/-! ## Maintenance activities ended (18 R503, R506, R515) -/

/-- The log entry of an activity's end or start (15 R454 TYPE 0x0025). -/
def logActivity (d : Dev) (a : Activity) (start : Bool) : Dev :=
  submit d 0x0025 0 4 0xFFFE
    (natLe 1 a.code ++ natLe 1 (if start then 0 else 1) ++ natLe 1 a.st ++ natLe 2 a.status ++ natLe 4 a.detail)

/-- An activity as it ended: whole where it is done, else its DONE is a free value up to TOTAL (log entry 4). -/
def endedActivity (d : Dev) (a : Activity) (st status detail : Nat) : Activity :=
  { a with st, status, detail, done' := if st = 3 then a.total else Config.freeNat 9 (8 * a.started + a.code) % (a.total + 1), ended := now d, image := none }

/-- The activity of a code in the slot. -/
def activityOf (d : Dev) (code : Nat) : Option Activity :=
  match d.mnt.occupant, d.mnt.companion with
  | some a, some b => if a.code = code then some a else if b.code = code then some b else none
  | some a, none => if a.code = code then some a else none
  | none, _ => none

/-- The slot without the activity of a code: a companion becomes the occupant (18 R503). -/
def vacate (d : Dev) (code : Nat) : Dev :=
  match d.mnt.occupant with
  | none => d
  | some a =>
    if a.code = code then { d with mnt.occupant := d.mnt.companion, mnt.companion := none }
    else match d.mnt.companion with
      | some b => if b.code = code then { d with mnt.companion := none } else d
      | none => d

/-- An activity ends: out of the slot, last to end, logged (18 R503, R506, R515). -/
def endActivity (d : Dev) (code st status detail : Nat) : Dev :=
  match activityOf d code with
  | none => d
  | some a =>
    let e := endedActivity d a st status detail
    resumeSweep (logActivity { vacate d code with mnt.last := e } e false)

/-- Fetching on tenant queue pairs resumes and the removal flags clear (18 R501, R508). -/
def resumeService (d : Dev) : Dev :=
  { d with bay.removal := .idle, bay.removalPending := false, bay.safeToRemove := false, bay.drainKind := 0 }

/-- The STATUS of an activity that failed or was stopped, where the manual states none: a free value (log entry 4). -/
def openStatus (code st : Nat) : Nat := Config.freeNat 5 (8 * code + st) % 2 ^ 16

/-- The named sources whose fuses are programmed when a FUSE_DISABLE is stopped: the first of them in rising order, at least one; how many is a
free value (18 R516; log entries 4, 35). -/
def fusesDone (mask at' : Nat) : List Nat :=
  let named := (List.range 5).filter (bit mask)
  named.take (1 + Config.freeNat 6 at' % named.length)

/-- Fuses of sources programmed full and logged (15 R442). -/
def programFuses (d : Dev) (l : List Nat) : Dev :=
  submit { d with otp.tamperFuses := (List.range 5).map fun j => if l.contains j then 15 else d.otp.tamperFuses.getD j 0 } 0x0024 0 12 0xFFFE
    (natLe 1 (l.foldl setBit 0))

/-- MAINT_STOP of one activity (18 R516), by its code. -/
def stopActivity (d : Dev) (code : Nat) : Dev :=
  match activityOf d code with
  | none => d
  | some a =>
    let d1 := match code with
      | 1 => if d.mnt.runningB then { d with mnt.slotA := none } else { d with mnt.slotB := none }
      | 2 =>
        let d2 := { d with mnt.trial := false }
        if d.bay.drainKind = 2 then resumeService d2 else d2
      | 4 => { d with vmp.sweepHosted := false, vmp.sweepRate := d.vmp.frogRate }
      | 5 => programFuses d (fusesDone a.arg a.started)
      | _ => d
    endActivity d1 code 5 (openStatus code 5) (if code = 5 then (fusesDone a.arg a.started).foldl setBit 0 else a.detail)

/-! ## The vault emptied -/

/-- The vault EMPTY, with nothing of its contents or structures left (15 R444 step 4). -/
def emptyVault (d : Dev) : Dev :=
  { d with
    glb.vaultLoaded := false
    vmp.st := 0x0F, vmp.frog := 0x0F, vmp.mirrored := false, vmp.degraded := false, vmp.channels := 0, vmp.n := 0
    vmp.memKey := none, vmp.oldKey := none, vmp.row := 0, vmp.groups := [], vmp.nodes := [], vmp.cache := [], vmp.frozenNodes := []
    vmp.slots := [], vmp.tombs := [], vmp.loadTombs := [], vmp.acceptStale := false, vmp.sweepAt := none, vmp.sweepHosted := false
    vmp.drawRetry := false, vmp.sweepWaits := false, vmp.frozenCount := 0, vmp.poison := [], vmp.report := [], keys.cache := [] }

/-! ## Sessions ended -/

/-- A custody entry of the log: kind 0 card inserted, 1 card removed, 2 enrolment or policy change, 3 session opened, 4 session closed
(15 R454 TYPE 0x0022; packing: log entry 16). -/
def logCustody (d : Dev) (kind : Nat) (data : Bytes) : Dev := submit d 0x0022 0 13 0xFFFF (natLe 1 kind ++ data)

/-- A session closed: its slot is free; SESSION_CLOSED unless it was consumed (14 R410, R418). -/
def closeSession (d : Dev) (j : Nat) (consumed : Bool) : Dev :=
  logCustody { d with
    lcd.sessions := modifyAt d.lcd.sessions j fun _ => {}
    lcd.event := if consumed then d.lcd.event else setBit d.lcd.event 1
    lcd.unlockSession := if d.lcd.unlockSession = some j then none else d.lcd.unlockSession } 4 (natLe 1 j ++ natLe 1 (if consumed then 1 else 0))

/-- The sessions that are not FREE. -/
def openSessions (d : Dev) : List Nat :=
  (d.lcd.sessions.zipIdx.filter fun p => p.1.code != 0x0F).map Prod.snd

/-- Every approval session closed; an unlock session is one of them (14 R410). -/
def closeSessions (d : Dev) : Dev := (openSessions d).foldl (fun d j => closeSession d j false) d

/-- A component session ended without a key: nothing is left and the abort is logged (06 R163). -/
def abortComponent (d : Dev) (n : Nat) : Dev :=
  match (tn d n).component with
  | none => d
  | some s => submit (modTn d n fun t => { t with component := none }) 0x0031 0 8 n (natLe 1 2 ++ natLe 8 s.handle)

/-- Component, approval, token and ROOT_INIT sessions ended (15 R444 step 3). -/
def endSessions (d : Dev) : Dev :=
  let d1 := closeSessions d
  (d1.tenants.map Prod.fst).foldl abortComponent { d1 with lcd.token := none, lcd.rootInit := none }

/-- Every key register on the key bus cleared (15 R444 step 2, 17 R488 step 3). -/
def clearKeys (d : Dev) : Dev :=
  { d with
    vmp.memKey := none, vmp.oldKey := none, keys.maskKey := none, keys.tagKey := none, keys.cache := []
    eng.lanes := d.eng.lanes.map fun l => { l with key := none }
    ring.peers := d.ring.peers.foldl (fun tab p => tabPut {} tab p.1 { p.2 with pairKey := none }) d.ring.peers
    ring.ringKey := none, ring.prevKey := none, ring.kemPriv := [], ent.seeded := false }

/-! ## Logging and the keeper buffer -/

/-- Whether the event log can be written: the fabric runs (15 R447, R449). -/
def logUp (d : Dev) : Bool := d.bay.fabric

/-- A record in the keeper buffer (15 R448): entries 0 to 30 in order, entry 31 the latest, with the overwritten counted. -/
def keeperRecord (d : Dev) (kind source cls : Nat) : Dev :=
  let r : KeeperRec := { time := now d, kind, source, cls }
  if d.keeper.buffer.length < 32 then { d with keeper.buffer := d.keeper.buffer ++ [r] }
  else { d with keeper.buffer := d.keeper.buffer.take 31 ++ [r], keeper.overwritten := holdAt 24 (d.keeper.overwritten + 1) }

/-- An event of the keeper domain: into the log under its type while the log can be written, else into the buffer (15 R447, R449). -/
def keeperEvent (d : Dev) (kind : Nat) (logged : Dev → Dev) : Dev := if logUp d then logged d else keeperRecord d kind 0xFF 0

/-- Log entries of the sled: cell (0 removed, 1 fitted, 2 low, 3 unrecognised), power and thermal, removal (0 attention press, 1 abort, 2 safe to
remove, 3 surprise) and attachments (0 changed, 1 failed its checks) (15 R454; packing: log entry 16). -/
def logCell (d : Dev) (event serial : Nat) : Dev := submit d 0x0011 0 12 0xFFFE (natLe 1 event ++ natLe 8 serial)
def logPower (d : Dev) (event : Nat) (data : Bytes) : Dev := submit d 0x0010 0 12 0xFFFE (natLe 1 event ++ data)
def logRemoval (d : Dev) (event : Nat) : Dev := submit d 0x0012 0 12 0xFFFE (natLe 1 event)
def logAttach (d : Dev) (part event : Nat) (data : Bytes) : Dev := submit d 0x0013 0 12 0xFFFE (natLe 1 part ++ natLe 1 event ++ data)

/-- A fault entry (17 R486), with FLAGS.OVERLAP where R485 sets it. -/
def logFault (d : Dev) (source fn : Nat) (scope cause action unit object causedBy detail : Nat) (overlap : Bool) : Dev :=
  { d with sen.submitted := d.sen.submitted ++
      [{ time := now d, type := 0x0040, flags := (if d.keeper.timeLost then 8 else 0) + flag overlap 0, source, fn,
         data := natLe 1 scope ++ natLe 1 cause ++ natLe 1 action ++ natLe 1 unit ++ natLe 4 object ++ natLe 8 causedBy ++ natLe 8 detail }] }

/-! ## LOCK (15 R445) -/

/-- The activities that an entry to LOCKED stops (18 R506): FW_ACTIVATE, FUSE_DISABLE, SELF_TEST. -/
def stopOnLock (d : Dev) : Dev := stopActivity (stopActivity (stopActivity d 2) 5) 7

/-- What entering LOCKED ends: grants and lock requests, commands that have not loaded their keys, the ring membership. -/
def lockEnds (d : Dev) : Dev :=
  let d1 := endAllLocks d
  let d2 := (ctxsWhere d1 fun c => ctxHeld c && c.origin.isNone && !writesHeld c && !c.engineBegun).foldl
    (fun d k => endWith d k stLocked) d1
  leaveRing (stopOnLock d2)

/-- The keeper's latch with the value that set LOCKED (15 R445). -/
def latchWith (d : Dev) (cause : Nat) : Dev := { d with keeper.latch := true, keeper.latchCause := cause }

/-- The module enters LOCKED; in ANALYSIS, BOUND_OFF and INVALID it never does (15 R432, R445). -/
def enterLocked (d : Dev) (cause : Nat) : Dev :=
  if neverLocked d then d
  else if d.glb.locked then latchWith d (if d.keeper.latch then d.keeper.latchCause else cause)
  else lockEnds { latchWith d cause with glb.locked := true, sen.lockCause := cause }

/-! ## ZEROISE (15 R444) -/

/-- The keeper's part: both cell sets and the share pointer cleared, the zeroised flag set. -/
def zeroiseKeeper (d : Dev) : Dev :=
  { d with keeper.cells0 := none, keeper.cells1 := none, keeper.cellSet := false, keeper.sense := false, keeper.zeroised := true }

/-- Steps 1 to 4 of a zeroisation. -/
def zeroiseSteps (d : Dev) : Dev :=
  let d1 := if (activityOf d 4).isSome then endActivity d 4 4 (openStatus 4 4) 0 else d
  let d2 := { emptyVault (endSessions (clearKeys (zeroiseKeeper d1))) with glb.rootOk := false }
  { d2 with sen.event := setBit d2.sen.event 2 }

/-- A zeroisation, ending in LOCKED. -/
def zeroise (d : Dev) (cause : Nat) : Dev := enterLocked (zeroiseSteps d) cause

/-! ## Alarms (15 R443, R446) -/

def clsW : Nat := 1
def clsL : Nat := 2
def clsZ : Nat := 3

/-- Whether a source is disabled by its fuse (15 R442): the bezel switch 5 and the external loops 6 to 9. -/
def sourceDisabled (d : Dev) (src : Nat) : Bool :=
  decide (5 ≤ src) && decide (src ≤ 9) && decide (d.otp.tamperFuses.getD (src - 5) 0 ≠ 0)

/-- The class of a source (15 R437, R438): SEN_CLASS for the bezel switch and the loops. -/
def sourceClass (d : Dev) (src : Nat) : Nat :=
  if src ≤ 4 then clsZ else if src ≤ 9 then d.sen.cls.getD (src - 5) clsL else if src = 16 ∨ src = 17 then clsL else clsW

/-- The response level's code after an alarm of a class (15 R446, R460). -/
def raiseLevel (level cls : Nat) : Nat :=
  if cls = clsZ then 0x55 else if cls = clsL ∧ level = 0x0F then 0x33 else level

/-- The response level as alarm entries report it: 0 NONE, 1 LOCK, 2 ZEROISE. -/
def levelNo (code : Nat) : Nat := if code = 0x55 then 2 else if code = 0x33 then 1 else 0

/-- The log or keeper-buffer record of an alarm (15 R447, R454). -/
def recordAlarm (d : Dev) (src cls level count : Nat) (measured : Int) (flags : Nat) : Dev :=
  if logUp d then
    { d with sen.submitted := d.sen.submitted ++
        [{ time := now d, type := 0x0001, cls, flags := flags + (if d.keeper.timeLost then 8 else 0), source := src,
           data := fitTo 24 (natLe 1 level ++ natLe 4 count ++ natLe 4 (signed 32 measured)) }],
             sen.event := setBit d.sen.event 0 }
  else keeperRecord d 0 src cls

/-- The response to a class with the fabric running (15 R443), and its response-complete entry (15 R454 TYPE 0x0003). -/
def respond (d : Dev) (src cls : Nat) : Dev :=
  if cls = clsZ then
    submit { zeroise d src with sen.response := 0x55 } 0x0003 0 12 0xFFFE
      (natLe 1 2 ++ natLe 4 (Config.freeNat 3 d.sen.nextSeq % 2 ^ 32))
  else if cls = clsL then
    if d.glb.locked then { enterLocked d src with sen.response := raiseLevel d.sen.response cls }
    else submit { enterLocked d src with sen.response := raiseLevel d.sen.response cls } 0x0003 0 12 0xFFFE
      (natLe 1 1 ++ natLe 4 (Config.freeNat 3 d.sen.nextSeq % 2 ^ 32))
  else d

/-- The keeper's own response without main power (15 R447). -/
def keeperRespond (d : Dev) (src cls : Nat) : Dev :=
  if cls = clsZ then zeroiseKeeper d
  else if cls = clsL then (if d.keeper.latch then d else latchWith d src) else d

/-- An alarm of a source (15 R443, R446, R447): recorded, latched in SEN_LATCHED, answered. -/
def alarm (d : Dev) (src cls count : Nat) (measured : Int) : Dev :=
  let d1 := recordAlarm d src cls (levelNo (raiseLevel d.sen.response cls)) count measured 0
  if d.bay.fabric then respond { d1 with sen.latched := setBit d1.sen.latched src } src cls
  else keeperRespond d1 src cls

/-- An undefined code read in a critical state machine (15 R450): source 16, at most once per machine per millisecond. -/
def invalidCode (d : Dev) (machine code cls : Nat) : Dev :=
  let last := tabGet 0 d.sen.invalidAt machine
  if last ≠ 0 ∧ now d < last - 1 + 1000 then d
  else
    let d1 := { d with sen.invalidAt := tabPut 0 d.sen.invalidAt machine (now d + 1) }
    let d2 := if logUp d1 then
        { submit d1 0x0001 cls 16 0xFFFE (natLe 1 (levelNo (raiseLevel d.sen.response cls)) ++ zeroBytes 8 ++ natLe 1 machine ++ natLe 1 code)
            with sen.event := setBit d1.sen.event 0 }
      else keeperRecord d1 0 16 cls
    respond { d2 with sen.latched := setBit d2.sen.latched 16 } 16 cls

/-! ## The log written (15 R451, R456) -/

/-- A submitted entry appended, or lost when the log has no room for it; the first lost reserve entry locks the module (15 R456). -/
def append (d : Dev) (e : LogEntry) : Dev :=
  if logRefuses d e.type then
    if logReserve e.type && !d.glb.locked then enterLocked (lose d) 0xFE else lose d
  else place d e

/-- Every submitted entry appended, in order of submission: what a command does that logs before it completes. -/
def drainLog (d : Dev) : Dev :=
  d.sen.submitted.foldl append { d with sen.submitted := [] }

/-! ## Fail-stop (17 R488) -/

/-- Every fetched command without a completion ends with DEVICE_FAULT; commands that arrived from other members are dropped. -/
def failAllCommands (d : Dev) : Dev :=
  let d1 := (ctxsWhere d isInbound).foldl freeCtx d
  if d.flt.qmFailed then d1
  else (ctxsWhere d1 ctxHeld).foldl (fun d k => endWith d k stDeviceFault) d1

/-- The update of the access table under way, if any, discarded, and the table STOPPED (13 R392). -/
def stopTable (d : Dev) : Dev := { d with act.st := 0xF0, act.stage := d.act.entries, act.claim := none }

/-- The steps of fail-stop (17 R488), without its log entry. -/
def failStop (d : Dev) : Dev :=
  let d1 := { d with glb.failStop := true, host.reads := [] }
  let d2 := ringDown (endAllLocks (endSessions (clearKeys d1)))
  let d3 := emit (failAllCommands d2) .aerInternal
  { stopTable d3 with bay.safeToRemove := true, mnt.occupant := none, mnt.companion := none }

end Sys2Proof.Machine
end

