-- ==== Sys2Proof/Machine/FaultOps.lean ====
section
/-! DEFINITION. Faults raised, queued, merged and passed up (17 R477 to R479, R484 to R486): the shared operation of every fault, and the end
of a handling. -/

namespace Sys2Proof.Machine

/-- The slot of a scope. -/
def scopeOf (d : Dev) (s : Nat) : Scope := d.flt.scopes.getD s {}
/-- The slot of a scope replaced. -/
def setScope (d : Dev) (s : Nat) (x : Scope) : Dev := { d with flt.scopes := modifyAt d.flt.scopes s fun _ => x }

/-- The SEQ that the next entry submitted will take. -/
def nextEntrySeq (d : Dev) : Nat := d.sen.nextSeq + d.sen.submitted.length

/-- FUNCTION of a fault entry: the tenant number, 0xFFFE for none (R486). -/
def faultFn (d : Dev) (f : FaultInfo) : Nat :=
  if f.scope = 1 then f.object
  else if f.scope = 0 then match (ctxOf d f.object).fn with | .vf n => n | .pf => 0xFFFE
  else 0xFFFE

/-- The entry of a fault at the end of its handling (R486). -/
def logHeld (d : Dev) (x : HeldFault) (action : Nat) : Dev :=
  logFault d x.info.subsystem (faultFn d x.info) x.info.scope x.info.cause action x.info.unit x.info.object x.causedBy x.info.detail x.overlap

/-- The object a fault has at the next scope (R477). -/
def nextObject (d : Dev) (f : FaultInfo) : Nat :=
  if f.scope = 0 then (match (ctxOf d f.object).fn with | .vf n => n | .pf => f.subsystem) else if f.scope = 2 then 15 else f.subsystem

/-- The next scope of a fault; a command of no tenant goes past the tenant scope. -/
def nextScope (d : Dev) (f : FaultInfo) : Nat :=
  match f.scope with
  | 0 => if (ctxOf d f.object).fn == .pf then 3 else 1
  | 3 => 4
  | _ => 3

/-- The module fail-stops for a fault: the steps of R488, then the entry. -/
def failStopFor (d : Dev) (x : HeldFault) : Dev :=
  let d1 := failStop { d with flt.qmFailed := x.info.object == 2 && x.info.scope == 3 }
  drainLog (logFault d1 x.info.subsystem 0xFFFE 4 x.info.cause 8 0xFF x.info.object x.causedBy x.info.detail x.overlap)

/-- Whether the handling that runs at a higher scope covers a fault's object (R479). -/
def covered (d : Dev) (f : FaultInfo) : Bool :=
  (f.scope == 0 && match (scopeOf d 1).current with | some x => (ctxOf d f.object).fn == .vf x.info.object | none => false) ||
    (decide (f.scope < 3) && match (scopeOf d 3).current with | some x => x.info.object == f.subsystem | none => false)

/-- A scope takes up a fault: at tenant scope STATE reads 0b11 and the tenant's entries are fetched no more (R481 step 1). -/
def takeUp (d : Dev) (s : Nat) (x : HeldFault) (waiting : List HeldFault) : Dev :=
  let d1 := setScope d s { current := some x, waiting }
  if s = 1 then
    modTn { d1 with host.reads := d1.host.reads.filter fun r => r.fn != .vf x.info.object } x.info.object fun t => { t with st := 3 }
  else d1

/-- A fault put in the care of its scope: merged, taken up, queued, or at 16 pending raised one scope up; `fuel` counts the scopes left. -/
def placeFault : (fuel : Nat) → HeldFault → Dev → Dev
  | 0, x, d => failStopFor d x
  | n + 1, x, d =>
    let s := x.info.scope
    let slot := scopeOf d s
    if 3 < s then failStopFor d x
    else if covered d x.info then
      let d1 := logHeld d { x with overlap := true } (if s = 0 then 1 else 0)
      if s = 0 && ctxHeld (ctxOf d1 x.info.object) then endWith d1 x.info.object stInternalFault else d1
    else if slot.current.isNone then takeUp d s x slot.waiting
    else if slot.waiting.length < 16 then setScope d s { slot with waiting := slot.waiting ++ [x] }
    else
      let seq := nextEntrySeq d
      let d1 := logHeld d x 7
      placeFault n { info := { x.info with scope := nextScope d x.info, cause := 0x0E, object := nextObject d x.info, unit := 0xFF, detail := 0 },
                     causedBy := seq, below := x.info :: x.below } d1

/-- The oldest pending fault of a scope taken up. -/
def nextFault (d : Dev) (s : Nat) : Dev :=
  match (scopeOf d s).waiting with
  | [] => setScope d s {}
  | x :: l => takeUp d s x l

/-- The fault in a scope's care passed up with the new fault `f` raised at scope `target`; FLAGS.OVERLAP on both entries (R484, R485). -/
def passUp (d : Dev) (s target : Nat) (f : FaultInfo) : Dev :=
  match (scopeOf d s).current with
  | none => placeFault 5 { info := { f with scope := target } } d
  | some x =>
    let seq := nextEntrySeq d
    let d1 := nextFault (logHeld d { x with overlap := true } 7) s
    let y : HeldFault := { info := { f with scope := target }, causedBy := seq, overlap := true, below := x.info :: x.below }
    if 3 < target then failStopFor d1 y else placeFault 5 y d1

/-- Command-scope faults of a tenant within the last second, and whether this one is the eighth (R477). -/
def countFault (d : Dev) (f : FaultInfo) : Dev × Bool :=
  match f.scope, (ctxOf d f.object).fn with
  | 0, .vf n =>
    let l := ((tn d n).faultTimes.filter fun t => decide (now d < t + 1000000)) ++ [now d]
    if 8 ≤ l.length then (modTn d n fun t => { t with faultTimes := [] }, true) else (modTn d n fun t => { t with faultTimes := l }, false)
  | _, _ => (d, false)

/-- The handling a fault lies inside: the one whose own work met it, or the one whose object it arose in (R484; log entry 51). -/
def insideOf (d : Dev) (f : FaultInfo) : Option (Nat × HeldFault) :=
  match f.inHandler.bind fun s => (scopeOf d s).current.map fun x => (s, x) with
  | some p => some p
  | none => match (scopeOf d f.scope).current with
    | some x => if x.info.object == f.object && f.scope != 2 && (f.scope != 3 || x.info.unit == f.unit) then some (f.scope, x) else none
    | none => none

/-- A fault detected (R477 to R479, R484). -/
def raiseFault (f : FaultInfo) (d : Dev) : Dev :=
  if d.glb.failStop || !d.bay.fabric then d
  else match insideOf d f with
  | some (s, x) => passUp d s (max (nextScope d x.info) f.scope) f
  | none =>
    let c := countFault d f
    let d1 := placeFault 5 { info := f } c.1
    match c.2, (ctxOf d f.object).fn with
    | true, .vf n => placeFault 5 { info := { scope := 1, cause := 0x0F, subsystem := f.subsystem, unit := 0xFF, object := n, detail := 0, inHandler := none } } d1
    | _, _ => d1

/-- What a handling that ends completes for the lower faults it took over: their commands end, their tenants are released (R484). -/
def endBelow (d : Dev) (l : List FaultInfo) : Dev :=
  l.foldl (fun d f =>
    if f.scope = 0 then (if ctxHeld (ctxOf d f.object) then endWith d f.object stInternalFault else d)
    else if f.scope = 1 then modTn d f.object fun t => { t with st := if t.st = 3 then 0 else t.st }
    else d) d

/-- A handling ends: its entry with the action, what it took over completed, the next fault of the scope taken up (R486); what waited for the VMP that
it held goes on (07 R208). -/
def endHandling (d : Dev) (s action : Nat) : Dev :=
  match (scopeOf d s).current with
  | none => d
  | some x =>
    let d1 := endBelow (nextFault (logHeld d x action) s) x.below
    if s = 3 && x.info.object == 9 then wakeWhere d1 fun c => c.wait == .repair else d1

/-- A ring-scope fault of this member: cause 8 integrity, 9 protocol (R477, R486). -/
def ringFault (cause member : Nat) (d : Dev) : Dev :=
  raiseFault { scope := 2, cause, subsystem := 15, unit := 0xFF, object := member, detail := 0, inHandler := none } d

end Sys2Proof.Machine
end

