-- ==== Sys2Proof/Machine/VaultLines.lean ====
section
/-! DEFINITION. Vault lines (07): regions, counter blocks, the Skein cache, writes of a data line, rolls and freezes, and the start of a Frog
sweep. Line contents, tags and node tags are functions of the records, the memory keys and these counters, and are not stored (log entry 15). -/

namespace Sys2Proof.Machine

/-- Data lines D, groups G and record slots of a vault of N logical lines (07 R192, R194). -/
def dataLines (n : Nat) : Nat := 7 * n / 8
def groupCount (n : Nat) : Nat := 7 * n / 512
def slotCount (n : Nat) : Nat := 217 * n / 512
/-- First logical line of the tag region, the counter region and Skein level k, and the nodes of level k (07 R192). Levels 1 to 6 lie in the vault, in
whole numbers of nodes; levels 7 to 9 lie on the die. -/
def tagBase (n : Nat) : Nat := dataLines n
def counterBase (n : Nat) : Nat := dataLines n + 7 * n / 64
def levelNodes (n k : Nat) : Nat := (7 * n + (2 ^ (9 + 3 * k) - 1)) / 2 ^ (9 + 3 * k)
def levelBase (n : Nat) : Nat → Nat
  | 0 => counterBase n
  | 1 => counterBase n + groupCount n
  | k + 2 => levelBase n (k + 1) + levelNodes n (k + 1)
/-- First line of the region that is not used; it runs to N − 1 (07 R192). -/
def unusedBase (n : Nat) : Nat := levelBase n 7

/-- The tag line, counter line and level-k line of data line d (07 R193). -/
def tagLine (n d : Nat) : Nat := tagBase n + d / 8
def counterLine (n d : Nat) : Nat := counterBase n + d / 64
def nodeIndex (d k : Nat) : Nat := d / 64 / 8 ^ k
def nodeLine (n d k : Nat) : Nat := levelBase n k + nodeIndex d k

/-- Entry line i of the two copies of the handle index (07 R194), and the entry line of a record slot: 31 slots to a line, which fills the area
exactly (the organisation is the module's own: log entry 91). -/
def indexA (n i : Nat) : Nat := 217 * n / 256 + i
def indexB (n i : Nat) : Nat := 441 * n / 512 + (i ^^^ 1)
def indexEntry (slot : Nat) : Nat := slot / 31

/-- The channels that hold a logical line, and its line address on their DIMMs (07 R191). -/
def lineHome (d : Dev) (l : Nat) : List Nat × Nat :=
  if d.vmp.mirrored then
    if d.vmp.dimmCount = 4 then ([2 * (l % 2), 2 * (l % 2) + 1], l / 2) else ([0, 1], l)
  else if d.vmp.dimmCount = 4 then ([l % 4], l / 4) else ([l % 2], l / 2)

/-- The counter block of group c. -/
def groupOf (d : Dev) (c : Nat) : Group := tabGet {} d.vmp.groups c
/-- A counter block replaced. -/
def setGroup (d : Dev) (c : Nat) (g : Group) : Dev := { d with vmp.groups := tabPut {} d.vmp.groups c g }

/-! ## The Skein cache (07 R200) -/

/-- The number under which a node is kept: its level and index. -/
def nodeKey (k i : Nat) : Nat := k * 2 ^ 32 + i
/-- Nodes of levels 1 to 3 the cache has room for. -/
def cacheRoom (n : Nat) : Nat := 131072 - (levelNodes n 4 + levelNodes n 5 + levelNodes n 6)

/-- A node of levels 1 to 3 used: brought to the front of the cache, its ancestors first; when the cache is full the least recently used
leaves, and a changed one raises its counter in its parent (07 R200; log entry 15). A counter at its limit freezes the node's range (17 R491). -/
def useNode : (fuel : Nat) → (k i dirty : Nat) → Dev → Dev
  | 0, _, _, _, d => d
  | f + 1, k, i, dirty, d =>
    if 3 < k then d
    else
      let key := nodeKey k i
      let was := (d.vmp.cache.lookup key)
      let d1 := if was.isSome then d else useNode f (k + 1) (i / 8) 0 d
      let c := (key, max (was.getD 0) dirty) :: d1.vmp.cache.filter (·.1 != key)
      if c.length ≤ cacheRoom d1.vmp.n then { d1 with vmp.cache := c }
      else
        let d2 := { d1 with vmp.cache := c.dropLast }
        match c.getLast? with
        | some (out, 1) =>
          if tabGet 0 d2.vmp.nodes out + 1 < 2 ^ 56 then
            useNode f (out / 2 ^ 32 + 1) (out % 2 ^ 32 / 8) 1
              { d2 with vmp.nodes := tabPut 0 d2.vmp.nodes out (tabGet 0 d2.vmp.nodes out + 1) }
          else { d2 with vmp.frozenNodes := insertNat d2.vmp.frozenNodes out }
        | _ => d2

/-! ## Poisoned units (07 R212 to R217) -/

/-- A vault entry of the log: its kind (1 load ended, 2 component abort, 3 poison opened, 4 poison closed, 5 chain dropped, 6 population)
and its data (15 R454 TYPE 0x0031; packing: log entry 16). -/
def logVault (d : Dev) (kind : Nat) (data : Bytes) : Dev := submit d 0x0031 0 9 0xFFFE (natLe 1 kind ++ data)

/-- Data lines of a poison entry, by its LEVEL (07 R212, R216). -/
def poisonLines (n level : Nat) : Nat :=
  if level = 0xE then 2 else if level = 0xF then 1 else if level = 0xD then 8 else if level = 0xC then dataLines n else 64 * 8 ^ level

/-- Whether a data line lies in the unit of a poison entry. -/
def inUnit (n : Nat) (p : Poison) (l : Nat) : Bool := decide (p.first ≤ l) && decide (l < p.first + poisonLines n p.level)

/-- Whether the copy of a parity serves: no channel of that parity is offline (07 R191, R216). -/
def copyUp (d : Dev) (parity : Nat) : Bool := !bit d.vmp.chanDown parity && !bit d.vmp.chanDown (parity + 2)

/-- Whether the other copy of a poisoned unit serves it: mirrored mode, only one copy failed, and the other's channels are up (07 R213, R214). -/
def mirrorServes (d : Dev) (p : Poison) : Bool :=
  d.vmp.mirrored && (p.copies == 1 && copyUp d 1 || p.copies == 2 && copyUp d 0)

/-- Whether the unit of a poison entry stands under repair with no copy that serves it. -/
def unitLost (d : Dev) (p : Poison) : Bool := p.outcome == 0 && !mirrorServes d p

/-- Whether a data line lies in a unit under repair that no copy serves. -/
def lineLost (d : Dev) (l : Nat) : Bool := d.vmp.poison.any fun e => unitLost d e.2 && inUnit d.vmp.n e.2 l

/-- Whether both copies of a slot's index line are lost (07 R213 step 2). -/
def indexLost (d : Dev) (slot : Nat) : Bool :=
  lineLost d (indexA d.vmp.n (indexEntry slot)) && lineLost d (indexB d.vmp.n (indexEntry slot))

/-- Entries still open: neither repaired nor resolved nor empty (07 R217). -/
def poisonOpenCount (d : Dev) : Nat := (d.vmp.poison.filter fun e => e.2.outcome == 0 || e.2.outcome == 3).length

/-- A handle leaves the poison report; its entry closes as resolved when none of its handles is left (07 R213, R226). -/
def unreport (d : Dev) (head : Nat) : Dev :=
  match d.vmp.report.find? (·.1 == head) with
  | none => d
  | some (_, e) =>
    let report := d.vmp.report.filter (·.1 != head)
    let left := (report.filter fun x => x.2 == e).length
    let p := tabGet {} d.vmp.poison e
    let p1 := { p with handles := holdAt 16 left, outcome := if left = 0 then 4 else p.outcome }
    let d1 := { d with vmp.report := report, vmp.poison := tabPut {} d.vmp.poison e p1 }
    if left = 0 then
      logVault { d1 with vmp.event := setBit d1.vmp.event 1 } 4 (natLe 1 e ++ natLe 1 4) else d1

/-! ## Reading and writing a data line (07 R200 to R205) -/

/-- A data line read: the level-1 node of its path is used (07 R200). -/
def readPath (d : Dev) (l : Nat) : Dev := useNode 8 1 (l / 64 / 8) 0 d

/-- A group frozen: FROZEN set, counted, an event, and a sweep triggered at once (07 R205). -/
def freezeGroup (d : Dev) (c : Nat) : Dev :=
  let d1 := setGroup d c { groupOf d c with frozen := true }
  frogTrigger { d1 with vmp.frozenCount := holdAt 32 (d1.vmp.frozenCount + 1), vmp.event := setBit d1.vmp.event 3 }

/-- A group rolled over (07 R204). -/
def rollGroup (d : Dev) (c : Nat) : Dev :=
  let d1 := setGroup d c { groupOf d c with major := (groupOf d c).major + 1, minors := [] }
  { d1 with vmp.minorRolls := wrapAt 64 (d1.vmp.minorRolls + 1) }

/-- Whether a group lies in the range of a node frozen at its counter's limit (17 R491). -/
def nodeFrozen (d : Dev) (c : Nat) : Bool := [1, 2, 3, 4, 5, 6].any fun k => d.vmp.frozenNodes.contains (nodeKey k (c / 8 ^ k))

/-- The path of group c written: its level-1 node changed; a node that freezes on the way starts a sweep at once (17 R491). -/
def dirtyPath (d : Dev) (c : Nat) : Dev :=
  let d1 := useNode 8 1 (c / 8) 1 d
  if d1.vmp.frozenNodes.length = d.vmp.frozenNodes.length then d1 else frogTrigger d1

/-- A data line written: its minor counter raised or rolled; false where its range is poisoned (R202), or the group is or becomes frozen. -/
def writeLine (d : Dev) (l : Nat) : Dev × Bool :=
  let c := l / 64
  let g := groupOf d c
  let m := tabGet 0 g.minors (l % 64)
  if g.frozen || nodeFrozen d c || lineLost d l then (d, false)
  else if m = 127 then
    if g.major + 1 < 2 ^ 56 then (dirtyPath (rollGroup d c) c, true) else (freezeGroup d c, false)
  else (dirtyPath (setGroup d c { g with minors := tabPut 0 g.minors (l % 64) (m + 1) }) c, true)

/-- Data lines written in order; false at the first that is refused. -/
def writeEach : (lines : List Nat) → Dev → Dev × Bool
  | [], d => (d, true)
  | l :: t, d =>
    match writeLine d l with
    | (d1, false) => (d1, false)
    | (d1, true) => writeEach t d1

/-- What a refused write leaves of it: the groups and nodes it froze, and nothing else (07 R205). -/
def keepFreezes (d tried : Dev) : Dev :=
  let groups := (tried.vmp.groups.filter fun g => g.2.frozen && !(groupOf d g.1).frozen).map Prod.fst
  let d1 := if tried.vmp.frozenNodes.length = d.vmp.frozenNodes.length then d
    else frogTrigger { d with vmp.frozenNodes := tried.vmp.frozenNodes }
  groups.foldl freezeGroup d1

/-- Data lines written together; false where one is refused, and nothing changes but what it froze (07 R202, R205). -/
def writeLines (lines : List Nat) (d : Dev) : Dev × Bool :=
  match writeEach lines d with
  | (d1, true) => (d1, true)
  | (d1, false) => (keepFreezes d d1, false)

/-- The two lines of a record slot, and the lines of its index entry in the copies that can be written (07 R194). -/
def slotLines (s : Nat) : List Nat := [2 * s, 2 * s + 1]
def indexLines (d : Dev) (s : Nat) : List Nat :=
  [indexA d.vmp.n (indexEntry s), indexB d.vmp.n (indexEntry s)].filter fun l => !lineLost d l

/-- Record slots written, with the index entries of those that are taken or freed. -/
def writeSlots (slots indexed : List Nat) (d : Dev) : Dev × Bool :=
  writeLines (slots.flatMap slotLines ++ (indexed.flatMap (indexLines d)).eraseDups) d

end Sys2Proof.Machine
end

