-- ==== Sys2Proof/Machine/Poison.lean ====
section
/-! DEFINITION. Failed checks in the vault (07 R203, R212, R216, R217): errors counted, units poisoned, channels lost, the vault FAILED. -/

namespace Sys2Proof.Machine

/-- A fault of the VMP at module scope: cause 0xA channel lost, 0xB poison list overflow. -/
def vmpFault (cause unit : Nat) (d : Dev) : Dev :=
  raiseFault { scope := 3, cause, subsystem := 9, unit, object := 9, detail := 0, inHandler := none } d

/-- Whether an entry's slot can take a new unit: it is closed (R217). -/
def poisonClosed (p : Poison) : Bool := p.outcome != 0 && p.outcome != 3 && p.outcome != 7

/-- The entry a new unit takes: the lowest empty one, else the oldest closed one; none when all 128 are open. -/
def poisonSlot (d : Dev) : Option Nat :=
  match (List.range 128).find? fun e => (tabGet {} d.vmp.poison e).outcome == 7 with
  | some e => some e
  | none =>
    let l := d.vmp.poison.filter fun p => poisonClosed p.2
    (l.foldl (fun (best : Option (Nat × Poison)) p => match best with
      | none => some p
      | some b => if p.2.openedOrder < b.2.openedOrder then some p else some b) none).map Prod.fst

/-- A poison entry opened in a slot, with its event and its log entry. -/
def openEntry (d : Dev) (e first level cause copies : Nat) : Dev :=
  let p : Poison := { first, level, cause, outcome := 0, handles := 0, openedOrder := d.vmp.poisonOrder + 1, copies }
  logVault { d with vmp.poison := tabPut {} d.vmp.poison e p, vmp.poisonOrder := d.vmp.poisonOrder + 1, vmp.event := setBit d.vmp.event 0 } 3
    (natLe 1 e ++ natLe 4 first ++ natLe 1 level ++ natLe 1 cause)

/-- The slot of the entry for the whole vault: with all 128 open, the one opened first, whose unit it covers (log entry 49). -/
def wholeSlot (d : Dev) : Nat :=
  match poisonSlot d with
  | some e => e
  | none => (((d.vmp.poison.foldl (fun (best : Option (Nat × Poison)) p => match best with
      | none => some p
      | some b => if p.2.openedOrder < b.2.openedOrder then some p else some b) none).map Prod.fst).getD 0)

/-- The vault FAILED until the next start: one open entry over all of it, and the ring membership over (R216). -/
def failVault (d : Dev) : Dev :=
  if d.vmp.st = 0xF0 ∨ d.vmp.st = 0x0F then d
  else wakeWhere (leaveRing { openEntry d (wholeSlot d) 0 0xC 3 3 with vmp.st := 0xF0 }) fun c => c.wait == .repair

/-- The channel that holds the other copy in mirrored mode (R191). -/
def partnerOf (ch : Nat) : Nat := if ch % 2 = 0 then ch + 1 else ch - 1

/-- A channel taken offline (R216): its partner serves in its place; without one the vault is lost (log entry 49). A channel that no vault uses
goes offline alone where a DIMM is fitted. -/
def channelDown (ch : Nat) (d : Dev) : Dev :=
  if bit d.vmp.chanDown ch || !(bit d.vmp.channels ch || (d.bay.dimms.getD ch {}).fitted) then d
  else
    let d1 := { d with vmp.chanDown := setBit d.vmp.chanDown ch, vmp.event := setBit d.vmp.event 5 }
    if !bit d.vmp.channels ch then d1
    else if d.vmp.mirrored && !bit d.vmp.chanDown (partnerOf ch) then { d1 with vmp.degraded := true } else failVault (vmpFault 0xA ch d1)

/-- An uncorrectable error counted against a channel: the sixteenth within 1 s takes it offline. -/
def countError (ch : Nat) (d : Dev) : Dev :=
  let l := ((d.vmp.chanErr.getD ch []).filter fun t => decide (now d < t + 1000000)) ++ [now d]
  let d1 := { d with vmp.chanErr := modifyAt d.vmp.chanErr ch fun _ => l }
  if 16 ≤ l.length then channelDown ch d1 else d1

/-- The line on which a check failed: a data or index line, or the tag line, counter line or node line that the level names (R193, R212). -/
def failedLine (n : Nat) (x : LineFail) : Nat :=
  if x.level = 0xE ∨ x.level = 0xF then x.first else if x.level = 0xD then tagLine n x.first
  else if x.level = 0 then counterLine n x.first else nodeLine n x.first x.level

/-- The channel of the failing line (R191): in mirrored mode that of the copy read, `channel` by its parity, or its partner where that is offline. -/
def failChannel (d : Dev) (x : LineFail) : Nat :=
  let home := (lineHome d (failedLine d.vmp.n x)).1
  let ch := home.getD (x.channel % 2) (home.headD 0)
  if d.vmp.mirrored && bit d.vmp.chanDown ch then partnerOf ch else ch

/-- What a failed check counts: corrected and uncorrectable errors, tag and seal failures with their alarm (R203, R216). -/
def countFail (x : LineFail) (d : Dev) : Dev :=
  let ch := failChannel d x
  match x.kind with
  | 0 => { d with vmp.ecc := modifyAt d.vmp.ecc ch fun v => holdAt 16 (v + 1) }
  | 1 =>
    let d1 := alarm { d with vmp.tagFail := holdAt 32 (d.vmp.tagFail + 1) } 18 clsW 0 0
    if d1.vmp.mirrored then countError ch d1 else d1
  | _ => countError ch { d with vmp.ue := holdAt 32 (d.vmp.ue + 1) }

/-- The first data line of the unit that a line lies in. -/
def unitFirst (x : LineFail) : Nat := let size := poisonLines 0 x.level; x.first / size * size

/-- The entry of a unit poisoned already. -/
def unitEntry (d : Dev) (first level : Nat) : Option (Nat × Poison) :=
  d.vmp.poison.find? fun e => (e.2.outcome == 0 || e.2.outcome == 3) && e.2.first == first && e.2.level == level

/-- The unit poisoned, in a free entry of the list; a full list is a fault at module scope. A unit open already has a copy more that failed. -/
def poisonUnit (x : LineFail) (d : Dev) : Dev :=
  let first := unitFirst x
  let copy := if d.vmp.mirrored then 2 ^ (failChannel d x % 2) else 3
  if !decide (first < d.vmp.n) then d
  else match unitEntry d first x.level with
    | some (e, p) => { d with vmp.poison := tabPut {} d.vmp.poison e { p with copies := p.copies ||| copy } }
    | none => match poisonSlot d with
      | some e => openEntry d e first x.level x.kind copy
      | none => vmpFault 0xB 0xFF d

/-- Whether a vault is built and not FAILED. -/
def vaultBuilt (d : Dev) : Bool := d.vmp.st == 0x55 || d.vmp.st == 0x96

/-- Whether a failed check can be met on reading some data lines (R201): its unit holds one of them, and where a node of levels 1 to 3 fails, the walk
is not ended by that node in the Skein cache. A line of a unit that is lost already is not read again. -/
def onWalk (d : Dev) (lines : List Nat) (x : LineFail) : Bool :=
  let p : Poison := { first := unitFirst x, level := x.level }
  lines.any (fun l => inUnit d.vmp.n p l && !lineLost d l) &&
    !(decide (1 ≤ x.level) && decide (x.level ≤ 3) && d.vmp.cache.any fun e => e.1 == nodeKey x.level (nodeIndex x.first x.level))

/-- A failed check met while the vault is built. -/
def meetFail (x : LineFail) (d : Dev) : Dev :=
  if !vaultBuilt d then d
  else
    let d1 := countFail x d
    if x.kind = 0 || !vaultBuilt d1 then d1 else poisonUnit x d1

/-- Data lines read from the vault (R200, R201): the failed check they meet, if any, ends the read; otherwise the nodes of their paths are used. -/
def readLines (lines : List Nat) (fault : Option LineFail) (d : Dev) : Dev × Bool :=
  match fault with
  | some x =>
    if onWalk d lines x then
      if x.kind = 0 then (lines.foldl readPath (meetFail x d), true) else (meetFail x d, false)
    else (lines.foldl readPath d, true)
  | none => (lines.foldl readPath d, true)

/-! ## The state codes of the VMP (R208, R223) -/

/-- FROG_STATE as it reads (R208): HALTED while a module-scope handler holds the VMP. -/
def frogState (d : Dev) : Nat := if vmpHeld d then 0xF0 else d.vmp.frog

/-- Whether FROG_STATE holds one of its codes (R208), and VMP_STATUS.STATE one of its own (R223). -/
def frogKnown (code : Nat) : Bool := [0x0F, 0x33, 0x55, 0x96, 0xF0].contains code
def vaultKnown (code : Nat) : Bool := [0x0F, 0x33, 0x55, 0x96, 0xF0].contains code

end Sys2Proof.Machine
end

