-- ==== Sys2Proof/Machine/PublicMath.lean ====
section
/-! DEFINITION. The public-key schemes of 09 R263 and R271 that the 16 public-key units compute: RSASSA-PKCS1-v1_5, RSASSA-PSS and RSAES-OAEP
(RFC 8017), ECDSA on the three curves (FIPS 186-5), Ed25519 (RFC 8032), and the public key of a private one (09 R264). The manual names these
standards and gives no algorithm of its own (PRESUMED, log entry 6); ML-DSA and ML-KEM are free functions of Config. -/

namespace Sys2Proof.Machine

/-- SHA-512. -/
def sha512 (msg : Bytes) : Bytes := ((sha64.digest (eightWords shaStart) msg).map (natBe 8)).flatten

/-- The hash length of a scheme (R271); 0 for the pure ones. -/
def schemeHash (s : Nat) : Nat :=
  if s == 1 || s == 4 || s == 0x10 then 32 else if s == 2 || s == 5 || s == 0x11 then 48 else if s == 3 || s == 6 || s == 0x12 then 64 else 0

/-- SHA-2 by the length of its digest. -/
def hashBy (len : Nat) (msg : Bytes) : Bytes := if len = 32 then sha256 msg else if len = 48 then sha384 msg else sha512 msg

/-- Bytes of the random request a signature or an encryption draws (16 R471). -/
def randomBytes (draw n : Nat) : Bytes := (List.range n).map (Config.freeByte draw)

/-! ## RSA (RFC 8017) -/

/-- MGF1 with SHA-2 of a digest length. -/
def mgf1 (hlen : Nat) (seed : Bytes) (n : Nat) : Bytes :=
  (((List.range (n / hlen + 1)).map fun j => hashBy hlen (seed ++ natBe 4 j)).flatten).take n

/-- The encoded message of RSASSA-PKCS1-v1_5: the digest in its DER frame. -/
def pkcs1Block (k : Nat) (digest : Bytes) : Bytes :=
  let n := digest.length
  let t := ascii [0x30, 17 + n, 0x30, 0x0D, 0x06, 0x09, 0x60, 0x86, 0x48, 0x01, 0x65, 0x03, 0x04, 0x02, n / 16 - 1, 0x05, 0x00, 0x04, n] ++ digest
  [0, 1] ++ List.replicate (k - 3 - t.length) 0xFF ++ [0] ++ t

/-- A string with the top bit of its first byte clear. -/
def topClear : Bytes → Bytes
  | [] => []
  | b :: t => (b &&& 0x7F) :: t

/-- The hash at the end of an encoded message of RSASSA-PSS. -/
def pssHash (digest salt : Bytes) : Bytes := hashBy digest.length (zeroBytes 8 ++ digest ++ salt)

/-- The encoded message of RSASSA-PSS for a modulus of k whole bytes. -/
def pssBlock (k : Nat) (digest salt : Bytes) : Bytes :=
  let n := digest.length
  let h := pssHash digest salt
  topClear (xorBytes (zeroBytes (k - 2 * n - 2) ++ [1] ++ salt) (mgf1 n h (k - n - 1))) ++ h ++ [0xBC]

/-- Whether an encoded message of RSASSA-PSS, its salt of the hash length, is that of a digest. -/
def pssOk (em digest : Bytes) : Bool :=
  let k := em.length
  let n := digest.length
  let h := slice em (k - n - 1) n
  let db := topClear (xorBytes (em.take (k - n - 1)) (mgf1 n h (k - n - 1)))
  decide (2 * n + 2 ≤ k) && em == pssBlock k digest (db.drop (k - 2 * n - 1))

/-- A signature of an RSA scheme, k bytes. -/
def rsaSign (scheme k : Nat) (priv digest : Bytes) (draw : Nat) : Bytes :=
  rsaRaw k priv (if scheme ≤ 3 then pkcs1Block k digest else pssBlock k digest (randomBytes draw digest.length))

/-- Whether a signature of an RSA scheme verifies under class 9 material. -/
def rsaVerify (scheme : Nat) (pub digest sig : Bytes) : Bool :=
  let k := pub.length - 4
  let em := rsaRecover pub sig
  decide (sig.length = k) && decide (beNat sig < beNat (pub.take k)) && (if scheme ≤ 3 then em == pkcs1Block k digest else pssOk em digest)

/-- The message in an encoded message of RSAES-OAEP with SHA-256 and an empty label; none for any padding fault (R274). -/
def oaepUnpad (em : Bytes) : Option Bytes :=
  let k := em.length
  let masked := em.drop 33
  let seed := xorBytes (slice em 1 32) (mgf1 32 masked 32)
  let db := xorBytes masked (mgf1 32 seed (k - 33))
  let rest := (db.drop 32).dropWhile (· == 0)
  if em.head? = some 0 ∧ db.take 32 = sha256 [] ∧ rest.head? = some 1 then some (rest.drop 1) else none

/-- RSA-OAEP decryption under class 8 material; none for a ciphertext no encryption gives (R274). -/
def oaepDecrypt (priv ct : Bytes) : Option Bytes :=
  let n := (priv.length - 4) / 5
  if beNat (slice priv 4 n) * beNat (slice priv (4 + n) n) ≤ beNat ct then none else oaepUnpad (rsaRaw ct.length priv ct)

/-! ## The curves P-256, P-384 and P-521 (FIPS 186-5, SP 800-186) -/

/-- A short Weierstrass curve with coefficient −3: its prime, constant, base point, order and the bits and bytes of its field. -/
structure Curve where
  p : Nat
  b : Nat
  base : Nat × Nat
  order : Nat
  bits : Nat
  len : Nat

def curve256 : Curve where
  p := 2 ^ 256 - 2 ^ 224 + 2 ^ 192 + 2 ^ 96 - 1
  b := 0x5AC635D8AA3A93E7B3EBBD55769886BC651D06B0CC53B0F63BCE3C3E27D2604B
  base := (0x6B17D1F2E12C4247F8BCE6E563A440F277037D812DEB33A0F4A13945D898C296,
    0x4FE342E2FE1A7F9B8EE7EB4A7C0F9E162BCE33576B315ECECBB6406837BF51F5)
  order := 0xFFFFFFFF00000000FFFFFFFFFFFFFFFFBCE6FAADA7179E84F3B9CAC2FC632551
  bits := 256
  len := 32

def curve384 : Curve where
  p := 2 ^ 384 - 2 ^ 128 - 2 ^ 96 + 2 ^ 32 - 1
  b := 0xB3312FA7E23EE7E4988E056BE3F82D19181D9C6EFE8141120314088F5013875AC656398D8A2ED19D2A85C8EDD3EC2AEF
  base := (0xAA87CA22BE8B05378EB1C71EF320AD746E1D3B628BA79B9859F741E082542A385502F25DBF55296C3A545E3872760AB7,
    0x3617DE4A96262C6F5D9E98BF9292DC29F8F41DBD289A147CE9DA3113B5F0B8C00A60B1CE1D7E819D7A431D7C90EA0E5F)
  order := 0xFFFFFFFFFFFFFFFFFFFFFFFFFFFFFFFFFFFFFFFFFFFFFFFFC7634D81F4372DDF581A0DB248B0A77AECEC196ACCC52973
  bits := 384
  len := 48

def curve521 : Curve where
  p := 2 ^ 521 - 1
  b := 0x51953EB9618E1C9A1F929A21A0B68540EEA2DA725B99B315F3B8B489918EF109E156193951EC7E937B1652C0BD3BB1BF073573DF883D2C34F1EF451FD46B503F00
  base := (0xC6858E06B70404E9CD9E3ECB662395B4429C648139053FB521F828AF606B4D3DBAA14B5E77EFE75928FE1DC127A2FFA8DE3348B3C1856A429BF97E7E31C2E5BD66,
    0x11839296A789A3BC0045C8A5FB42C7D1BD998F54449579B446817AFBD17273E662C97EE72995EF42640C550B9013FAD0761353C7086A272C24088BE94769FD16650)
  order := 0x1FFFFFFFFFFFFFFFFFFFFFFFFFFFFFFFFFFFFFFFFFFFFFFFFFFFFFFFFFFFFFFFFFA51868783BF2F966B7FCC0148F709A5D03BB5C9B8899C47AEBB6FB71E91386409
  bits := 521
  len := 66

/-- The curve of an algorithm code (09 R264). -/
def curveOf (alg : Nat) : Curve := if alg = 0x30 then curve256 else if alg = 0x31 then curve384 else curve521

/-- The inverse of a number modulo a prime below 2^528. -/
def invMod (a p : Nat) : Nat := powMod 528 (a % p) (p - 2) p 1

/-- The difference of two residues. -/
def subMod (a b p : Nat) : Nat := (a + (p - b % p)) % p

/-- The third point of a line of a slope through two points. -/
def Curve.chord (c : Curve) (slope : Nat) (a : Nat × Nat) (x2 : Nat) : Nat × Nat :=
  let x := subMod (slope * slope) (a.1 + x2) c.p
  (x, subMod (slope * subMod a.1 x c.p) a.2 c.p)

/-- The sum of two points; none is the point at infinity. -/
def Curve.add (c : Curve) : Option (Nat × Nat) → Option (Nat × Nat) → Option (Nat × Nat)
  | none, q => q
  | some a, none => some a
  | some a, some b =>
    if a.1 ≠ b.1 then some (c.chord (subMod b.2 a.2 c.p * invMod (subMod b.1 a.1 c.p) c.p) a b.1)
    else if a.2 ≠ b.2 ∨ a.2 = 0 then none
    else some (c.chord (subMod (3 * a.1 * a.1) 3 c.p * invMod (2 * a.2) c.p) a b.1)

/-- A sum and the multiple of a point by the lowest `n` bits of a number. -/
def Curve.times (c : Curve) : (n k : Nat) → (q acc : Option (Nat × Nat)) → Option (Nat × Nat)
  | 0, _, _, acc => acc
  | n + 1, k, q, acc => if k = 0 then acc else c.times n (k / 2) (c.add q q) (if k % 2 = 1 then c.add acc q else acc)

/-- A multiple of the base point. -/
def Curve.timesBase (c : Curve) (k : Nat) : Option (Nat × Nat) := c.times 528 k (some c.base) none

/-- The coordinates of class 9 material. -/
def Curve.pointOf (c : Curve) (pub : Bytes) : Nat × Nat := (beNat (pub.take c.len), beNat (slice pub c.len c.len))

/-- Whether coordinates are those of a point of the curve. -/
def Curve.has (c : Curve) (a : Nat × Nat) : Bool :=
  decide (a.1 < c.p) && decide (a.2 < c.p) && decide (a.2 * a.2 % c.p = subMod (a.1 * a.1 * a.1 + c.b) (3 * a.1) c.p)

/-- Whether the point encoding of R267 lies on the curve of an algorithm (R276). -/
def onCurve (alg : Nat) (encoding : Bytes) : Bool := (curveOf alg).has ((curveOf alg).pointOf (encoding.drop 1))

/-- A digest as a number of at most the order's bits. -/
def Curve.number (c : Curve) (digest : Bytes) : Nat := beNat digest >>> (8 * digest.length - c.bits)

/-- An ECDSA signature r ‖ s, with its k drawn for it (R263). -/
def ecdsaSign (c : Curve) (priv digest : Bytes) (draw : Nat) : Bytes :=
  let k := beNat (randomBytes draw (c.len + 8)) % (c.order - 1) + 1
  let r := ((c.timesBase k).getD (0, 0)).1 % c.order
  natBe c.len r ++ natBe c.len (invMod k c.order * (c.number digest + r * beNat priv) % c.order)

/-- Whether an ECDSA signature verifies. -/
def ecdsaVerify (c : Curve) (pub digest sig : Bytes) : Bool :=
  let r := beNat (sig.take c.len)
  let s := beNat (sig.drop c.len)
  let w := invMod s c.order
  let sum := c.times 528 (r * w % c.order) (some (c.pointOf pub)) (c.timesBase (c.number digest * w % c.order))
  decide (sig.length = 2 * c.len) && decide (0 < r) && decide (r < c.order) && decide (0 < s) && decide (s < c.order) && c.has (c.pointOf pub) &&
    (match sum with | none => false | some a => a.1 % c.order == r)

/-! ## Ed25519 (RFC 8032) -/

def edPrime : Nat := 2 ^ 255 - 19
def edOrder : Nat := 2 ^ 252 + 27742317777372353535851937790883648493
/-- The coefficient −121665/121666. -/
def edD : Nat := 0x52036CEE2B6FFE738CC740797779E89800700A4D4141D8AB75EB4DCA135978A3
def edBase : Nat × Nat :=
  (0x216936D3CD6E53FEC0A4E231FDD6DC5C692CC7609525A7B2C9562D608F25D51A, 0x6666666666666666666666666666666666666666666666666666666666666658)

/-- The sum of two points. -/
def edAdd (a b : Nat × Nat) : Nat × Nat :=
  let t := edD * (a.1 * b.1 % edPrime) * (a.2 * b.2 % edPrime) % edPrime
  ((a.1 * b.2 + a.2 * b.1) * invMod (1 + t) edPrime % edPrime, (a.2 * b.2 + a.1 * b.1) * invMod (subMod 1 t edPrime) edPrime % edPrime)

/-- A sum and the multiple of a point by the lowest `n` bits of a number. -/
def edTimes : (n k : Nat) → (q acc : Nat × Nat) → Nat × Nat
  | 0, _, _, acc => acc
  | n + 1, k, q, acc => if k = 0 then acc else edTimes n (k / 2) (edAdd q q) (if k % 2 = 1 then edAdd acc q else acc)

/-- The 32 bytes of a point: y, with the low bit of x on top. -/
def edEncode (a : Nat × Nat) : Bytes := natLe 32 (a.2 + a.1 % 2 * 2 ^ 255)

/-- The point of 32 bytes. -/
def edDecode (b : Bytes) : Option (Nat × Nat) :=
  let v := leNat b
  let y := v % 2 ^ 255
  let square := subMod (y * y) 1 edPrime * invMod (edD * (y * y % edPrime) + 1) edPrime % edPrime
  let x0 := powMod 256 square ((edPrime + 3) / 8) edPrime 1
  let x := if x0 * x0 % edPrime = square then x0 else x0 * powMod 256 2 ((edPrime - 1) / 4) edPrime 1 % edPrime
  if edPrime ≤ y ∨ x * x % edPrime ≠ square ∨ (x = 0 ∧ v / 2 ^ 255 = 1) then none
  else some (if x % 2 = v / 2 ^ 255 then x else edPrime - x, y)

/-- The secret scalar and the prefix of a seed. -/
def edSecret (seed : Bytes) : Nat × Bytes :=
  let h := sha512 seed
  (leNat (h.take 32) / 8 * 8 % 2 ^ 254 + 2 ^ 254, h.drop 32)

/-- The public key of a seed. -/
def edPublic (seed : Bytes) : Bytes := edEncode (edTimes 256 (edSecret seed).1 edBase (0, 1))

/-- The signature of a message. -/
def edSign (seed msg : Bytes) : Bytes :=
  let x := edSecret seed
  let r := leNat (sha512 (x.2 ++ msg)) % edOrder
  let R := edEncode (edTimes 256 r edBase (0, 1))
  R ++ natLe 32 ((r + leNat (sha512 (R ++ edPublic seed ++ msg)) % edOrder * x.1) % edOrder)

/-- Whether a signature verifies. -/
def edVerify (pub msg sig : Bytes) : Bool :=
  let s := leNat (sig.drop 32)
  let k := leNat (sha512 (sig.take 32 ++ pub ++ msg)) % edOrder
  match edDecode pub, edDecode (sig.take 32) with
  | some a, some r =>
    decide (sig.length = 64) && decide (s < edOrder) && edTimes 256 s edBase (0, 1) == edAdd r (edTimes 256 k a (0, 1))
  | _, _ => false

/-! ## Every algorithm (R263, R264, R271) -/

/-- A signature of `len` bytes at most: scheme, algorithm, private material, message or digest, INPUT, context string, number of the random request. -/
def pkSign (scheme alg len : Nat) (priv msg : Bytes) (input : Nat) (ctx : Bytes) (draw : Nat) : Bytes :=
  let digest := if input = 1 then msg else hashBy (schemeHash scheme) msg
  if scheme ≤ 6 then rsaSign scheme len priv digest draw
  else if scheme ≤ 0x12 then ecdsaSign (curveOf alg) priv digest draw
  else if scheme = 0x20 then edSign priv msg
  else Config.mldsaSign alg priv msg ctx draw

/-- Whether a signature verifies. -/
def pkVerify (scheme alg : Nat) (pub msg : Bytes) (input : Nat) (ctx sig : Bytes) : Bool :=
  let digest := if input = 1 then msg else hashBy (schemeHash scheme) msg
  if scheme ≤ 6 then rsaVerify scheme pub digest sig
  else if scheme ≤ 0x12 then ecdsaVerify (curveOf alg) pub digest sig
  else if scheme = 0x20 then edVerify pub msg sig
  else Config.mldsaVerify alg pub msg ctx sig

/-- Class 9 material of ECC, Ed25519, ML-KEM and ML-DSA private material: ML-KEM's follows the 384 bytes of each row of the secret (FIPS 203). -/
def pkPublicOf (alg : Nat) (priv : Bytes) : Bytes :=
  if alg < 0x33 then
    let c := curveOf alg
    let a := (c.timesBase (beNat priv)).getD (0, 0)
    natBe c.len a.1 ++ natBe c.len a.2
  else if alg = 0x33 then edPublic priv
  else if alg ≤ 0x42 then
    let n := 384 * (alg - 0x3E)
    slice priv n (n + 32)
  else Config.mldsaPublic alg priv

/-- Private material from the bytes a generation gives: the scalar of an elliptic curve lies between 1 and its order. -/
def privateFrom (alg : Nat) (raw : Bytes) : Bytes :=
  if 0x30 ≤ alg ∧ alg < 0x33 then natBe (curveOf alg).len (beNat raw % ((curveOf alg).order - 1) + 1) else raw

end Sys2Proof.Machine
end

