-- ==== Sys2Proof/Machine/KeyBlock.lean ====
section
/-! DEFINITION. TR-31 key blocks of versions B and D (06 R161, R162, R180, R181), as ASC X9 TR-31 lays them out; the manual names the standard and
gives no layout of its own (PRESUMED, log entry 6). -/

namespace Sys2Proof.Machine

/-! ## Characters -/

/-- The hexadecimal digit of a number below 16. -/
def hexDigit (n : Nat) : Byte := BitVec.ofNat 8 (if n < 10 then 0x30 + n else 0x37 + n)

/-- A string as hexadecimal digits. -/
def hexOf (b : Bytes) : Bytes := b.flatMap fun x => [hexDigit (x.toNat / 16), hexDigit (x.toNat % 16)]

/-- The number a hexadecimal digit stands for. -/
def hexValue (c : Byte) : Option Nat :=
  if 0x30 ≤ c.toNat ∧ c.toNat ≤ 0x39 then some (c.toNat - 0x30) else if 0x41 ≤ c.toNat ∧ c.toNat ≤ 0x46 then some (c.toNat - 0x37) else none

/-- The bytes that hexadecimal digits stand for; none for an odd number of digits or another character. -/
def unhex : Bytes → Option Bytes
  | [] => some []
  | [_] => none
  | a :: b :: t =>
    match hexValue a, hexValue b, unhex t with
    | some x, some y, some r => some (BitVec.ofNat 8 (16 * x + y) :: r)
    | _, _, _ => none

/-- The number of decimal digits; none where one is no digit. -/
def decimalOf (b : Bytes) : Option Nat :=
  if b.all fun c => decide (0x30 ≤ c.toNat) && decide (c.toNat ≤ 0x39) then some (b.foldl (fun v c => 10 * v + (c.toNat - 0x30)) 0) else none

/-- `n` decimal digits of a number. -/
def decimalDigits : (n v : Nat) → Bytes
  | 0, _ => []
  | n + 1, v => decimalDigits n (v / 10) ++ [hexDigit (v % 10)]

/-! ## The header and its optional blocks -/

/-- The length of an optional block at the front of a string: two digits, or 00 and the number of digits of a longer length. -/
def optLength (b : Bytes) : Option Nat :=
  match unhex (slice b 2 2) with
  | some [n] =>
    if n ≠ 0 then some n.toNat
    else match unhex (slice b 4 2) with
      | some [w] => (unhex (slice b 6 w.toNat)).map beNat
      | _ => none
  | _ => none

/-- The optional blocks at the front of a string, each with its identifier, and the characters they take; none where one is malformed. -/
def optBlocks : (n : Nat) → Bytes → Option (List (Bytes × Bytes) × Nat)
  | 0, _ => some ([], 0)
  | n + 1, b =>
    match optLength b with
    | none => none
    | some len =>
      if len < 4 ∨ b.length < len then none
      else (optBlocks n (b.drop len)).map fun x => ((b.take 2, slice b 4 (len - 4)) :: x.1, len + x.2)

/-- The optional blocks of a key block and the characters of its whole header. -/
def blockHeader (block : Bytes) : Option (List (Bytes × Bytes) × Nat) :=
  match decimalOf (slice block 12 2) with
  | none => none
  | some n => (optBlocks n (block.drop 16)).map fun x => (x.1, 16 + x.2)

/-- Whether a block is of version D, under an AES key. -/
def blockAes (block : Bytes) : Bool := block.head? == some 0x44

/-- The key check value in block KP, after the two digits of its method; none without one. -/
def blockKp (opts : List (Bytes × Bytes)) : Option (Option Bytes) :=
  (opts.find? fun o => o.1 == ascii [0x4B, 0x50]).map fun o => if o.2.length < 4 then none else unhex (o.2.drop 2)

/-- Whether a block is well formed: printable characters, its own length, version B or D, optional blocks that end on a whole cipher block, KP in
hexadecimal, and after the header whole cipher blocks and the authenticator, in hexadecimal (R180). -/
def tr31Form (block : Bytes) : Bool :=
  let w := blockLen (blockAes block)
  match blockHeader block with
  | none => false
  | some (opts, h) =>
    (block.all fun c => decide (0x20 ≤ c.toNat) && decide (c.toNat ≤ 0x7E)) && (block.head? == some 0x42 || block.head? == some 0x44) &&
      decimalOf (slice block 1 4) == some block.length && slice block 14 2 == [hexDigit 0, hexDigit 0] && decide (h % w = 0) &&
      blockKp opts != some none && decide (h + 4 * w ≤ block.length) && decide ((block.length - h) % (2 * w) = 0) && (unhex (block.drop h)).isSome

/-! ## The two keys of a wrapping key, opening and building -/

/-- The encryption key (use 0) or the authentication key (use 1) that a wrapping key gives. -/
def tr31Key (aes : Bool) (key : Bytes) (use : Nat) : Bytes :=
  let n := key.length
  let code := if aes then (if n = 16 then 2 else if n = 24 then 3 else 4) else if n = 16 then 0 else 1
  (((List.range (n / blockLen aes + 1)).map fun j =>
    cmacOf aes key ([BitVec.ofNat 8 (j + 1)] ++ natBe 2 use ++ [0] ++ natBe 2 code ++ natBe 2 (8 * n))).flatten).take n

/-- What a block says under a wrapping key; none when authentication fails (R162). -/
def tr31Open (wrapKey block : Bytes) : Option Config.KeyBlock :=
  let aes := blockAes block
  let w := blockLen aes
  match blockHeader block with
  | none => none
  | some (opts, h) =>
    match unhex (block.drop h) with
    | none => none
    | some body =>
      let mac := body.drop (body.length - w)
      let text := cbcDec aes (tr31Key aes wrapKey 0) mac (body.take (body.length - w))
      if cmacOf aes (tr31Key aes wrapKey 1) (block.take h ++ text) ≠ mac then none
      else
        let n := beNat (text.take 2) / 8
        let known := slice block 7 1 == [0x54] || slice block 7 1 == [0x41]
        some { usage := field block 5 2, mode := field block 8 1, expo := field block 11 1, tdes := slice block 7 1 == [0x54],
               key := if known ∧ beNat (text.take 2) % 8 = 0 ∧ n + 2 ≤ text.length then slice text 2 n else [],
               kp := (blockKp opts).getD none }

/-- A block of a version with a KP block: the wrapping key, the key with its algorithm and the method of its check value, what the header says of it, the
check value, and the number of the random request that fills the last cipher block (R181). -/
def tr31Build (version : Nat) (wrapKey key : Bytes) (keyAes : Bool) (kcvMethod : Nat) (usageModeExpo : Nat × Nat × Nat) (kp : Bytes) (draw : Nat) : Bytes :=
  let aes := version == 0x44
  let w := blockLen aes
  let said := hexOf (ascii [kcvMethod - 1]) ++ hexOf kp
  let opts := ascii [0x4B, 0x50] ++ hexOf (ascii [4 + said.length]) ++ said
  let fill := (16 - (opts.length + 4) % 16) % 16
  let all := opts ++ ascii [0x50, 0x42] ++ hexOf (ascii [4 + fill]) ++ List.replicate fill (hexDigit 0)
  let pad := (w - (2 + key.length) % w) % w
  let text := natBe 2 (8 * key.length) ++ key ++ randomBytes draw pad
  let header := ascii [version] ++ decimalDigits 4 (16 + all.length + 2 * text.length + 2 * w) ++ natLe 2 usageModeExpo.1 ++
    ascii [if keyAes then 0x41 else 0x54, usageModeExpo.2.1] ++ decimalDigits 2 0 ++ ascii [usageModeExpo.2.2] ++ decimalDigits 2 2 ++
    decimalDigits 2 0 ++ all
  let mac := cmacOf aes (tr31Key aes wrapKey 1) (header ++ text)
  header ++ hexOf (cbcEnc aes (tr31Key aes wrapKey 0) mac text) ++ hexOf mac

end Sys2Proof.Machine
end

