-- ==== Sys2Proof/Machine/Records.lean ====
section
/-! DEFINITION. Records as the vault holds them (06 R151, R154, R155): their bytes, the mask and the tag; and what the vault's memory itself shows,
line by line (07 R195 to R199, R207). -/

namespace Sys2Proof.Machine

/-! ## A record's bytes -/

/-- Record bytes 0x00–0x37 (06 R151). -/
def headBytes (r : Record) : Bytes :=
  natLe 8 r.handle ++ natLe 1 r.alg ++ natLe 1 r.material.length ++ natLe 2 r.usage ++ natLe 1 r.mode ++ natLe 1 r.expo ++ natLe 1 r.st ++
    natLe 1 r.kcvMethod ++ natLe 2 r.retiring ++ natLe 1 r.chainPos ++ natLe 1 r.chainLen ++ fitTo 5 r.kcv ++ fitTo 7 r.params ++
    natLe 8 r.notBefore ++ natLe 8 r.notAfter ++ natLe 8 r.invocations

/-- Record bytes 0x00 to 0x77 with MATERIAL as the record gives it (06 R151). -/
def recordBytes (r : Record) : Bytes := headBytes r ++ fitTo 64 r.material

/-- A string under the keystream of the record mask key for a record (06 R154): AES-256-CTR from HANDLE, CHAIN_POS and seven zero bytes. While no mask
key is held the string stands as it is. -/
def maskWith (d : Dev) (r : Record) (b : Bytes) : Bytes :=
  match d.keys.maskKey with
  | some key => ctr key (natLe 8 r.handle ++ natLe 1 r.chainPos ++ zeroBytes 7) b
  | none => b

/-- RECORD_TAG of a record with its material in clear (06 R155): over its bytes with MATERIAL masked. -/
def recordTag (d : Dev) (r : Record) : Bytes :=
  match d.keys.tagKey with
  | some key => (aesCmac key (headBytes r ++ maskWith d r (fitTo 64 r.material))).take 8
  | none => []

/-- A record as the vault holds it: masked and tagged (06 R154, R155). -/
def toVault (d : Dev) (r : Record) : Record := { r with material := maskWith d r r.material, tag := recordTag d r }

/-- A record read from the vault, on its way to an engine or under another key: unmasked; one whose tag fails reads as on a poisoned line (06 R155). -/
def fromVault (d : Dev) (x : Record) : Record :=
  let r := { x with material := maskWith d x x.material, tag := [] }
  { r with poisoned := x.poisoned || x.tag != recordTag d r }

/-- The record in a slot of this module. -/
def recordAt (d : Dev) (slot : Nat) : Record := fromVault d (tabGet {} d.vmp.slots slot)

/-- Every record of this module's vault. -/
def heldRecords (d : Dev) : List Record := d.vmp.slots.map fun p => fromVault d p.2

/-- A record written in a slot. -/
def putAt (d : Dev) (slot : Nat) (r : Record) : Dev := { d with vmp.slots := tabPut {} d.vmp.slots slot (toVault d r) }

/-- A slot freed: its record leaves the key cache too. -/
def freeAt (d : Dev) (slot : Nat) : Dev :=
  { d with vmp.slots := tabPut {} d.vmp.slots slot {}, keys.cache := d.keys.cache.filter (· != slot) }

/-- The record mask key and the record tag key drawn, where the DRBG serves (06 R154). -/
def drawRecordKeys (d : Dev) : Dev :=
  if drbgUp d then
    let m := draw d 32
    let t := draw m.2 32
    { t.2 with keys.maskKey := some m.1, keys.tagKey := some t.1 }
  else d

/-! ## The key cache (00 R5) -/

/-- Records the key cache holds: 16 MiB of 128 bytes each. -/
def cacheRecords : Nat := 131072

/-- The record of a slot used from the key cache, or taken into it: the latest used first, the least recently used out (log entry 93). -/
def cacheSlot (d : Dev) (slot : Nat) : Dev := { d with keys.cache := (slot :: d.keys.cache.filter (· != slot)).take cacheRecords }

/-! ## What vault memory shows (07 R195 to R199, R207) -/

/-- The line key and the tag key of a memory key (R195). -/
def lineKey (memKey : Bytes) : Bytes := kdf108 memKey (ascii [0x56, 0x4D, 0x50, 0x2D, 0x4C, 0x49, 0x4E, 0x45]) [] 32
def lineTagKey (memKey : Bytes) : Bytes := kdf108 memKey (ascii [0x56, 0x4D, 0x50, 0x2D, 0x54, 0x41, 0x47]) [] 32

/-- Whether a sweep is under way: two memory keys are live (R207). -/
def sweeping (d : Dev) : Bool := d.vmp.oldKey.isSome

/-- The memory key that holds for groups up to b − 1, by the working row alone (R207): a line, tag or counter block of group g goes by b = g + 1. -/
def keyUpTo (d : Dev) (b : Nat) : Bytes := ((if sweeping d && decide (d.vmp.row < b) then d.vmp.oldKey else d.vmp.memKey).getD [])

/-- The counter block of a line for a keystream block, or for its tag with 0xFF (R196, R197). -/
def lineCounter (d : Dev) (l block : Nat) : Bytes :=
  let g := groupOf d (l / 64)
  natBe 4 l ++ natBe 7 g.major ++ natBe 1 (tabGet 0 g.minors (l % 64)) ++ natBe 1 block ++ zeroBytes 3

/-- The 64 bytes a data line holds in clear: half of a record slot, or an entry line of the handle index, whose own form the manual does not
describe (R194; free, log entry 91). -/
def lineText (d : Dev) (l : Nat) : Bytes :=
  if l < 217 * d.vmp.n / 256 then
    match d.vmp.slots.lookup (l / 2) with
    | none => zeroBytes 64
    | some x =>
      let r := recordAt d (l / 2)
      fitTo 64 (slice (headBytes r ++ maskWith d r (fitTo 64 r.material) ++ x.tag) (64 * (l % 2)) 64)
  else
    let i := if l < 441 * d.vmp.n / 512 then l - 217 * d.vmp.n / 256 else (l - 441 * d.vmp.n / 512) ^^^ 1
    fitTo 64 (Config.indexLine ((d.vmp.slots.filter fun p => indexEntry p.1 == i).map fun p => (p.1, p.2.handle, p.2.chainPos)))

/-- A data line as it stands in memory, encrypted (R196). -/
def lineCipher (d : Dev) (l : Nat) : Bytes :=
  xorBytes (lineText d l) ((List.range 4).flatMap fun b => aesEnc (lineKey (keyUpTo d (l / 64 + 1))) (lineCounter d l b))

/-- The tag of a data line (R197). -/
def lineTag (d : Dev) (l : Nat) : Bytes := (aesCmac (lineTagKey (keyUpTo d (l / 64 + 1))) (lineCounter d l 0xFF ++ lineCipher d l)).take 8

/-- The counter block of a group as a line (R198). -/
def groupBytes (g : Group) : Bytes :=
  natLe 64 (g.major + (List.range 64).foldl (fun v i => v + tabGet 0 g.minors i * 2 ^ (56 + 7 * i)) 0 + flag g.frozen 504)

/-- The seal of a counter block (R199). -/
def groupSeal (d : Dev) (c : Nat) : Nat :=
  beNat ((aesCmac (lineTagKey (keyUpTo d (c + 1))) (natBe 4 (counterBase d.vmp.n + c) ++ zeroBytes 12 ++ groupBytes (groupOf d c))).take 7)

/-- The counter of a node in its parent; that of the level-9 node is the root counter (R199). -/
def nodeCounter (d : Dev) (k i : Nat) : Nat := tabGet 0 d.vmp.nodes (nodeKey k i)
def rootCounter (d : Dev) : Nat := nodeCounter d 9 0

/-- Bytes 0 to 55 of node i of level k: the seals of its counter blocks, or the counters of its children; zero where there is none (R199). -/
def nodeSlots (d : Dev) (k i : Nat) : Bytes :=
  (List.range 8).flatMap fun j =>
    if k = 1 then natLe 7 (if 8 * i + j < groupCount d.vmp.n then groupSeal d (8 * i + j) else 0)
    else natLe 7 (if 8 * i + j < levelNodes d.vmp.n (k - 1) then nodeCounter d (k - 1) (8 * i + j) else 0)

/-- Node i of level k as a line (R199): levels 1 to 6 with their node tag, levels 7 to 9, on the die, with none. -/
def nodeBytes (d : Dev) (k i : Nat) : Bytes :=
  let slots := nodeSlots d k i
  let tag := (aesCmac (lineTagKey (keyUpTo d (min (groupCount d.vmp.n) ((i + 1) * 8 ^ k))))
    (natBe 4 (levelBase d.vmp.n k + i) ++ natBe 7 (nodeCounter d k i) ++ natBe 1 k ++ zeroBytes 4 ++ slots)).take 8
  slots ++ if 6 < k then zeroBytes 8 else tag

end Sys2Proof.Machine
end

