-- ==== Sys2Proof/Machine/Keys.lean ====
section
/-! DEFINITION. Key records (06): permitted combinations, the key checks of R158, uses and the invocation floor, check values, creation,
replacement and destruction as edits of the vault, change sequences (07 R220, 12 R361, R362). -/

namespace Sys2Proof.Machine

/-! ## Codes (06 R145) -/

/-- A TR-31 usage of two characters, as the record's 16-bit field reads. -/
def usg (c1 c2 : Nat) : Nat := c1 + 256 * c2
def uK0 : Nat := usg 0x4B 0x30
def uK1 : Nat := usg 0x4B 0x31
def uP0 : Nat := usg 0x50 0x30
def uM1 : Nat := usg 0x4D 0x31
def uM3 : Nat := usg 0x4D 0x33
def uM6 : Nat := usg 0x4D 0x36
def uD0 : Nat := usg 0x44 0x30
def uB0 : Nat := usg 0x42 0x30
def uB1 : Nat := usg 0x42 0x31
def uE0 : Nat := usg 0x45 0x30
def uE1 : Nat := usg 0x45 0x31
def uE2 : Nat := usg 0x45 0x32
def uC0 : Nat := usg 0x43 0x30
def uV1 : Nat := usg 0x56 0x31
def uV2 : Nat := usg 0x56 0x32
def uS0 : Nat := usg 0x53 0x30
def uS1 : Nat := usg 0x53 0x31
def uD1 : Nat := usg 0x44 0x31
/-- The module's own usages 91 to 98. -/
def uOwn (n : Nat) : Nat := usg 0x39 (0x30 + n)

def mB : Nat := 0x42
def mC : Nat := 0x43
def mD : Nat := 0x44
def mE : Nat := 0x45
def mG : Nat := 0x47
def mN : Nat := 0x4E
def mS : Nat := 0x53
def mV : Nat := 0x56
def mX : Nat := 0x58

def isTdes (a : Nat) : Bool := a == 1 || a == 2
def isAes (a : Nat) : Bool := a == 0x10 || a == 0x11 || a == 0x12
def isRsa (a : Nat) : Bool := a == 0x20 || a == 0x21 || a == 0x22
def isEcc (a : Nat) : Bool := a == 0x30 || a == 0x31 || a == 0x32
def isKem (a : Nat) : Bool := a == 0x40 || a == 0x41 || a == 0x42
def isMldsa (a : Nat) : Bool := a == 0x48 || a == 0x49 || a == 0x4A
def isSts (a : Nat) : Bool := a == 0x70 || a == 0x71

/-- Whether an algorithm code is defined (06 R145). -/
def algOk (a : Nat) : Bool := isTdes a || isAes a || isRsa a || isEcc a || a == 0x33 || isKem a || isMldsa a || isSts a

/-- Material bytes of a symmetric algorithm (06 R145). -/
def symLen (a : Nat) : Nat :=
  if a = 1 then 16 else if a = 2 then 24 else if a = 0x10 then 16 else if a = 0x11 then 24 else if a = 0x12 then 32
  else if a = 0x70 then 8 else if a = 0x71 then 16 else 0

/-- The order of strength: TDES two-key, three-key, AES-128, -192, -256 (06 R161). -/
def strength (a : Nat) : Nat := if isTdes a then a else if isAes a then a - 0x10 + 3 else 0

/-- Whether class, usage, algorithm and mode go together (06 R145, 11 R315). -/
def comboOk (cls usage alg mode : Nat) : Bool :=
  let sym := isTdes alg || isAes alg
  match cls with
  | 1 => (usage == uK0 || usage == uK1) && sym && [mB, mD, mE].contains mode
  | 2 => usage == uP0 && sym && [mB, mD, mE].contains mode
  | 3 => ((usage == uM1 || usage == uM3) && isTdes alg || (usage == uM6 || usage == uOwn 8) && isAes alg) && [mC, mG, mV].contains mode
  | 4 => usage == uD0 && sym && [mB, mD, mE, mN].contains mode
  | 5 => [uB0, uB1, uE0, uE1, uE2, uOwn 1].contains usage && sym && mode == mX
  | 6 => usage == uC0 && sym && [mC, mG, mV].contains mode
  | 7 => (usage == uV1 || usage == uV2) && sym && [mC, mG, mV].contains mode
  | 8 => (((usage == uS0 || usage == uS1) && (isRsa alg || isEcc alg || alg == 0x33 || isMldsa alg)) ||
          (usage == uD1 && (isRsa alg || isKem alg))) && (mode == mS || mode == mD)
  | 9 => (((usage == uS0 || usage == uS1) && (isRsa alg || isEcc alg || alg == 0x33 || isMldsa alg)) ||
          (usage == uD1 && (isRsa alg || isKem alg))) && (mode == mV || mode == mE)
  | 10 => isSts alg && (usage == uOwn 2 && mode == mX || usage == uOwn 3 && mode == mB)
  | 11 => (alg == 0x10 || alg == 0x12) &&
          (usage == uOwn 4 && mode == mB || usage == uOwn 5 && mode == mC || usage == uOwn 6 && mode == mD)
  | _ => false

/-- Decimal digits of a packed nibble string. -/
def bcdOk (b : Bytes) : Bool := b.all fun x => decide (x.toNat / 16 ≤ 9) && decide (x.toNat % 16 ≤ 9)

/-- Reserved PARAMS bits and bytes zero for a class (04 R12, 06 R151, 08 R235, 09 R266, 10 R288, R292, R297, 11 R331). -/
def paramsReservedOk (cls usage alg : Nat) (p : Bytes) : Bool :=
  match cls with
  | 2 => decide (field p 0 1 < 2) && zeros p 1 6
  | 4 => decide (field p 0 1 < 4) && zeros p 1 6
  | 5 => if usage == uB0 && isAes alg then zeros p 4 3 else zeros p 0 7
  | 7 => if usage == uV1 then zeros p 4 3 else zeros p 1 6
  | 8 => if isRsa alg then zeros p 3 4 else zeros p 0 7
  | 9 => if isRsa alg then zeros p 3 4 else zeros p 0 7
  | 10 => if usage == uOwn 2 then zeros p 5 2 else zeros p 4 3
  | 11 => zeros p 1 6
  | _ => zeros p 0 7

/-- PARAMS values that make a record KEY_USAGE at creation (10 R297, 11 R315, R331). -/
def paramsUsageOk (cls usage alg : Nat) (p : Bytes) : Bool :=
  match cls with
  | 7 =>
    if usage == uV1 then bcdOk (p.take 3) && decide (4 ≤ field p 3 1) && decide (field p 3 1 ≤ 12) else decide (field p 0 1 ≤ 6)
  | 10 =>
    if usage == uOwn 2 then
      (field p 0 1 == 2 && alg == 0x70 || field p 0 1 == 4 && alg == 0x71) && bcdOk (slice p 1 3) &&
        decide (1 ≤ field p 4 1) && decide (field p 4 1 ≤ 9)
    else decide (field p 0 1 ≤ 2) && decide (1 ≤ field p 1 1) && decide (field p 1 1 ≤ 9) && decide (field p 2 1 ≤ 3) &&
      decide (field p 3 1 ≤ 99)
  | 11 => (decide (field p 0 1 ≤ 1) && alg == 0x10) || (field p 0 1 == 2 && alg == 0x12)
  | _ => true

/-- RSA modulus bits of a code's range, with 0 for its top (09 R266). -/
def modBitsOk (alg bits : Nat) : Bool :=
  bits == 0 || (decide (bits % 8 = 0) &&
    (if alg = 0x20 then decide (1024 ≤ bits) && decide (bits ≤ 2048)
     else if alg = 0x21 then decide (2056 ≤ bits) && decide (bits ≤ 3072)
     else decide (3080 ≤ bits) && decide (bits ≤ 4096)))

/-- MOD_BITS actually used (09 R266). -/
def modBitsOf (alg bits : Nat) : Nat :=
  if bits ≠ 0 then bits else if alg = 0x20 then 2048 else if alg = 0x21 then 3072 else 4096

/-- PARAMS of an RSA record with MOD_BITS and EXP (09 R266). -/
def rsaParams (bits exp : Nat) : Bytes := natLe 2 bits ++ natLe 1 exp ++ zeroBytes 4

/-- Bytes of class 8 material (09 R264). -/
def privLen (alg bits : Nat) : Nat :=
  if isRsa alg then 4 + 5 * ((bits / 8 + 1) / 2) else if alg = 0x30 then 32 else if alg = 0x31 then 48 else if alg = 0x32 then 66
  else if alg = 0x33 then 32 else if alg = 0x40 then 1632 else if alg = 0x41 then 2400 else if alg = 0x42 then 3168
  else if alg = 0x48 then 2560 else if alg = 0x49 then 4032 else 4896

/-- Bytes of class 9 material (09 R264). -/
def pubLen (alg bits : Nat) : Nat :=
  if isRsa alg then bits / 8 + 4 else if alg = 0x30 then 64 else if alg = 0x31 then 96 else if alg = 0x32 then 132
  else if alg = 0x33 then 32 else if alg = 0x40 then 800 else if alg = 0x41 then 1184 else if alg = 0x42 then 1568
  else if alg = 0x48 then 1312 else if alg = 0x49 then 1952 else 2592

/-- The public key encoding of class 9 material (09 R267). -/
def pubEncoding (alg : Nat) (m : Bytes) : Bytes := if isEcc alg then 4 :: m else m

/-- KCV_METHOD permitted for a class and algorithm (06 R172). -/
def kcvMethodOk (cls alg m : Nat) : Bool :=
  if cls = 8 ∨ cls = 9 then m == 3 else if cls = 10 ∨ cls = 11 then m == 1 else m == 1 || (m == 2 && isAes alg)

/-- The five-byte key check value of symmetric material (06 R172). -/
def symKcv (alg method : Nat) (m : Bytes) : Bytes :=
  if isSts alg then (natBe 8 (Config.stsEncipher alg m 0)).take 5
  else if method = 2 then (aesCmac m (zeroBytes 16)).take 5
  else (encBlock (isAes alg) m (zeroBytes (blockLen (isAes alg)))).take 5

/-- The key check value of class 9 material, also that of its private record (06 R172 method 3). -/
def pubKcv (alg : Nat) (m : Bytes) : Bytes := (sha256 (pubEncoding alg m)).take 5

/-- Class 9 material of a private key, at its length: of an RSA key the product of its primes and its public exponent (09 R264). -/
def publicOf (alg bits : Nat) (priv : Bytes) : Bytes :=
  if isRsa alg then
    let n := (priv.length - 4) / 5
    natBe (pubLen alg bits - 4) (beNat (slice priv 4 n) * beNat (slice priv (4 + n) n)) ++ fitTo 4 priv
  else fitTo (pubLen alg bits) (pkPublicOf alg priv)

/-- The key check value of a record's whole material, with MOD_BITS of an RSA key. -/
def kcvOf (cls alg bits method : Nat) (m : Bytes) : Bytes :=
  if cls = 8 then pubKcv alg (publicOf alg bits m) else if cls = 9 then pubKcv alg m else symKcv alg method m

/-! ## Finding records -/

/-- Records of a key in this module's vault, every version and chain member. -/
def recsOfKey (d : Dev) (key : Nat) : List Record := (d.vmp.slots.filter fun p => keyOf p.2.handle == key).map fun p => fromVault d p.2

/-- The head a handle names: the ACTIVE version for version 0, an ACTIVE or RETIRING one by its version (06 R158 step 3). -/
def resolveIn (l : List Record) (h : Nat) : Option Record :=
  l.find? fun r => r.chainPos == 0 &&
    (if hVersion h = 0 then r.st == 0x55 else r.handle == h && (r.st == 0x55 || r.st == 0x96))

/-- The records of a handle's key that a command of context k can see: this module's, or those transferred for it (12 R363). -/
def storeOf (d : Dev) (k h : Nat) : List Record :=
  let c := ctxOf d k
  let live := if holds d h then recsOfKey d (keyOf h) else c.transferred.filter fun r => keyOf r.handle == keyOf h
  match (if c.engineBegun then resolveIn c.loaded h else none) with
  | none => live
  | some r0 =>
    let own := live.filter fun r => r.handle == r0.handle
    if own.isEmpty then c.loaded.filter fun r => r.handle == r0.handle
    else own.map fun r => if r.chainPos = 0 then { r with st := r0.st } else r

/-- The chain of a head, in order. -/
def chainIn (l : List Record) (head : Record) : List Record :=
  sortBy Record.chainPos (l.filter fun r => r.handle == head.handle)

/-- Whether a record holds an undefined STATE (06 R152). -/
def stateUndefined (r : Record) : Bool := !(r.st == 0x33 || r.st == 0x55 || r.st == 0x96 || r.st == 0xF0)

/-- Whether a chain is whole, none of it lies on a poisoned line and each record's STATE is defined (06 R152, R153, R155). -/
def chainIntact (l : List Record) (head : Record) : Bool :=
  let c := chainIn l head
  c.map Record.chainPos == List.range head.chainLen && c.all fun r => !r.poisoned && !stateUndefined r

/-- The whole material of a chain (09 R265). -/
def materialIn (l : List Record) (head : Record) : Bytes := (chainIn l head).flatMap Record.material



/-- The slot of a record of this module. -/
def slotOf (d : Dev) (handle chainPos : Nat) : Option Nat :=
  (d.vmp.slots.find? fun p => p.2.handle == handle && p.2.chainPos == chainPos).map Prod.fst

/-! ## The key checks (06 R158) -/

/-- Steps 1 and 2: tenant, class and CLASS_MASK of the policy the command is held to (not for a command that another member admitted). -/
def tenantStep (c : Cmd) (d : Dev) (h : Nat) : Option Nat :=
  if hTenant h ≠ c.tenant ∨ hClass h = 0 ∨ 11 < hClass h then some stKeyNotFound
  else if !c.inbound && !bit ((ctxOf d c.k).policy.getD (tn d c.tenant).classMask) (hClass h) then some stNotPermitted
  else none

/-- Steps 3 and 4: the record exists and can be read intact. -/
def readStep (d : Dev) (k h : Nat) : Except Nat (Record × Bytes) :=
  if d.vmp.st = 0xF0 then .error stKeyUnavailable
  else
    let l := storeOf d k h
    match resolveIn l h with
    | none =>
      if d.vmp.report.any (fun p => keyOf p.1 == keyOf h && (hVersion h == 0 || p.1 == h)) then .error stKeyUnavailable
      else if (joined d && (mapOf d (bucketOf h)).st == 5) || (!joined d && !holds d h) then .error stKeyUnavailable
      else if l.any fun r => stateUndefined r && (hVersion h == 0 || r.handle == h) then .error stKeyUnavailable
      else .error stKeyNotFound
    | some r => if chainIntact l r then .ok (r, materialIn l r) else .error stKeyUnavailable

/-- Step 6: the validity window. -/
def timeOk (d : Dev) (r : Record) : Bool := decide (r.notBefore ≤ now d) && decide (now d < r.notAfter)

/-- One more than the high-water mark of a handle (08 R239); 0 for none. -/
def pastMark (d : Dev) (h : Nat) : Nat := tabGet 0 d.keys.marks h

/-- The high-water mark of a handle noted. -/
def noteMark (d : Dev) (h v : Nat) : Dev := { d with keys.marks := tabPut 0 d.keys.marks h (v + 1) }

/-- INVOCATIONS that a transferred record, or one that arrives by placement, takes (08 R239). -/
def arrivalInvocations (d : Dev) (r : Record) : Nat :=
  max r.invocations (max d.keys.floor (pastMark d r.handle))

/-- The last value taken of a record: its own INVOCATIONS, or for a transferred record at least the module's mark. -/
def invocationsOf (d : Dev) (r : Record) : Nat := if holds d r.handle then r.invocations else max r.invocations (pastMark d r.handle - 1)

/-- The floor in force after a use that takes values up to `last` (06 R157). -/
def floorFor (floor last : Nat) : Nat := floor + 2 ^ 40 * ((last - floor) / 2 ^ 40)

/-- Step 7: `n` values can be taken (06 R156, R157; 08 R238). -/
def counterOk (d : Dev) (r : Record) (n : Nat) : Bool :=
  !d.keys.floorSpent && decide (invocationsOf d r + n < 2 ^ 64) && decide (floorFor d.keys.floor (invocationsOf d r + n) ≤ 0xFFFFFF0000000000)

/-- Steps 1 to 4 of R158 for one handle. -/
def readKey (c : Cmd) (d : Dev) (h : Nat) : Except Nat (Record × Bytes) :=
  match tenantStep c d h with
  | some st => .error st
  | none => readStep d c.k h

/-- The first value that context k's engine has taken of a handle before it began (08 R238). -/
def takenOf (d : Dev) (k h : Nat) : Option Nat := (ctxOf d k).taken.lookup h

/-- Steps 5 to 7 of R158 for a record read. A command whose engine has begun was in its window then, and the values it took stay its own. -/
def useSteps (d : Dev) (k : Nat) (perm : Record → Bool) (n : Nat) (x : Record × Bytes) : Except Nat (Record × Bytes) :=
  if !perm x.1 then .error stKeyUsage
  else if !(ctxOf d k).engineBegun && !timeOk d x.1 then .error stKeyExpired
  else if (takenOf d k x.1.handle).isNone && !counterOk d x.1 n then .error stNonceExhausted
  else .ok x

/-- Steps 1 to 7 of R158 for one handle, taking `n` counter values. -/
def useKey (c : Cmd) (d : Dev) (h : Nat) (perm : Record → Bool) (n : Nat) : Except Nat (Record × Bytes) :=
  match readKey c d h with
  | .error st => .error st
  | .ok x => useSteps d c.k perm n x

/-- The first status of a list of key checks. -/
def firstError : List (Except Nat (Record × Bytes)) → Option Nat
  | [] => none
  | .error st :: _ => some st
  | .ok _ :: t => firstError t

/-- The key that a check found; a blank record where it found none, which no effect meets. -/
def got : Except Nat (Record × Bytes) → Record × Bytes
  | .ok x => x
  | .error _ => ({}, [])

/-- The first status two checks give, in order. -/
def orElse (a b : Option Nat) : Option Nat := if a.isSome then a else b

/-! ## Using a key (06 R156, R157; 08 R238, R239) -/

/-- The content of root slot 5: the floor, then the minimum SECURITY_VERSION (06 R169). -/
def floorContent (floor minSec : Nat) : Bytes := natLe 8 floor ++ natLe 4 minSec

/-- The minimum SECURITY_VERSION in the root store; 1 where the slot is empty. -/
def minSecurity (d : Dev) : Nat := match slotInForce d 5 with | some b => max 1 (field b 8 4) | none => 1

/-- One step of the floor, written to the root store and verified; at its limit it stays, and no key can be used any more (06 R157). -/
def floorStep (d : Dev) : Dev :=
  let f := d.keys.floor + 2 ^ 40
  if 0xFFFFFF0000000000 < f then { d with keys.floorSpent := true }
  else { commitRoot d 5 (floorContent f (minSecurity d)) [] with keys.floor := f }

/-- Steps of the floor, `n` of them. -/
def floorSteps : Nat → Dev → Dev
  | 0, d => d
  | n + 1, d => floorSteps n (floorStep d)

/-- INVOCATIONS of a record set: in this module's vault, or in the copies transferred for context k with the high-water mark. -/
def setInvocations (d : Dev) (k : Nat) (r : Record) (v : Nat) : Dev :=
  if holds d r.handle then
    match slotOf d r.handle 0 with
    | some s => putAt d s { recordAt d s with invocations := v }
    | none => d
  else
    let d1 := noteMark d r.handle v
    modCtx d1 k fun c => { c with transferred := c.transferred.map fun x =>
      if x.handle == r.handle && x.chainPos == 0 then { x with invocations := v } else x }

/-- `n` consecutive counter values of a record taken for context k, before the use; the first of them is returned. What its engine has taken
before it began is not taken again. -/
def takeValues (d : Dev) (k : Nat) (r : Record) (n : Nat) : Nat × Dev :=
  match takenOf d k r.handle with
  | some v => (v, d)
  | none =>
    let v := invocationsOf d r
    let d1 := floorSteps ((v + n - d.keys.floor) / 2 ^ 40) d
    (v + 1, setInvocations d1 k r (v + n))

/-- Values reserved before the first block (08 R238): a whole range of each record, kept for context k. -/
def reserve (k : Nat) : List (Record × Nat) → Dev → Dev
  | [], d => d
  | x :: t, d =>
    let v := takeValues d k x.1 x.2
    reserve k t (modCtx v.2 k fun c => { c with taken := (x.1.handle, v.1) :: c.taken })

/-- One use of a record. -/
def useOnce (d : Dev) (k : Nat) (r : Record) : Dev := (takeValues d k r 1).2

/-- Completion of a command that used records: OK_RETIRING_KEY where one was RETIRING (06 R158). -/
def okUsing (used : List Record) (result data : Bytes) (outs : List (Nat × Bytes)) : Fin :=
  .done { status := if used.any (·.st == 0x96) then stOkRetiring else stOk, result := fitTo 16 result, data, outs }

/-! ## Change sequences (07 R220; 12 R361, R362) -/

/-- The next CHANGE_SEQ: the ring clock raised by one, its floor kept above it, the member number of a ring member. -/
def nextChange (d : Dev) : Nat × Dev :=
  let c := d.ring.clock + 1
  (c * 16 + (if joined d then memberNo d else 0),
   { d with ring.clock := c, ring.clockFloor := if d.ring.clockFloor ≤ c then d.ring.clockFloor + 2 ^ 32 else d.ring.clockFloor })

/-- The ring clock raised to a value received or loaded (12 R361, R362). -/
def raiseClock (d : Dev) (c : Nat) : Dev := { d with ring.clock := max d.ring.clock c }

/-- Each record of a list with its own next CHANGE_SEQ, in order. -/
def stampAll : List Record → Dev → List Record × Dev
  | [], d => ([], d)
  | r :: t, d =>
    let x := nextChange d
    let y := stampAll t x.2
    ({ r with changeSeq := x.1 } :: y.1, y.2)

/-! ## Edits of the vault (06 R159, R167) -/

/-- Record slots of the vault as built and in use. -/
def capacity (d : Dev) : Nat := slotCount d.vmp.n
def inUse (d : Dev) : Nat := d.vmp.slots.length

/-- Slots in use. -/
def usedSlots (d : Dev) : List Nat := d.vmp.slots.map Prod.fst

/-- The lowest slot from `k` on that is not in use and lies in no unit that is lost (log entry 17). -/
def openSlot (d : Dev) (used : List Nat) : (fuel k : Nat) → Nat
  | 0, k => k
  | f + 1, k =>
    if used.contains k then openSlot d used f (k + 1)
    else match d.vmp.poison.find? fun e => unitLost d e.2 && (inUnit d.vmp.n e.2 (2 * k) || inUnit d.vmp.n e.2 (2 * k + 1)) with
      | some e => openSlot d used f ((e.2.first + poisonLines d.vmp.n e.2.level + 1) / 2)
      | none => if indexLost d k then openSlot d used f (31 * (indexEntry k + 1)) else k

/-- Free record slots in rising order, `n` of them, beside those in use (log entry 17). -/
def freeSlots (d : Dev) : (n : Nat) → (used : List Nat) → List Nat
  | 0, _ => []
  | n + 1, used =>
    let s := openSlot d used (used.length + 2 * d.vmp.poison.length + 1) 0
    s :: freeSlots d n (insertNat used s)

/-- Whether `n` more records have room beside the slots in use (06 R159). -/
def roomFor (d : Dev) (n : Nat) (used : List Nat) : Bool := (freeSlots d n used).all fun s => decide (s < capacity d)

/-- The index remembered as used by a tenant and class (06 R150). -/
def rememberIndex (d : Dev) (h : Nat) : Dev :=
  let key := hTenant h * 16 + hClass h
  let l := tabGet [] d.keys.everUsed key
  if l.contains (hIndex h) then d else { d with keys.everUsed := tabPut [] d.keys.everUsed key (insertNat l (hIndex h)) }

/-- Grants on a destroyed version end by forced release (06 R168, 08 R252). -/
def endGrantsOn (d : Dev) (handle : Nat) : Dev :=
  (d.tenants.filter fun p => match p.2.grant with | some g => g.handle == handle | none => false).foldl (fun d p => forceRelease d p.1) d

/-- NOTICE frames to members that registered a grant on a destroyed version (12 R364). -/
def sendNotices (d : Dev) (handle : Nat) : Dev :=
  (d.ring.grants.filter (·.1 == handle)).foldl (fun d g => sendFrame d g.2 (.notice handle))
    { d with ring.grants := d.ring.grants.filter (·.1 != handle) }

/-- What follows the destruction of one version: grants end, notices go out, the report forgets it. -/
def afterDestroy (d : Dev) (handle : Nat) : Dev :=
  let d1 := unreport (endGrantsOn d handle) handle
  if joined d1 then sendNotices d1 handle else d1

/-- An edit: records written (whole chains) and records destroyed. -/
structure Edit where
  puts : List Record
  drops : List Record
deriving DecidableEq, Repr

/-- The slot a record of an edit is written to: its own, or a free one. -/
def slotsFor (d : Dev) (e : Edit) : List (Nat × Record) :=
  let mine := e.puts.filter fun r => holds d r.handle
  let old := mine.filterMap fun r => (slotOf d r.handle r.chainPos).map fun s => (s, r)
  let new := mine.filter fun r => (slotOf d r.handle r.chainPos).isNone
  old ++ (freeSlots d new.length (usedSlots d)).zip new

/-- A tombstone kept; the oldest beyond 1,048,576 is forgotten (07 R220). -/
def keepTomb (l : List Record) (t : Record) : List Record := (l ++ [t]).drop (l.length + 1 - 1048576)

/-- The tombstone of a record: STATE DESTROYED, MATERIAL and INVOCATIONS zero (07 R219). -/
def tombOf (r : Record) : Record := { r with st := 0xF0, material := zeroBytes r.material.length, invocations := 0, poisoned := false, tag := [] }

/-- The owner code of tenant n's lock request in TRANSFER frames: contexts are 0 to 4,095 (log entry 31). -/
def lockCtx (n : Nat) : Nat := 4096 + n

/-- Members with a grant on a version that is now RETIRING are sent its head, so that commands under the grant say so (08 R250; log entry 97). -/
def tellRetiring (d : Dev) (r : Record) : Dev :=
  if joined d && r.st == 0x96 && r.chainPos == 0 then
    (d.ring.grants.filter (·.1 == r.handle)).foldl (fun d g => sendFrame d g.2 (.transfer false r.handle (lockCtx (hTenant r.handle)) [r])) d
  else d

/-- One stored record of an edit put in its slot. -/
def storeOne (d : Dev) (p : Nat × Record) : Dev := tellRetiring (rememberIndex (putAt d p.1 p.2) p.2.handle) p.2

/-- One record destroyed: its slot freed, its tombstone kept. -/
def dropOne (d : Dev) (r : Record) : Dev :=
  let d1 := if holds d r.handle then { d with vmp.tombs := keepTomb d.vmp.tombs (tombOf r) } else d
  let d2 := match slotOf d1 r.handle r.chainPos with
    | some s => freeAt d1 s
    | none => d1
  if r.chainPos = 0 then afterDestroy d2 r.handle else d2

/-- Whether an index is known to have held a record (06 R150). -/
def indexUsed (d : Dev) (h : Nat) : Bool := (tabGet [] d.keys.everUsed (hTenant h * 16 + hClass h)).contains (hIndex h)

/-- The indexes that a list of records uses first, for every member of the ring to know (06 R150; log entry 92). -/
def newIndexes (d : Dev) (l : List Record) : List Change :=
  if joined d then ((l.filter fun r => r.chainPos == 0 && !indexUsed d r.handle).map fun r => Change.used r.handle).eraseDups else []

/-- The records of an edit stored and destroyed, with new change sequences; the changes are noted for replication (12 R359). -/
def storeEdit (d : Dev) (e : Edit) : Dev :=
  let p := stampAll e.puts d
  let q := stampAll e.drops p.2
  let d1 := q.2
  let d2 := q.1.foldl dropOne ((slotsFor d1 { puts := p.1, drops := q.1 }).foldl storeOne d1)
  let d3 := (p.1.filter fun r => !holds d1 r.handle).foldl (fun d r => rememberIndex d r.handle) d2
  { d3 with vmp.changes := d3.vmp.changes ++ p.1.map Change.put ++ q.1.map (fun r => Change.drop (tombOf r)) ++ newIndexes d e.puts }

/-- An edit applied as one step; false (BUSY) where a group is frozen, and nothing changes but the freeze (07 R205). -/
def applyEdit (d : Dev) (e : Edit) : Dev × Bool :=
  let slots := (slotsFor d e).map Prod.fst
  let gone := e.drops.filterMap fun r => slotOf d r.handle r.chainPos
  let fresh := slots.filter fun s => !(usedSlots d).contains s
  match writeSlots (slots ++ gone) (fresh ++ gone) d with
  | (d1, false) => (d1, false)
  | (d1, true) => (storeEdit d1 e, true)

/-! ## New records -/

/-- The attributes and material of a key to be created. -/
structure NewKey where
  handle : Nat
  alg : Nat
  usage : Nat
  mode : Nat
  expo : Nat
  kcvMethod : Nat
  params : Bytes
  notBefore : Nat
  notAfter : Nat
  material : Bytes
deriving DecidableEq, Repr

/-- The key check value of a new key. -/
def NewKey.kcv (n : NewKey) : Bytes := kcvOf (hClass n.handle) n.alg (if isRsa n.alg then field n.params 0 2 else 0) n.kcvMethod n.material

/-- CHAIN_LEN of a material length (06 R153). -/
def chainLenOf (bytes : Nat) : Nat := max 1 ((bytes + 63) / 64)

/-- The chain of a new key in a state, with INVOCATIONS at the floor (06 R151, R153, R156; 09 R265). -/
def NewKey.chain (n : NewKey) (floor st retiring : Nat) : List Record :=
  let len := chainLenOf n.material.length
  (List.range len).map fun i =>
    if i = 0 then
      { handle := n.handle, alg := n.alg, usage := n.usage, mode := n.mode, expo := n.expo, st, kcvMethod := n.kcvMethod, retiring,
        chainPos := 0, chainLen := len, kcv := n.kcv, params := fitTo 7 n.params, notBefore := n.notBefore, notAfter := n.notAfter,
        invocations := floor, material := n.material.take 64 }
    else { handle := n.handle, st, chainPos := i, chainLen := len, material := slice n.material (64 * i) 64 }

/-- Whether a key is named already: a version of it that is not destroyed (06 R160 KEY_EXISTS). -/
def keyExists (d : Dev) (k h : Nat) : Bool :=
  ((storeOf d k h).any fun r => r.chainPos == 0 && r.st != 0xF0) || d.vmp.report.any fun p => keyOf p.1 == keyOf h

/-- The index the module chooses: the lowest never used in any of the classes given (06 R150). -/
def chosenIndex (d : Dev) (tenant : Nat) (classes : List Nat) : Nat :=
  let used := (classes.flatMap fun c => tabGet [] d.keys.everUsed (tenant * 16 + c)).foldl insertNat []
  lowestNotIn used (used.length + 1) 0

/-- The handle of a new key at version 1: INDEX 0xFFFF_FFFF asks the module to choose (06 R148, R150). -/
def newHandle (d : Dev) (h : Nat) (classes : List Nat) : Nat :=
  mkHandle (hTenant h) (hClass h) (if hIndex h = 0xFFFFFFFF then chosenIndex d (hTenant h) classes else hIndex h) 1

/-- A creation meets no key that exists (06 R160). DESIGN CHOICE: any class and usage may be created at INDEX 0xFFFF_FFFE, for which the manual names
the attestation key alone (06 R148; log entry 94). -/
def existsCheck (c : Cmd) (d : Dev) (h : Nat) : Option Nat :=
  orElse (tenantStep c d h)
    (firstFail [(d.vmp.st == 0xF0, stKeyUnavailable), (hIndex h != 0xFFFFFFFF && keyExists d c.k h, stKeyExists)])

/-- A creation finds an index left to choose (17 R493) and room for its chains (06 R159); where it is held elsewhere, its holders judge the room. -/
def roomCheck (d : Dev) (h records : Nat) : Option Nat :=
  firstFail [(hIndex h == 0xFFFFFFFF && decide (0xFFFFFFFD < chosenIndex d (hTenant h) (if hClass h = 8 then [8, 9] else [hClass h])), stVaultFull),
    (holds d h && !roomFor d records (usedSlots d), stVaultFull)]

/-- The checks of a creation in the order of its card: KEY_EXISTS, KEY_USAGE of the combination, VAULT_FULL (06 R179, R186). -/
def createCheck (c : Cmd) (d : Dev) (h : Nat) (usageOk : Bool) (records : Nat) : Option Nat :=
  orElse (existsCheck c d h) (orElse (firstFail [(!usageOk, stKeyUsage)]) (roomCheck d h records))

/-- The handle and KCV a creating command returns: bytes 0–7 and 8–12. -/
def handleKcv (h : Nat) (kcv : Bytes) : Bytes := natLe 8 h ++ kcv

/-- Chains written as new keys, or BUSY with nothing created. -/
def createAll (d : Dev) (l : List NewKey) (fin : Fin) : Dev × Fin :=
  match applyEdit d { puts := l.flatMap fun n => n.chain d.keys.floor 0x55 0, drops := [] } with
  | (d1, true) => (d1, fin)
  | (d1, false) => (d1, failWith stBusy)

/-! ## Replacement and destruction (06 R165, R167, R184) -/

/-- The ACTIVE head of a key that HANDLE names by version 0 or by its own version (06 R165 step 1). -/
def activeNamed (l : List Record) (h : Nat) : Option Record :=
  l.find? fun r => r.chainPos == 0 && r.st == 0x55 && (hVersion h == 0 || r.handle == h)

/-- The RETIRING chain of a key. -/
def retiringOf (l : List Record) : List Record := l.filter fun r => r.st == 0x96

/-- The slots in use once the records of a list are gone. -/
def usedWithout (d : Dev) (gone : List Record) : List Nat :=
  (d.vmp.slots.filter fun p => !gone.any fun r => r.handle == p.2.handle && r.chainPos == p.2.chainPos).map Prod.fst

/-- Checks of a replacement: steps 1 and 2 of R165, then room, which a retiring version that is dropped leaves free. -/
def replaceCheck (c : Cmd) (d : Dev) (h : Nat) (drop : Bool) (records : Nat) : Option Nat :=
  let l := storeOf d c.k h
  orElse (tenantStep c d h)
    (if d.vmp.st = 0xF0 then some stKeyUnavailable
     else match activeNamed l h with
      | none => match readStep d c.k h with
        | .error st => some st
        | .ok _ => some stKeyNotFound
      | some v =>
        firstFail [(!chainIntact l v, stKeyUnavailable), (hVersion v.handle == 0xFFFE, stVersionLimit),
          (!drop && !(retiringOf l).isEmpty, stRetiringPresent),
          (holds d h && !roomFor d records (usedWithout d (if drop then retiringOf l else [])), stVaultFull)])

/-- Step 6 of R165 as one edit: the new version ACTIVE with RETIRING_VERSION, the old one RETIRING. -/
def activateEdit (l : List Record) (v : Record) (floor retireAt : Nat) (n : NewKey) : Edit :=
  let until' := if retireAt = 0 then v.notAfter else min v.notAfter retireAt
  { puts := n.chain floor 0x55 (hVersion v.handle) ++
      (chainIn l v).map (fun r => { r with st := 0x96, retiring := 0, notAfter := if r.chainPos = 0 then until' else r.notAfter }),
    drops := [] }

/-- The versions a KEY_DESTROY of a handle destroys (06 R184): every version, or the one named. -/
def destroyed (l : List Record) (h : Nat) : List Record :=
  l.filter fun r => (r.st == 0x55 || r.st == 0x96) && (hVersion h == 0 || r.handle == h)

/-- The edit of a destruction: an ACTIVE head that named a destroyed retiring version names none any more (06 R167). -/
def destroyEdit (l gone : List Record) : Edit :=
  { puts := (l.filter fun r => r.chainPos == 0 && r.st == 0x55 && r.retiring != 0 && !gone.contains r &&
        gone.any fun x => hVersion x.handle == r.retiring).map (fun r => { r with retiring := 0 }),
    drops := gone }

/-- Steps 2 to 6 of R165 on a key whose records are `l` and whose ACTIVE head is `v`: the dropped retiring version destroyed, the new version
PENDING, its check value and test, then ACTIVE; a failure destroys the PENDING version alone. The status returned; 0 for success. -/
def replaceRun (d : Dev) (l : List Record) (v : Record) (n : NewKey) (retireAt : Nat) (expected : Bytes) (testPasses : Bool) : Dev × Nat :=
  let old := retiringOf l
  match (if old.isEmpty then (d, true) else applyEdit d (destroyEdit l old)) with
  | (d1, false) => (d1, stBusy)
  | (d1, true) =>
    let floor := d1.keys.floor
    match applyEdit d1 { puts := n.chain floor 0x33 0, drops := [] } with
    | (d2, false) => (d2, stBusy)
    | (d2, true) =>
      let undo := (applyEdit d2 { puts := [], drops := n.chain floor 0xF0 0 }).1
      if expected.any (· != 0) && n.kcv != expected then (undo, stKeyCheckFail)
      else if !testPasses then (undo, stKeyTestFail)
      else
        match applyEdit d2 (activateEdit l v floor retireAt n) with
        | (d3, true) => (d3, stOk)
        | (_, false) => (undo, stBusy)

end Sys2Proof.Machine
end

