-- ==== Sys2Proof/Machine/RingOps.lean ====
section
/-! DEFINITION. The placement engine's shared operations (12 R357 to R366): choice of a holder, forwarding, change locks, replication and the
outcome cache, sealed transfers asked for and answered. -/

namespace Sys2Proof.Machine

/-! ## Choice of a holder (12 R357, R358) -/

/-- Commands of this module outstanding at a member. -/
def outstandingAt (d : Dev) (m : Nat) : Nat := countCtx d fun c => ctxHeld c && c.origin.isNone && c.sentTo == some m

/-- Whether a member may be sent a command. -/
def eligible (d : Dev) (m : Nat) : Bool :=
  let p := peerOf d m
  m != memberNo d && bit d.ring.present m && p.pace != 0 && (match p.beatAt with | some t => decide (now d ≤ t + 3000) | none => false) &&
    decide (outstandingAt d m < 28)

/-- Whether member a is preferred to member b: the lower cost, then fewer hops, then the lower number. -/
def prefers (d : Dev) (a b : Nat) : Bool :=
  let ca := (outstandingAt d a + 1) * (peerOf d b).pace
  let cb := (outstandingAt d b + 1) * (peerOf d a).pace
  decide (ca < cb) || (decide (ca = cb) && (decide (hopsTo d a < hopsTo d b) || (decide (hopsTo d a = hopsTo d b) && decide (a < b))))

/-- The best of a list of members. -/
def bestOf (d : Dev) : List Nat → Option Nat
  | [] => none
  | m :: t => match bestOf d t with | none => some m | some x => if prefers d m x then some m else some x

/-- The holder a command with routing handle h goes to; a command that changes records goes to an eligible PRIMARY. -/
def chooseHolder (d : Dev) (h : Nat) (changes : Bool) : Option Nat :=
  let e := mapOf d (bucketOf h)
  if e.st = 5 then none
  else if changes && eligible d e.primary then some e.primary
  else bestOf d ([e.primary, e.secondary].filter (eligible d))

/-! ## Forwarding (12 R21, R22, R360) -/

/-- The issue number of a command that leaves this module or changes records here; a re-issue keeps it (12 R360). -/
def giveIssue (d : Dev) (k : Nat) : Dev :=
  if (ctxOf d k).issue = 0 then modCtx { d with ring.issueNo := d.ring.issueNo + 1 } k fun c => { c with issue := d.ring.issueNo } else d

/-- A command sent to a member; it stays in its context until the reply returns (05 R121). -/
def forwardTo (d : Dev) (k m : Nat) (i : Inputs) : Dev :=
  let d1 := giveIssue d k
  let c := ctxOf d1 k
  let f : Forwarded := { issue := c.issue, originCtx := k, tenant := fnCode c.fn, gen := c.gen, level := c.level, entry := c.entry, inputs := i }
  let d2 := park { d1 with ring.forwarded := d1.ring.forwarded + 1 } k .ringReply
  sendFrame (modCtx d2 k fun c => { c with sentTo := some m, inputs := some i }) m (.forward f)

/-- A command without an eligible holder waits for one (12 R358). -/
def routeOut (d : Dev) (k h : Nat) (changes : Bool) (i : Inputs) : Dev :=
  match chooseHolder d h changes with
  | some m => forwardTo (modCtx d k fun c => { c with routeH := some h }) k m i
  | none =>
    if (mapOf d (bucketOf h)).st = 5 then endWith d k stKeyUnavailable
    else park (modCtx d k fun c => { c with inputs := some i, routeH := some h }) k .holder

/-! ## Sealed transfer (12 R363) -/

/-- A record asked for: a TRANSFER request, and the command waits. -/
def askTransfer (d : Dev) (k h : Nat) (i : Inputs) : Dev :=
  let e := mapOf d (bucketOf h)
  let m := (chooseHolder d h false).getD e.primary
  let d1 := modCtx d k fun c => { c with asked := h :: c.asked, askedAt := m, inputs := some i }
  sendFrame (park d1 k (.transfer h)) m (.transfer true h k [])

/-- The records that answer a request: the version named with its chain, marked unreadable where it is not intact; with version 0 the RETIRING
version too, which a replacement away from the holders needs (11 R337; log entry 31). -/
def transferAnswer (d : Dev) (h : Nat) : List Record :=
  let l := recsOfKey d (keyOf h)
  match resolveIn l h with
  | none => []
  | some r => if chainIntact l r && d.vmp.st != 0xF0 then chainIn l r ++ (if hVersion h = 0 then l.filter (·.st == 0x96) else []) else [{ r with poisoned := true }]

/-! ## Change locks (12 R359) -/

/-- The lock of a key at PRIMARY. -/
def lockOf (d : Dev) (key : Nat) : Option ChangeLock := d.ring.locks.find? (·.key == key)

/-- A lock granted to a member's command: noted in its context here, or told by a frame. -/
def grantLock (d : Dev) (key : Nat) (dest : Nat × Nat) : Dev :=
  if dest.1 = memberNo d then
    wake (modCtx d dest.2 fun c => { c with locksHeld := key :: c.locksHeld }) dest.2
  else sendFrame d dest.1 (.changeLock true key dest.2)

/-- A request for a lock at PRIMARY: granted at once, or queued. -/
def requestLock (d : Dev) (key : Nat) (who : Nat × Nat) : Dev :=
  match lockOf d key with
  | none => grantLock { d with ring.locks := d.ring.locks ++ [{ key, holder := who, waiters := [] }] } key who
  | some l =>
    { d with ring.locks := d.ring.locks.map fun x => if x.key == key then { l with waiters := l.waiters ++ [who] } else x }

/-- A lock released at PRIMARY: it passes to the oldest waiter. -/
def releaseLock (d : Dev) (key : Nat) : Dev :=
  match lockOf d key with
  | none => d
  | some l =>
    match l.waiters with
    | [] => { d with ring.locks := d.ring.locks.filter (·.key != key) }
    | w :: t =>
      grantLock { d with ring.locks := d.ring.locks.map fun x => if x.key == key then { l with holder := w, waiters := t } else x } key w

/-- The PRIMARY of a key's bucket. -/
def primaryOf (d : Dev) (key : Nat) : Nat := (mapOf d (bucketOf (key * 2 ^ 16))).primary

/-- Every lock a command holds given back: in a ring, at this module, or to the key's PRIMARY (log entry 18). -/
def releaseLocks (d : Dev) (k : Nat) : Dev :=
  let l := if joined d then (ctxOf d k).locksHeld else []
  let d1 := modCtx d k fun c => { c with locksHeld := [] }
  l.foldl (fun d key => if primaryOf d key = memberNo d then releaseLock d key else sendFrame d (primaryOf d key) (.changeLock true key k)) d1

/-- What taking the locks of a command comes to: all held, BUSY, or a wait. -/
inductive LockResult
  | held (d : Dev)
  | busy
  | waits (d : Dev)

/-- The locks of keys taken one by one in order. -/
def takeLocks (k : Nat) (busyOnHold : Bool) : List Nat → Dev → LockResult
  | [], d => .held d
  | key :: t, d =>
    if (ctxOf d k).locksHeld.contains key then takeLocks k busyOnHold t d
    else if primaryOf d key = memberNo d then
      match lockOf d key with
      | none =>
        takeLocks k busyOnHold t (modCtx { d with ring.locks := d.ring.locks ++ [{ key, holder := (memberNo d, k), waiters := [] }] } k
          fun c => { c with locksHeld := key :: c.locksHeld })
      | some _ => if busyOnHold then .busy else .waits (park (requestLock d key (memberNo d, k)) k (.changeLock key))
    else .waits (sendFrame (park d k (.changeLock key)) (primaryOf d key) (.changeLock false key k))

/-- Whether another command holds a key's exclusive hold here: the change lock of a ring member that orders the key, or on a module outside a ring the
hold itself (06 R165). -/
def heldByOther (d : Dev) (k key : Nat) : Bool :=
  if joined d then decide (primaryOf d key = memberNo d) && (lockOf d key).isSome && !(ctxOf d k).locksHeld.contains key
  else d.sch.ctxs.any fun p => p.1 != k && ctxHeld p.2 && p.2.locksHeld.contains key

/-- Exclusive holds of keys taken on a module outside a ring (06 R165). -/
def holdKeys (d : Dev) (k : Nat) (keys : List Nat) : Dev := modCtx d k fun c => { c with locksHeld := (keys ++ c.locksHeld).eraseDups }

/-! ## The outcome cache and replication (12 R359, R360) -/

/-- A cached outcome of an identity. -/
def cachedOf (d : Dev) (origin issue : Nat) : Option Reply :=
  (d.ring.cache.find? fun x => x.origin == origin && x.issue == issue).map (·.outcome)

/-- Whether the cache can take one more outcome: room, or an entry that has aged. -/
def cacheRoomFor (d : Dev) : Bool := decide (d.ring.cache.length < 8192) || d.ring.cache.any (·.aged)

/-- An outcome cached; in a full cache the oldest aged entry leaves. -/
def cachePut (d : Dev) (origin issue : Nat) (r : Reply) : Dev :=
  let l := if d.ring.cache.length < 8192 then d.ring.cache
    else match d.ring.cache.find? (·.aged) with | some x => d.ring.cache.erase x | none => d.ring.cache
  { d with ring.cache := l ++ [{ origin, issue, at' := now d, aged := false, outcome := { r with data := r.data.take 256, outs := [] } }] }

/-- The handle a change concerns; none for what concerns every member. -/
def changeHandle : Change → Option Nat
  | .put r => some r.handle
  | .drop t => some t.handle
  | .used _ => none
  | .root _ _ _ _ _ => none
  | .rootBack _ _ => none
  | .format _ => none
  | .loadEnd => none
  | .manifest _ => none

/-- The other members that must apply a change: PRIMARY, SECONDARY and INCOMING of its bucket (log entry 19), every present member for
a root slot (12 R368) and for an index used (log entry 92). -/
def changeTargets (d : Dev) (c : Change) : List Nat :=
  match changeHandle c with
  | none => (membersOf d.ring.present).filter (· != memberNo d)
  | some h =>
    let e := mapOf d (bucketOf h)
    ([e.primary, e.secondary, e.incoming].filter fun m => m != 255 && m != memberNo d && bit d.ring.present m).eraseDups

/-- The members a list of changes goes to. -/
def replicaTargets (d : Dev) (l : List Change) : List Nat := ((l.flatMap (changeTargets d)).eraseDups).foldl insertNat []

/-- The identity of a command: its origin's member number and issue number. -/
def identityOf (d : Dev) (k : Nat) : Nat × Nat :=
  match (ctxOf d k).origin with
  | some o => (o.member, o.issue)
  | none => (memberNo d, (ctxOf d k).issue)

/-- The end of a command whose changes stand everywhere: its locks released, its outcome returned. -/
def finishChange (d : Dev) (k : Nat) : Dev :=
  finishWith (releaseLocks d k) k ((ctxOf d k).held.getD (bare stInternalFault)) (((ctxOf d k).inputs.map Inputs.replyWriteOk).getD true) false

/-- The changes of command k sent to every other holder; the command ends with the last acknowledgement, or at once with none to wait for. -/
def replicate (d : Dev) (k : Nat) : Dev :=
  let c := ctxOf d k
  let r := c.held.getD (bare stInternalFault)
  if !cacheRoomFor d then park d k .cacheRoom
  else
    let d0 := giveIssue d k
    let id := identityOf d0 k
    let d1 := cachePut d0 id.1 id.2 r
    let targets := replicaTargets d1 c.changes
    let d2 := targets.foldl (fun d m =>
      sendFrame d m (.replicate false id.1 id.2 (c.changes.filter fun x => (changeTargets d1 x).contains m)
        { r with data := r.data.take 256, outs := [] })) d1
    if targets.isEmpty then finishChange d2 k
    else park { d2 with ring.waitAcks := d2.ring.waitAcks ++ [(k, targets)] } k (.joinedAcks targets.length)

/-! ## Gathering the ring's records (12 R370) -/

/-- The context a gather serves, while it still holds its command. -/
def gatherOwner (d : Dev) : Option Nat :=
  match d.ring.gatherCtx with
  | some k => if ctxHeld (ctxOf d k) && (eOpcode (ctxOf d k).entry == 0x0103 || eOpcode (ctxOf d k).entry == 0x0104) then some k else none
  | none => none

/-- The records and tombstones of the buckets whose PRIMARY this member is. -/
def primaryRecords (d : Dev) : List Record :=
  (heldRecords d ++ d.vmp.tombs).filter fun r => (mapOf d (bucketOf r.handle)).primary == memberNo d

/-- The gather has all it waits for: its command goes on. -/
def gatherCheck (d : Dev) : Dev :=
  if d.ring.syncAsked.isEmpty && d.ring.gatherLeft.isEmpty && !d.ring.gatherDone then
    match gatherOwner d with
    | none => d
    | some k => wake { d with ring.gatherDone := true } k
  else d

/-- Every member has answered: the other members are asked for the records of their buckets (log entry 31); this member's own join them. -/
def gatherRequest (d : Dev) : Dev :=
  let others := (membersOf d.ring.present).filter (· != memberNo d)
  let k := d.ring.gatherCtx.getD 0
  let d1 := { d with ring.gatherLeft := others, ring.gathered := primaryRecords d }
  gatherCheck (others.foldl (fun d m => sendFrame d m (.save k [] false)) d1)

/-- A member's answer to SYNC with its ring clock. -/
def syncAnswered (d : Dev) (m c : Nat) : Dev :=
  if d.ring.syncAsked.contains m then
    let d1 := { d with ring.syncAsked := d.ring.syncAsked.filter (· != m), ring.syncLow := min d.ring.syncLow c }
    if d1.ring.syncAsked.isEmpty then gatherRequest d1 else d1
  else d

/-- The answers to SYNC that this member owes, once every change it has assigned is applied on every holder. -/
def settleSyncs (d : Dev) : Dev :=
  if d.ring.waitAcks.isEmpty then
    d.ring.syncOwed.foldl (fun d m => if m = memberNo d then syncAnswered d m d.ring.clock else sendFrame d m (.sync true d.ring.clock))
      { d with ring.syncOwed := [] }
  else d

/-- A gather begun for context k: SYNC to every present member, this one among those that answer. -/
def gatherStart (d : Dev) (k : Nat) : Dev :=
  let others := (membersOf d.ring.present).filter (· != memberNo d)
  let d1 := { d with ring.gatherCtx := some k, ring.gatherDone := false, ring.gathered := [], ring.gatherLeft := [],
                     ring.syncAsked := insertNat others (memberNo d), ring.syncLow := d.ring.clock + 2 ^ 60, ring.syncOwed := d.ring.syncOwed ++ [memberNo d] }
  settleSyncs (others.foldl (fun d m => sendFrame d m (.sync false d.ring.clock)) d1)

/-- A gather under way begun again, after a change of the view. -/
def gatherRestart (d : Dev) : Dev :=
  match gatherOwner d with
  | some k => if d.ring.gatherDone then d else gatherStart d k
  | none => d

/-- The gather over: another command may begin one. -/
def gatherEnd (d : Dev) : Dev :=
  wakeWhere { d with ring.gatherCtx := none, ring.gatherDone := false, ring.gathered := [], ring.gatherLeft := [], ring.syncAsked := [] }
    fun c => c.wait == .saveGather

/-- An acknowledgement of a member for command k; numbers from 4096 on stand for no command. -/
def acked (d : Dev) (k m : Nat) : Dev :=
  match d.ring.waitAcks.find? (·.1 == k) with
  | none => d
  | some (_, l) =>
    let left := l.filter (· != m)
    let d1 := { d with ring.waitAcks := (d.ring.waitAcks.filter (·.1 != k)) ++ (if left.isEmpty then [] else [(k, left)]) }
    if left.isEmpty then settleSyncs (if k < 4096 then finishChange d1 k else d1)
    else if 4096 ≤ k then d1 else modCtx d1 k fun c => { c with wait := .joinedAcks left.length }

end Sys2Proof.Machine
end

