-- ==== Sys2Proof/Machine/Run.lean ====
section
/-! DEFINITION. The course of a host command through the checks of 04 R101 to its end: acceptance, lengths, host memory, parameters, routing
(12 R21), change locks, units, randomness, the card's own checks, its effect, replication (12 R359) and completion. -/

namespace Sys2Proof.Machine

/-! ## Approvals (14 R412) -/

/-- The READY session for an action and digest. -/
def sessionFor (d : Dev) (action : Nat) (digest : Bytes) : Option Nat :=
  (findAt (fun s : Session => s.code == 0x55 && s.action == action && s.digest == digest) d.lcd.sessions 0).map Prod.fst

/-! ## Steps 1 to 4 -/

/-- Step 2: the issuer is permitted by the card and, for a tenant, by its policy (04 R101, R117). -/
def issuerOk (card : Card) (d : Dev) (c : Ctx) : Bool :=
  match c.fn with
  | .pf => card.pf
  | .vf n => card.tenant && (c.origin.isSome || match card.group with | none => true | some g => bit (tn d n).groupMask g)

/-- Whether a readiness state has no vault for commands that name keys (18 R498). -/
def noVault (d : Dev) : Bool := readiness d == rdNoVault || readiness d == rdLoading

/-- Steps 1 to 4 of R101 on the entry alone. -/
def entryChecks (card : Card) (d : Dev) (c : Ctx) : Option Nat :=
  firstFail
    [ (!lcAccepts d.lcd.st card.opcode (readiness d == rdFirmwareLess), stBadOpcode),
      (!issuerOk card d c, stNotPermitted),
      (!rdAccepts (readiness d) card.opcode, rdStatus (readiness d)),
      (card.keyed.now && noVault d, stNotReady),
      (card.logs.now && d.sen.full, stLogFull),
      (!paramLenOk c.entry || !card.lenOk c.entry || decide (eReplyBytes c.entry < card.capFor c.fn), stBadLength) ]

/-- Whether the checks on the entry have been passed already, at an earlier dispatch. -/
def entryFail (card : Card) (d : Dev) (c : Ctx) : Option Nat := if c.policyPassed then none else entryChecks card d c

/-! ## Steps 5 and 6 -/

/-- The value checks deferred to step 5 (04 R101 steps 3 and 5). -/
def deferredFail (card : Card) (d : Dev) (p : Bytes) : Option Nat :=
  orElse (rdDeferred (readiness d) card.opcode p)
    (firstFail [(card.keyed.of p && noVault d, stNotReady), (card.logs.of p && d.sen.full, stLogFull)])

/-- The command at hand once parameters, descriptors and data are read, or the status of step 5 or 6 that fails. -/
def readCommand (card : Card) (d : Dev) (k : Nat) (i : Inputs) : Except Nat Cmd :=
  let c := ctxOf d k
  match paramsOf c.entry i with
  | none => .error stHostMemory
  | some p =>
    let l := i.sgl.getD []
    if eSgl c.entry && i.sgl.isNone then .error stHostMemory
    else if eSgl c.entry && !sglSumOk c.entry l then .error stBadLength
    else match deferredFail card d p with
      | some st => .error st
      | none =>
        let cmd : Cmd := { k, fn := c.fn, entry := c.entry, p, data := (i.data.getD []).take (eDataLen c.entry), i, inbound := c.origin.isSome }
        if !card.lenLate cmd then .error stBadLength
        else if !entryReservedOk c.entry || (eSgl c.entry && !sglFormOk l) || !card.paramOk cmd then .error stBadParam
        else if decide (0 < eDataLen c.entry) && i.data.isNone then .error stHostMemory
        else .ok cmd

/-! ## The end of a run -/

/-- A reply whose output writes ended in error (04 R111): the effect stands. -/
def afterOuts (i : Inputs) (r : Reply) : Reply := if !r.outs.isEmpty && !i.outWriteOk then bare stHostMemory else r

/-- The keys that a list of changes is about. -/
def changedKeys (l : List Change) : List Nat := ((l.filterMap changeHandle).map keyOf).eraseDups

/-- The records of these keys that command k saw before it changed them: this module's, or those transferred for it. -/
def recordsBefore (d : Dev) (k : Nat) (keys : List Nat) : List Record :=
  keys.flatMap fun key => if holds d (key * 2 ^ 16) then recsOfKey d key else (ctxOf d k).transferred.filter fun r => keyOf r.handle == key

/-- A finished effect: changes of a ring member are replicated first, with what they replaced kept (06 R159); every other command completes. -/
def endRun (old d : Dev) (k : Nat) (r : Reply) (i : Inputs) : Dev :=
  let l := d.vmp.changes
  let d1 := { d with vmp.changes := [] }
  if joined d1 && !l.isEmpty then
    replicate (modCtx d1 k fun c =>
      { c with held := some (afterOuts i r), changes := l, inputs := some i, undo := recordsBefore old k (changedKeys l) }) k
  else finishWith (releaseLocks d1 k) k (afterOuts i r) i.replyWriteOk false

/-- The effect of a command, and its end or wait. -/
def runEffect (card : Card) (d : Dev) (c : Cmd) : Dev :=
  match card.eff c d with
  | (d1, .done r) => endRun d d1 c.k r c.i
  | (d1, .waits w) => park (modCtx d1 c.k fun x => { x with inputs := some c.i }) c.k w



/-- A command ended with a status before its effect, its locks given back. -/
def refuse (d : Dev) (k st : Nat) : Dev := endWith (releaseLocks d k) k st

/-- The randomness a command needs: its card's, and on a lane core the counts and orders that every block draws (08 R236; log entry 95). -/
def drbgNeed (card : Card) (c : Cmd) : Nat := if card.unit c = .lane then max 1 (card.drbg c) else card.drbg c

/-- Randomness, output writes, then the effect (16 R472, 03 R73). -/
def runReady (card : Card) (d : Dev) (c : Cmd) : Dev :=
  let dr := drbgNeed card c
  let d1 := if dr = 0 then d else drbgBefore (dr = 2) d
  if decide (0 < dr) && !drbgUp d1 then park (modCtx d1 c.k fun x => { x with inputs := some c.i }) c.k .entropy
  else if card.writesOut c && !c.inbound && !bmeOf d1 c.fn && (ctxOf d1 c.k).gen == genOf d1 c.fn then
    park (modCtx d1 c.k fun x => { x with inputs := some c.i }) c.k .hostMemory
  else runEffect card (if card.unit c = .lane then drawMasks d1 else d1) c

/-- The grant a command runs under: the one it reached its lane under, or its tenant's; a run outside the grant on another lane has none (08 R251,
R253, R538). -/
def grantOf (d : Dev) (c : Cmd) : Option Grant :=
  if (ctxOf d c.k).engineBegun then (ctxOf d c.k).underGrant else (tn d c.tenant).grant

/-- The locked lane of a command under a grant; its run again after a fault of that lane is outside the grant (R538). -/
def lockedLane (card : Card) (d : Dev) (c : Cmd) : Option Nat :=
  if card.useLock c && !(ctxOf d c.k).ranAgain then (tn d c.tenant).grant.map Grant.lane else none

/-- The key a lane loads: the version that the grant holds, or the one that the handle of the operation's key names. -/
def laneKey (card : Card) (d : Dev) (c : Cmd) : Option Nat :=
  if card.useLock c then (grantOf d c).map Grant.handle
  else match card.loads c with
    | none => none
    | some h => (resolveIn (storeOf d c.k h) h).map Record.handle

/-- Class L alarm for a record of undefined STATE that the command met (06 R152). -/
def meetInvalid (card : Card) (d : Dev) (c : Cmd) : Dev :=
  match ((card.handles c).flatMap fun h => storeOf d c.k h).find? stateUndefined with
  | some r => invalidCode d 3 r.st clsL
  | none => d

/-- The device once the approval session that the command needs, if any, is used up (14 R412); none where it needs one and none is READY. -/
def approvedBy (card : Card) (d : Dev) (c : Cmd) : Option Dev :=
  match card.approval c d with
  | none => some d
  | some a =>
    if (ctxOf d c.k).approved then some d
    else (sessionFor d a.1 a.2).map fun j => modCtx (closeSession d j true) c.k fun x => { x with approved := true }

/-- The card's own checks (04 R101 step 7), its approval first (14 R412), then a unit. -/
def runChecks (card : Card) (d : Dev) (c : Cmd) : Dev :=
  match card.preCheck c d with
  | some st => refuse d c.k st
  | none =>
    match approvedBy card d c with
    | none => refuse d c.k stDualControl
    | some d1 =>
      match card.check c d1 with
      | some st => refuse (meetInvalid card d1 c) c.k st
      | none =>
        match takeUnit d1 c.k (card.unit c) (laneKey card d1 c) (lockedLane card d1 c) with
        | .offline => refuse d1 c.k stInternalFault
        | .waits => awaitUnit (modCtx d1 c.k fun x => { x with inputs := some c.i }) c.k (card.unit c) (laneKey card d1 c) (lockedLane card d1 c)
        | .got d2 => runReady card d2 c

/-- The keys whose exclusive hold a command takes. -/
def lockKeys (card : Card) (d : Dev) (c : Cmd) : List Nat :=
  let all := ((card.locks c).map keyOf).eraseDups
  if card.skipHeld then all.filter fun key => !heldByOther d c.k key else all

/-- Whether a command takes a hold outside a ring: a replacement, a destruction, a component FINISH, or the keys of a rotation (06 R165). -/
def holdsAlone (card : Card) : Bool := card.busyOnHold || card.skipHeld

/-- Change locks taken before the checks of a ring member's change (12 R359), or an outcome answered from the cache (12 R360); outside a ring the
exclusive hold of R165. -/
def runLocks (card : Card) (d : Dev) (c : Cmd) : Dev :=
  let keys := lockKeys card d c
  if keys.isEmpty || (!joined d && !holdsAlone card) then runChecks card d c
  else if !joined d then
    if keys.any (heldByOther d c.k) then refuse d c.k stBusy else runChecks card (holdKeys d c.k keys) c
  else
    let d0 := giveIssue d c.k
    let id := identityOf d0 c.k
    match (if c.inbound then cachedOf d0 id.1 id.2 else none) with
    | some r => finishWith d0 c.k r true false
    | none =>
      match takeLocks c.k card.busyOnHold keys d0 with
      | .busy => refuse d0 c.k stBusy
      | .waits d1 => modCtx d1 c.k fun x => { x with inputs := some c.i }
      | .held d1 => runChecks card d1 c

/-! ## Reading the vault (07 R200 to R203, R213, R214; 00 R5) -/

/-- The record slots of a handle in this module's vault: those of the version it names, or for a change of every version. -/
def slotsNamed (d : Dev) (every : Bool) (h : Nat) : List Nat :=
  let version := (resolveIn (recsOfKey d (keyOf h)) h).map Record.handle
  if !holds d h then []
  else (d.vmp.slots.filter fun p => keyOf p.2.handle == keyOf h && (every || version == some p.2.handle)).map Prod.fst

/-- The slots of the records a command names here, where steps 1 and 2 of R158 let it name them. -/
def namedSlots (card : Card) (d : Dev) (c : Cmd) : List Nat :=
  (((card.handles c).filter fun h => c.fn == .pf || (tenantStep c d h).isNone).flatMap (slotsNamed d (!(card.locks c).isEmpty))).eraseDups

/-- Whether a command reads every record: VAULT_SAVE (07 R228). -/
def readsAll (card : Card) : Bool := card.opcode == 0x0104

/-- The slots whose records a command reads from vault memory: those it names that the key cache does not hold. -/
def slotsRead (card : Card) (d : Dev) (c : Cmd) : List Nat :=
  if readsAll card then usedSlots d else (namedSlots card d c).filter fun s => !d.keys.cache.contains s

/-- The data lines of a slot and of its index entry, in the copy that can be read (07 R194). -/
def slotReads (d : Dev) (s : Nat) : List Nat :=
  (if lineLost d (indexA d.vmp.n (indexEntry s)) then indexB d.vmp.n (indexEntry s) else indexA d.vmp.n (indexEntry s)) :: slotLines s

/-- The data lines a command reads: of its records, and of the slot that a change takes, whose path a write verifies first (07 R202). -/
def linesRead (card : Card) (d : Dev) (c : Cmd) : List Nat :=
  (slotsRead card d c).flatMap (slotReads d) ++
    (if (card.locks c).isEmpty || !vaultBuilt d || !roomFor d 1 (usedSlots d) then [] else (freeSlots d 1 (usedSlots d)).flatMap slotLines)

/-- An undefined VMP_STATUS.STATE read: an alarm and a fault of the VMP (07 R223, 15 R450). -/
def meetVault (d : Dev) : Dev := if vaultKnown d.vmp.st then d else vmpFault 4 0xFF (invalidCode d 6 d.vmp.st clsL)

/-- The records of a command read into the key cache, with what the first read meets in the vault (07 R203, R212). -/
def fetchRecords (card : Card) (d0 : Dev) (c : Cmd) : Dev :=
  let lines := linesRead card d0 c
  let d := if lines.isEmpty then d0 else meetVault d0
  let d1 := (readLines lines (if (ctxOf d c.k).inputs.isNone || c.inbound then c.i.lineFault else none) d).1
  if readsAll card then d1 else ((namedSlots card d1 c).filter fun s => !lineLost d1 (2 * s)).foldl cacheSlot d1

/-- Whether a record of a handle can be served by no copy here while its unit is under repair (07 R214); the key cache serves a use. -/
def underRepair (d : Dev) (every : Bool) (h : Nat) : Bool :=
  d.vmp.st != 0xF0 && (slotsNamed d every h).any fun s => lineLost d (2 * s) && (every || !d.keys.cache.contains s)

/-- What keeps a command from its records: a status, or a wait for the repair or for the handler that holds the VMP (07 R208, R213, R214). -/
def vaultStop (card : Card) (d : Dev) (c : Cmd) : Option (Option Nat) :=
  if d.vmp.st == 0xF0 then none
  else if (slotsRead card d c).any (indexLost d) then some (some stMemoryIntegrity)
  else if vmpHeld d && !(linesRead card d c).isEmpty then some none
  else if readsAll card && (usedSlots d).any fun s => lineLost d (2 * s) then some none
  else if (card.handles c).any (underRepair d (!(card.locks c).isEmpty)) then some none
  else none

/-- What is judged of a command before it leaves this module: steps 1 and 2 of R158 for a tenant, the class for the PF (06 R185, 12 R21). -/
def routeFault (card : Card) (d : Dev) (c : Cmd) : Option Nat :=
  if c.fn == .pf then firstFail [((card.handles c).any fun h => hClass h == 0 || decide (11 < hClass h), stKeyNotFound)]
  else ((card.handles c).filterMap (tenantStep c d)).head?

/-- Records named beyond those held here are obtained first, then those under repair are waited for (12 R363, 07 R214). A command that arrived
from another member goes with the ring membership that a failed vault ends. -/
def runRecords (card : Card) (d0 : Dev) (c : Cmd) : Dev :=
  let d := fetchRecords card d0 c
  if !ctxHeld (ctxOf d c.k) then d else
  match (card.handles c).find? fun h => joined d && !holds d h && !(ctxOf d c.k).asked.contains h && (mapOf d (bucketOf h)).st != 5 with
  | some h => askTransfer d c.k h c.i
  | none =>
    match vaultStop card d c with
    | none => runLocks card d c
    | some (some st) => refuse d c.k st
    | some none =>
      match (if joined d && !c.inbound then card.route c else none) with
      | some h =>
        if underRepair d (!(card.locks c).isEmpty) h && (chooseHolder d h false).isSome then
          match routeFault card d c with
          | some st => refuse d c.k st
          | none => routeOut d c.k h (!(card.locks c).isEmpty) c.i
        else park (modCtx d c.k fun x => { x with inputs := some c.i }) c.k .repair
      | none => park (modCtx d c.k fun x => { x with inputs := some c.i }) c.k .repair

/-- Routing (12 R21): held here, too large to forward, or sent to a holder after steps 1 and 2 of R158. -/
def runRoute (card : Card) (d : Dev) (c : Cmd) : Dev :=
  match (if joined d && !c.inbound then card.route c else none) with
  | none => runRecords card d c
  | some h =>
    if holds d h || (decide (65536 < eDataLen c.entry) && (card.locks c).isEmpty) then runRecords card d c
    else
      match routeFault card d c with
      | some st => endWith d c.k st
      | none => routeOut d c.k h (!(card.locks c).isEmpty) c.i

/-- The step the origin makes before routing, once: a card sealing a component (14 R415). -/
def runOrigin (card : Card) (d : Dev) (c : Cmd) : Dev :=
  if c.inbound || (ctxOf d c.k).inputs.isSome then runRoute card d c
  else match card.origin c d with
    | (d1, some r) => finishWith d1 c.k r c.i.replyWriteOk false
    | (d1, none) => runRoute card d1 c

/-- Whether a command of this module bears the stamp of an old generation and still needs host memory before it can start (03 R83). -/
def abandoned (d : Dev) (c : Ctx) : Bool :=
  c.origin.isNone && c.gen != genOf d c.fn && needsHostRead c.entry && c.inputs.isNone && !c.engineBegun && c.sentTo.isNone

/-- The answers of the world that a run goes by: those stored at an earlier run, or those given now. What a command from another member meets in
this module's vault, and whether its test passes here, are this module's. -/
def inputsOf (c : Ctx) (given : Inputs) : Inputs :=
  match c.inputs with
  | none => given
  | some i => if c.origin.isSome then { i with lineFault := given.lineFault, testPasses := given.testPasses } else i

/-- A command past the checks on its entry: they are not made again, and it finishes under the tenant policy it passed step 2 under (04 R117). -/
def passEntry (d : Dev) (k : Nat) : Dev :=
  let c := ctxOf d k
  if c.policyPassed then d
  else modCtx d k fun c => { c with policyPassed := true, policy := match c.fn with | .pf => none | .vf n => some (tn d n).classMask }

/-- One run of a command on its core. -/
def runCard (card : Card) (d : Dev) (k : Nat) (given : Inputs) : Dev :=
  let c := ctxOf d k
  let i := inputsOf c given
  if abandoned d c then discard d k
  else match entryFail card d c with
  | some st => endWith d k st
  | none =>
    let d := passEntry d k
    if needsHostRead c.entry && c.origin.isNone && c.inputs.isNone && !bmeOf d c.fn then park d k .hostMemory
    else match readCommand card d k i with
      | .error st => endWith d k st
      | .ok cmd =>
        if card.lateRead cmd && c.origin.isNone && c.inputs.isNone && !bmeOf d c.fn then park d k .hostMemory
        else runOrigin card d cmd

/-- A command row: its context must be RUNNING with the row's opcode; otherwise nothing occurs (log entry 20). -/
def execCard (card : Card) (k : Nat) (i : Inputs) (d : Dev) : Dev :=
  if (ctxOf d k).code = csRunning ∧ eOpcode (ctxOf d k).entry = card.opcode then runCard card d k i else d

end Sys2Proof.Machine
end

