-- ==== Sys2Proof/Machine/Symmetric.lean ====
section
/-! DEFINITION. The symmetric commands 0x2xxx (08): SYM_CIPHER, AEAD with its trailer and chunks, CMAC, KEY_WRAP, KEY_UNWRAP. -/

namespace Sys2Proof.Machine

/-- Whether a mode of use is one of a list (06 R146). -/
def modeIn (l : List Nat) (r : Record) : Bool := l.contains r.mode

/-- A tenant card of a group that names keys. -/
def tenantCard (opcode group : Nat) : Card :=
  { Card.plain opcode with pf := false, tenant := true, group := some group, keyed := .always }

/-- The records a grant goes by: this module's own while it holds the version, else those transferred for the grant (08 R239, R250). -/
def grantRecs (d : Dev) (g : Grant) : List Record :=
  let live := if holds d g.handle then recsOfKey d (keyOf g.handle) else []
  if (resolveIn live g.handle).isSome then live else g.recs

/-- The key a grant holds; for a command already on the lane, where the version is gone, the one loaded there (08 R253). -/
def grantKey (d : Dev) (k : Nat) (g : Grant) : Option (Record × Bytes) :=
  let l := if (resolveIn (grantRecs d g) g.handle).isSome then grantRecs d g else (ctxOf d k).loaded
  (resolveIn l g.handle).map fun r => (r, materialIn l r)

/-- The key of a SYM_CIPHER or AEAD command after R158: steps 1 to 7 in queue mode, 5 to 7 on the held key under a grant (08 R251). -/
def cipherKey (c : Cmd) (d : Dev) (perm : Record → Bool) (n : Nat) : Except Nat (Record × Bytes) :=
  if bit (c.b1 0x0A) 0 then
    match (if (ctxOf d c.k).engineBegun then (ctxOf d c.k).underGrant else (tn d c.tenant).grant) with
    | none => .error stLockExpired
    | some g =>
      match grantKey d c.k g with
      | none => .error stLockExpired
      | some x => useSteps d c.k perm n x
  else useKey c d (c.b8 0) perm n

/-- The class 4 key of an operation: usage D0 and a mode of its direction (08 R234). -/
def dataKey (enc : Bool) (r : Record) : Bool :=
  hClass r.handle == 4 && r.usage == uD0 && modeIn (if enc then [mB, mE, mN] else [mB, mD, mN]) r

/-- HOST_IV_OK and ECB_OK (08 R235). -/
def hostIvOk (r : Record) : Bool := bit (field r.params 0 1) 0
def ecbOk (r : Record) : Bool := bit (field r.params 0 1) 1

/-- The serial and an invocation value as an IV or counter block (08 R237). -/
def serialIv (d : Dev) (v : Nat) : Bytes := natBe 8 d.otp.serial ++ natBe 8 v

/-! ### SYM_CIPHER (R255) -/

def symEnc (c : Cmd) : Bool := c.b1 8 == 0
def symHostIv (c : Cmd) : Bool := bit (c.b1 0x0A) 2
def symLock (c : Cmd) : Bool := bit (c.b1 0x0A) 0

/-- Counter values SYM_CIPHER takes (08 R237). -/
def symValues (c : Cmd) : Nat :=
  if c.b1 9 = 2 ∧ symEnc c ∧ !symHostIv c then max 1 ((c.data.length + 15) / 16) else 1

/-- Parameters of SYM_CIPHER (08 R255, R251). -/
def symParamOk (c : Cmd) : Bool :=
  let ivGiven := c.b1 9 != 0 && (!symEnc c || symHostIv c)
  decide (c.b1 8 ≤ 1) && decide (c.b1 9 ≤ 2) && c.b1 0x0A &&& 0xFA == 0 && zeros c.p 0x0B 5 && zeros c.p 0x28 8 &&
    (!symLock c || c.b8 0 == 0) && (ivGiven || zeros c.p 0x18 16)

/-- The permission of SYM_CIPHER on its key (08 R234, R240). -/
def symPerm (c : Cmd) (r : Record) : Bool :=
  dataKey (symEnc c) r && (c.b1 9 != 2 || isAes r.alg) && (c.b1 9 != 0 || ecbOk r) && (!(symEnc c && symHostIv c) || hostIvOk r)

/-- The limit of R251 under a grant. -/
def symLenOk (c : Cmd) : Bool := !symLock c || decide (c.dlen ≤ if c.b1 9 = 1 ∧ symEnc c then 1048576 else 4194304)

/-- Checks of SYM_CIPHER. -/
def symCheck (c : Cmd) (d : Dev) : Option Nat :=
  match cipherKey c d (symPerm c) (symValues c) with
    | .error st => some st
    | .ok x => firstFail
        [ (!isAes x.1.alg && !zeros c.p 0x20 8, stBadParam),
          (c.b1 9 != 2 && c.data.length % blockLen (isAes x.1.alg) != 0, stBadLength) ]

/-- The effect of SYM_CIPHER: values taken, IV formed, output written. -/
def symEff (c : Cmd) (d : Dev) : Dev × Fin :=
  let x := got (cipherKey c d (symPerm c) (symValues c))
  let aes := isAes x.1.alg
  let t := takeValues d c.k x.1 (symValues c)
  let own := c.b1 9 != 0 && symEnc c && !symHostIv c
  let r := if own && c.b1 9 == 1 then draw t.2 (blockLen aes) else (slice c.p 0x18 (blockLen aes), t.2)
  let iv := if own && c.b1 9 == 2 then serialIv d t.1 else r.1
  let out := if c.b1 9 = 0 then ecb aes (!symEnc c) x.2 c.data
    else if c.b1 9 = 1 then (if symEnc c then cbcEnc aes x.2 iv c.data else cbcDec aes x.2 iv c.data)
    else ctr x.2 iv c.data
  let outs := if out.isEmpty then [] else [(c.b8 0x10, out)]
  let result := if c.b1 9 = 0 then [] else if symEnc c then iv else natLe 4 c.data.length
  (r.2, okUsing [x.1] result [] outs)

/-- SYM_CIPHER, opcode 0x2001 (08 R255). -/
def cardSymCipher : Card :=
  { tenantCard 0x2001 1 with
    keyed := .onParams fun p => !bit (field p 0x0A 1) 0
    lenOk := lens 48 0 268435456 0
    lenLate := symLenOk
    paramOk := symParamOk
    handles := fun c => if symLock c then [] else [c.b8 0]
    route := fun c => if symLock c then none else some (c.b8 0)
    unit := fun _ => .lane
    loads := fun c => some (c.b8 0)
    takes := fun c d => [((got (cipherKey c d (symPerm c) (symValues c))).1, symValues c)]
    useLock := symLock
    drbg := fun c => if c.b1 9 != 0 && symEnc c && !symHostIv c then 1 else 0
    writesOut := fun c => !c.data.isEmpty
    check := symCheck
    eff := symEff }

/-! ### AEAD (R256) -/

def aeadEnc (c : Cmd) : Bool := c.b1 8 == 0
def aeadCcm (c : Cmd) : Bool := c.b1 9 == 1
def aeadTagLen (c : Cmd) : Nat := c.b1 0x0B
def aeadIvLen (c : Cmd) : Nat := c.b1 0x0C
def aeadAadLen (c : Cmd) : Nat := c.b4 0x20

/-- Parameters of AEAD (08 R241, R251, R256). -/
def aeadParamOk (c : Cmd) : Bool :=
  let flags := c.b1 0x0A
  let tagOk := if aeadCcm c then [4, 6, 8, 10, 12, 14, 16].contains (aeadTagLen c) else decide (12 ≤ aeadTagLen c) && decide (aeadTagLen c ≤ 16)
  let ivOk := if aeadCcm c then decide (7 ≤ aeadIvLen c) && decide (aeadIvLen c ≤ 13)
    else if aeadEnc c then (if bit flags 2 then aeadIvLen c == 12 else aeadIvLen c == 0)
    else aeadIvLen c == 12 || aeadIvLen c == 16
  decide (c.b1 8 ≤ 1) && decide (c.b1 9 ≤ 1) && decide (flags < 8) && !(bit flags 1 && aeadEnc c) && !(bit flags 2 && !aeadEnc c) &&
    !(bit flags 1 && bit flags 0) && (!bit flags 0 || c.b8 0 == 0) && tagOk && ivOk && zeros c.p 0x0D 3 && zeros c.p 0x24 4 &&
    (aeadAadLen c != 0 || c.b8 0x18 == 0) && zeros c.p (0x28 + aeadIvLen c) (16 - aeadIvLen c) &&
    (if aeadEnc c then zeros c.p 0x38 16 else zeros c.p (0x38 + aeadTagLen c) (16 - aeadTagLen c))

/-- The permission of AEAD on its key (08 R234, R240). -/
def aeadPerm (c : Cmd) (r : Record) : Bool :=
  dataKey (aeadEnc c) r && isAes r.alg && (!aeadEnc c || !(bit (c.b1 0x0A) 2) || hostIvOk r) &&
    (!(aeadEnc c && aeadCcm c) || bit (c.b1 0x0A) 2)

/-- Lengths of AEAD: AAD, reply of an encryption, the limits of R251, and the length field a CCM nonce leaves (log entry 21). -/
def aeadLenOk (c : Cmd) : Bool :=
  decide (aeadAadLen c ≤ 65536) && !(aeadEnc c && c.cap == 0) &&
    (!symLock c || decide (c.dlen ≤ if aeadCcm c then 2097152 else 4194304)) &&
    (!aeadCcm c || decide (13 < aeadIvLen c) || decide (c.dlen < 2 ^ (8 * (15 - aeadIvLen c))))

/-- Checks of AEAD: its AAD read before its input is used, then its key. -/
def aeadCheck (c : Cmd) (d : Dev) : Option Nat :=
  orElse (firstFail [(decide (0 < aeadAadLen c) && c.i.aad.isNone, stHostMemory)])
    (match cipherKey c d (aeadPerm c) 1 with
     | .error st => some st
     | .ok _ => none)

/-- The trailer of a streamed decryption (08 R243). -/
def trailer (d : Dev) (c : Cmd) (state released : Nat) : Bytes :=
  [0x49, 0x57, 0x50, 0x54] ++ natLe 1 state ++ zeroBytes 3 ++ eTag c.entry ++ natLe 2 (ctxOf d c.k).gen ++ zeroBytes 2 ++
    natLe 8 released ++ natLe 8 d.otp.serial

/-- Bytes released before verification (08 R242). -/
def releasedOf (n : Nat) : Nat := if n ≤ 65536 then 0 else 65536 * ((n - 1) / 65536)

/-- The chunks of an output from an offset on, each at its address (08 R242). -/
def chunkWrites (addr : Nat) : (off : Nat) → List Bytes → List (Nat × Bytes)
  | _, [] => []
  | off, b :: t => (addr + off, b) :: chunkWrites addr (off + b.length) t

/-- One pass of AEAD over an input: output and tag. -/
def aeadPass (c : Cmd) (key iv aad input : Bytes) : Bytes × Bytes :=
  let n := aeadTagLen c
  if aeadCcm c then
    let text := ccmText key iv input
    (text, (ccmTag key iv aad (if aeadEnc c then input else text) n).take n)
  else
    let text := gcmText key iv input
    (text, (gcmTag key iv aad (if aeadEnc c then text else input)).take n)

/-- What a streamed decryption writes before its tag is judged: the PROVISIONAL trailer, then every chunk but the last (08 R242, R243). -/
def earlyWrites (d : Dev) (c : Cmd) (out : Bytes) : List (Nat × Bytes) :=
  if 65536 < out.length then
    (c.b8 0x10 + out.length, trailer d c 0x33 0) :: chunkWrites (c.b8 0x10) 0 (chunks 65536 (out.take (releasedOf out.length)))
  else []

/-- Output writes of a decryption that releases `out`, whose tag is good or not (08 R242 to R244); what its stream has written is not written again. -/
def releaseWrites (d : Dev) (c : Cmd) (out : Bytes) (good : Bool) : List (Nat × Bytes) :=
  let n := out.length
  let addr := c.b8 0x10
  let rel := releasedOf n
  let early := if (ctxOf d c.k).stream.isSome then [] else earlyWrites d c out
  let last := if n = 0 then [] else [(addr + rel, if good then out.drop rel else zeroBytes (n - rel))]
  let tail := if 65536 < n then [(addr + n, trailer d c (if good then 0x55 else 0xF0) rel)] else []
  early ++ last ++ tail

/-- Writes of a decryption that fails before it releases anything: zeros, and both trailers above 65,536 bytes (08 R243, R245). -/
def refusedWrites (d : Dev) (c : Cmd) (n : Nat) : List (Nat × Bytes) :=
  let addr := c.b8 0x10
  (if 65536 < n then [(addr + n, trailer d c 0x33 0)] else []) ++
    (if n = 0 then [] else [(addr, zeroBytes n)]) ++ (if 65536 < n then [(addr + n, trailer d c 0xF0 0)] else [])

/-- TAG_FAIL with RELEASED in the result (08 R244). -/
def tagFail (released : Nat) (outs : List (Nat × Bytes)) : Fin :=
  .done { status := stTagFail, result := fitTo 16 (natLe 8 released), data := [], outs }

/-- The additional data of AEAD, and the IV or nonce that the host gives. -/
def aeadAad (c : Cmd) : Bytes := (c.i.aad.getD []).take (aeadAadLen c)
def aeadHostIv (c : Cmd) : Bytes := slice c.p 0x28 (aeadIvLen c)
/-- The tag a decryption is to find. -/
def aeadTag (c : Cmd) : Bytes := slice c.p 0x38 (aeadTagLen c)
/-- SFLAGS.VERIFY_FIRST (08 R245). -/
def verifyFirst (c : Cmd) : Bool := bit (c.b1 0x0A) 1

/-- The output that a decryption streams: of its only pass, or of its second where the first verifies and the input can be read again (08 R242, R245). -/
def streamText (c : Cmd) (key : Bytes) : Option Bytes :=
  let first := aeadPass c key (aeadHostIv c) (aeadAad c) c.data
  if !verifyFirst c then some first.1
  else if first.2 != aeadTag c then none
  else c.i.dataAgain.map fun again => (aeadPass c key (aeadHostIv c) (aeadAad c) (fitTo c.data.length again)).1

/-- The effect of AEAD. A second pass whose input cannot be read fails as R244 lays down, with HOST_MEMORY (log entry 96). -/
def aeadEff (c : Cmd) (d : Dev) : Dev × Fin :=
  let x := got (cipherKey c d (aeadPerm c) 1)
  let t := takeValues d c.k x.1 1
  let d1 := t.2
  let aad := aeadAad c
  let n := c.data.length
  let iv := if aeadEnc c && !aeadCcm c && !bit (c.b1 0x0A) 2 then serialIv d t.1 else aeadHostIv c
  let pass := aeadPass c x.2 iv aad c.data
  let tag := aeadTag c
  if aeadEnc c then
    (d1, okUsing [x.1] pass.2 (fitTo 64 (fitTo 16 iv ++ natLe 1 iv.length)) (if n = 0 then [] else [(c.b8 0x10, pass.1)]))
  else if verifyFirst c then
    if pass.2 != tag then (d1, tagFail 0 (refusedWrites d c n))
    else match c.i.dataAgain with
      | none => (d1, .done { status := stHostMemory, result := zeroBytes 16, data := [], outs := refusedWrites d c n })
      | some again =>
        let second := aeadPass c x.2 iv aad (fitTo n again)
        if second.2 = tag then (d1, okUsing [x.1] (natLe 8 n) [] (releaseWrites d c second.1 true))
        else (d1, tagFail (releasedOf n) (releaseWrites d c second.1 false))
  else if pass.2 = tag then (d1, okUsing [x.1] (natLe 8 n) [] (releaseWrites d c pass.1 true))
  else (d1, tagFail (releasedOf n) (releaseWrites d c pass.1 false))

/-- AEAD, opcode 0x2002 (08 R256). -/
def cardAead : Card :=
  { tenantCard 0x2002 1 with
    keyed := .onParams fun p => !bit (field p 0x0A 1) 0
    lenOk := lens 72 0 268435456 0
    lenLate := aeadLenOk
    paramOk := aeadParamOk
    handles := fun c => if symLock c then [] else [c.b8 0]
    route := fun c => if symLock c then none else some (c.b8 0)
    unit := fun _ => .lane
    loads := fun c => some (c.b8 0)
    takes := fun c d => [((got (cipherKey c d (aeadPerm c) 1)).1, 1)]
    useLock := symLock
    drbg := fun c => if aeadEnc c && !aeadCcm c && !bit (c.b1 0x0A) 2 then 1 else 0
    lateRead := fun c => decide (0 < aeadAadLen c)
    writesOut := fun c => !c.data.isEmpty
    check := aeadCheck
    eff := aeadEff }

/-! ### CMAC (R257) -/

def cmacPerm (c : Cmd) (r : Record) : Bool :=
  hClass r.handle == 3 && r.usage == uM6 && modeIn (if c.b1 8 = 0 then [mC, mG] else [mC, mV]) r

/-- The effect of CMAC: one use, then the MAC or its comparison. -/
def cmacEff (c : Cmd) (d : Dev) : Dev × Fin :=
  let x := got (useKey c d (c.b8 0) (cmacPerm c) 1)
  let mac := (aesCmac x.2 c.data).take (c.b1 9)
  let d1 := useOnce d c.k x.1
  if c.b1 8 = 0 then (d1, okUsing [x.1] mac [] [])
  else if mac = slice c.p 0x10 (c.b1 9) then (d1, okUsing [x.1] [] [] [])
  else (d1, failWith stMacMismatch)

/-- CMAC, opcode 0x2003 (08 R257). -/
def cardCmac : Card :=
  { tenantCard 0x2003 1 with
    lenOk := lens 40 0 16777216 0
    paramOk := fun c => decide (c.b1 8 ≤ 1) && decide (4 ≤ c.b1 9) && decide (c.b1 9 ≤ 16) && zeros c.p 0x0A 6 && zeros c.p 0x20 8 &&
      (if c.b1 8 = 0 then zeros c.p 0x10 16 else zeros c.p (0x10 + c.b1 9) (16 - c.b1 9))
    handles := fun c => [c.b8 0]
    route := fun c => some (c.b8 0)
    unit := fun _ => .lane
    loads := fun c => some (c.b8 0)
    takes := fun c d => [((got (useKey c d (c.b8 0) (cmacPerm c) 1)).1, 1)]
    check := fun c d => firstError [useKey c d (c.b8 0) (cmacPerm c) 1]
    eff := cmacEff }

/-! ### KEY_WRAP (R258) -/

/-- A key-encryption key of a direction (06 R161, 08 R234). -/
def kekPerm (wrap : Bool) (r : Record) : Bool :=
  hClass r.handle == 1 && (r.usage == uK0 || r.usage == uK1) && modeIn (if wrap then [mB, mE] else [mB, mD]) r

/-- A key named without being used: steps 1 to 6 of R158. -/
def sentKey (c : Cmd) (d : Dev) (h : Nat) (perm : Record → Bool) : Except Nat (Record × Bytes) := useKey c d h perm 0

def wrapKeyPerm (r : Record) : Bool := (hClass r.handle == 4 || hClass r.handle == 11) && r.expo == mS
def wrapKekPerm (wrapped kek : Record) : Bool := kekPerm true kek && isAes kek.alg && decide (strength wrapped.alg ≤ strength kek.alg)

/-- Checks of KEY_WRAP. -/
def keyWrapCheck (c : Cmd) (d : Dev) : Option Nat :=
  match sentKey c d (c.b8 0) wrapKeyPerm with
  | .error st => some st
  | .ok x => orElse (firstError [useKey c d (c.b8 8) (wrapKekPerm x.1) 1])
      (firstFail [(decide (c.cap < x.2.length + 8), stBadLength)])

/-- KEY_WRAP, opcode 0x2004 (08 R258). -/
def cardKeyWrap : Card :=
  { tenantCard 0x2004 1 with
    lenOk := lens 24 0 0 0
    paramOk := fun c => zeros c.p 16 8
    handles := fun c => [c.b8 0, c.b8 8]
    route := fun c => some (c.b8 0)
    unit := fun _ => .lane
    loads := fun c => some (c.b8 8)
    takes := fun c d => [((got (useKey c d (c.b8 8) (wrapKekPerm (got (sentKey c d (c.b8 0) wrapKeyPerm)).1) 1)).1, 1)]
    check := keyWrapCheck
    eff := fun c d =>
      let x := got (sentKey c d (c.b8 0) wrapKeyPerm)
      let w := got (useKey c d (c.b8 8) (wrapKekPerm x.1) 1)
      (useOnce d c.k w.1, okUsing [w.1] x.1.kcv (keyWrap w.2 x.2) []) }

/-! ### KEY_UNWRAP (R259) -/

/-- The key KEY_UNWRAP creates from unwrapped material. -/
def unwrapNew (c : Cmd) (d : Dev) (m : Bytes) : NewKey :=
  { handle := newHandle d (c.b8 0) [hClass (c.b8 0)], alg := c.b1 0x10, usage := c.b2 0x12, mode := c.b1 0x14, expo := c.b1 0x15,
    kcvMethod := c.b1 0x11, params := natLe 1 (c.b1 0x16) ++ zeroBytes 6, notBefore := c.b8 0x20, notAfter := c.b8 0x28, material := m }

/-- EXPORT values (06 R147). -/
def expoOk (e : Nat) : Bool := e == mE || e == mN || e == mS

/-- Parameters of KEY_UNWRAP. -/
def unwrapParamOk (c : Cmd) : Bool :=
  let cls := hClass (c.b8 0)
  hVersion (c.b8 0) == 0 && (isAes (c.b1 0x10) || (isTdes (c.b1 0x10) && cls == 4)) && symLen (c.b1 0x10) + 8 == c.data.length &&
    kcvMethodOk cls (c.b1 0x10) (c.b1 0x11) && expoOk (c.b1 0x15) && zeros c.p 0x17 1 && zeros c.p 0x1D 3 &&
    decide (c.b8 0x20 < c.b8 0x28) && paramsReservedOk cls (c.b2 0x12) (c.b1 0x10) (natLe 1 (c.b1 0x16) ++ zeroBytes 6)

/-- The key-encryption key of KEY_UNWRAP: AES, and at least as strong as the key. -/
def unwrapKekPerm (c : Cmd) (kek : Record) : Bool :=
  kekPerm false kek && isAes kek.alg && decide (strength (c.b1 0x10) ≤ strength kek.alg)

/-- Whether class 4 or 11 and the combination are permitted. -/
def unwrapCombo (c : Cmd) : Bool :=
  let cls := hClass (c.b8 0)
  (cls == 4 || cls == 11) && comboOk cls (c.b2 0x12) (c.b1 0x10) (c.b1 0x14) &&
    paramsUsageOk cls (c.b2 0x12) (c.b1 0x10) (natLe 1 (c.b1 0x16) ++ zeroBytes 6)

/-- The effect of KEY_UNWRAP. -/
def keyUnwrapEff (c : Cmd) (d : Dev) : Dev × Fin :=
  let w := got (useKey c d (c.b8 8) (unwrapKekPerm c) 1)
  let d1 := useOnce d c.k w.1
  match keyUnwrap w.2 c.data with
  | none => (d1, failWith stTagFail)
  | some m =>
    let n := unwrapNew c d1 m
    if (slice c.p 0x18 5).any (· != 0) && n.kcv != slice c.p 0x18 5 then (d1, failWith stKeyCheckFail)
    else createAll d1 [n] (okUsing [w.1] (handleKcv n.handle n.kcv) [] [])

/-- KEY_UNWRAP, opcode 0x2005 (08 R259). -/
def cardKeyUnwrap : Card :=
  { tenantCard 0x2005 1 with
    lenOk := fun e => lens 48 24 40 0 e && decide (eDataLen e % 8 = 0)
    paramOk := unwrapParamOk
    handles := fun c => [c.b8 0, c.b8 8]
    route := fun c => some (c.b8 0)
    locks := fun c => [c.b8 0]
    unit := fun _ => .lane
    loads := fun c => some (c.b8 8)
    takes := fun c d => [((got (useKey c d (c.b8 8) (unwrapKekPerm c) 1)).1, 1)]
    check := fun c d => orElse (tenantStep c d (c.b8 0))
      (orElse (firstError [useKey c d (c.b8 8) (unwrapKekPerm c) 1]) (createCheck c d (c.b8 0) (unwrapCombo c) 1))
    eff := keyUnwrapEff }

/-! ## Meanings -/

/-- SYM_CIPHER (08 R255). -/
def execSymCipher (k : Nat) (i : Inputs) (s : State) := s.onDev (execCard cardSymCipher k i)
/-- AEAD (08 R256). -/
def execAead (k : Nat) (i : Inputs) (s : State) := s.onDev (execCard cardAead k i)
/-- CMAC (08 R257). -/
def execCmac (k : Nat) (i : Inputs) (s : State) := s.onDev (execCard cardCmac k i)
/-- KEY_WRAP (08 R258). -/
def execKeyWrap (k : Nat) (i : Inputs) (s : State) := s.onDev (execCard cardKeyWrap k i)
/-- KEY_UNWRAP (08 R259). -/
def execKeyUnwrap (k : Nat) (i : Inputs) (s : State) := s.onDev (execCard cardKeyUnwrap k i)

end Sys2Proof.Machine
end

