-- ==== Sys2Proof/Machine/KeyCmds.lean ====
section
/-! DEFINITION. The key commands 0x1xxx on records (06): KEY_GENERATE, KEY_IMPORT, KEY_EXPORT, KEY_DESTROY, KEY_INFO, KEY_DERIVE, ATTEST,
and the record form of KEY_REPLACE. -/

namespace Sys2Proof.Machine

/-- No limit of a validity window (06 R151). -/
def noLimit : Nat := 0xFFFFFFFFFFFFFFFF

/-! ### KEY_GENERATE (R179) -/

/-- Parameters of a creation from attributes in the command. -/
def newAttrsOk (cls alg usage kcvMethod expo : Nat) (params : Bytes) : Bool :=
  algOk alg && kcvMethodOk cls alg kcvMethod && expoOk expo && paramsReservedOk cls usage alg params

/-- Parameters of KEY_GENERATE. -/
def genParamOk (c : Cmd) : Bool :=
  let cls := hClass (c.b8 0)
  let alg := c.b1 8
  hVersion (c.b8 0) == 0 && newAttrsOk cls alg (c.b2 0x0A) (c.b1 9) (c.b1 0x0D) (slice c.p 0x20 7) && decide (c.b8 0x10 < c.b8 0x18) &&
    zeros c.p 0x0E 2 && zeros c.p 0x27 1 && (!isRsa alg || modBitsOk alg (c.b2 0x20) && decide (c.b1 0x22 ≤ 1))

/-- PARAMS with the modulus bits actually used (09 R266). -/
def genParams (c : Cmd) : Bytes :=
  if isRsa (c.b1 8) then rsaParams (modBitsOf (c.b1 8) (c.b2 0x20)) (c.b1 0x22) else slice c.p 0x20 7

/-- MOD_BITS of a pair to be generated; 0 for other algorithms. -/
def genBits (c : Cmd) : Nat := if isRsa (c.b1 8) then modBitsOf (c.b1 8) (c.b2 0x20) else 0

/-- Records a generation needs: one, or both chains of a pair. -/
def genRecords (c : Cmd) : Nat :=
  if hClass (c.b8 0) = 8 then chainLenOf (privLen (c.b1 8) (genBits c)) + chainLenOf (pubLen (c.b1 8) (genBits c)) else 1

/-- Whether the combination that KEY_GENERATE names may be created: R145, and no class 9 record of its own (06 R179). -/
def genUsageOk (c : Cmd) : Bool :=
  let h := c.b8 0
  comboOk (hClass h) (c.b2 0x0A) (c.b1 8) (c.b1 0x0C) && hClass h != 9 && paramsUsageOk (hClass h) (c.b2 0x0A) (c.b1 8) (slice c.p 0x20 7)

/-- Checks of KEY_GENERATE; the public record of a pair must not exist either (log entry 23). -/
def genCheck (c : Cmd) (d : Dev) : Option Nat :=
  let h := c.b8 0
  orElse (existsCheck c d h)
    (orElse (firstFail [(hClass h == 8 && hIndex h != 0xFFFFFFFF && keyExists d c.k (mkHandle (hTenant h) 9 (hIndex h) 0), stKeyExists)])
      (createCheck c d h (genUsageOk c) (genRecords c)))

/-- The public exponent that EXP of an RSA record names: 65,537 or 3 (09 R266). -/
def rsaExponent (exp : Nat) : Nat := if exp = 0 then 65537 else 3

/-- A fresh key pair (09 R264, R268), as private and public material; of an RSA pair both hold the public exponent that EXP names. -/
def freshPair (alg bits exp drawNo : Nat) : Bytes × Bytes :=
  let raw := privateFrom alg (fitTo (privLen alg bits) (Config.pkPrivate alg bits exp drawNo))
  let priv := if isRsa alg then natBe 4 (rsaExponent exp) ++ raw.drop 4 else raw
  (priv, publicOf alg bits priv)

/-- The public record of a private one: the same index and version, mode V or E (06 R179). -/
def publicTwin (n : NewKey) (pub : Bytes) : NewKey :=
  { n with handle := mkHandle (hTenant n.handle) 9 (hIndex n.handle) (hVersion n.handle),
           mode := if n.usage = uD1 then mE else mV, material := pub }

/-- The effect of KEY_GENERATE. -/
def genEff (c : Cmd) (d : Dev) : Dev × Fin :=
  let h := c.b8 0
  let base : NewKey :=
    { handle := newHandle d h (if hClass h = 8 then [8, 9] else [hClass h]), alg := c.b1 8, usage := c.b2 0x0A, mode := c.b1 0x0C,
      expo := c.b1 0x0D, kcvMethod := c.b1 9, params := genParams c, notBefore := c.b8 0x10, notAfter := c.b8 0x18, material := [] }
  if hClass h = 8 then
    let pair := freshPair (c.b1 8) (genBits c) (c.b1 0x22) d.ent.draws
    let d1 := (draw d 32).2
    let n := { base with material := pair.1 }
    if c.i.testPasses then createAll d1 [n, publicTwin n pair.2] (okUsing [] (handleKcv n.handle (pubKcv n.alg pair.2)) [] [])
    else (d1, failWith stKeyTestFail)
  else
    let r := draw d (symLen (c.b1 8))
    let n := { base with material := r.1 }
    createAll r.2 [n] (okUsing [] (handleKcv n.handle n.kcv) [] [])

/-- KEY_GENERATE, opcode 0x1001 (06 R179). -/
def cardKeyGenerate : Card :=
  { tenantCard 0x1001 0 with
    lenOk := lens 40 0 0 0
    paramOk := genParamOk
    handles := fun c => [c.b8 0]
    route := fun c => some (c.b8 0)
    locks := fun c => [c.b8 0]
    unit := fun c => if hClass (c.b8 0) = 8 then .pk else .none
    drbg := fun _ => 1
    check := genCheck
    eff := genEff }

/-! ### TR-31 (R161, R162) -/

/-- The first byte of a TR-31 block: its version. -/
def blockVersion (block : Bytes) : Nat := field block 0 1

/-- Whether a block is of version B or D and well formed. -/
def blockFormOk (block : Bytes) : Bool := (blockVersion block == 0x42 || blockVersion block == 0x44) && tr31Form block

/-- Whether a wrapping key's algorithm suits a block version: B by TDES, D by AES (06 R161). -/
def versionSuits (version alg : Nat) : Bool := (version == 0x42 && isTdes alg) || (version == 0x44 && isAes alg)

/-- The algorithm of a key block's key (06 R162); 0 where the length fits none. -/
def blockAlg (b : Config.KeyBlock) : Nat :=
  if b.tdes then (if b.key.length = 16 then 1 else if b.key.length = 24 then 2 else 0)
  else if b.key.length = 16 then 0x10 else if b.key.length = 24 then 0x11 else if b.key.length = 32 then 0x12 else 0

/-- Whether an imported block may become a record of a class under a wrapping key of a strength: form, strength, combination, KP (06 R161, R162).
DESIGN CHOICE: an algorithm that does not suit the KCV_METHOD given, or kept from the version replaced, is BAD_PARAM (log entry 94). -/
def blockFault (b : Config.KeyBlock) (cls kekStrength kcvMethod : Nat) (params : Bytes) : Option Nat :=
  let alg := blockAlg b
  firstFail
    [ (alg == 0, stBadParam),
      (decide (kekStrength < strength alg), stKeyUsage),
      (!comboOk cls b.usage alg b.mode || !paramsUsageOk cls b.usage alg params, stKeyUsage),
      (!kcvMethodOk cls alg kcvMethod || !expoOk b.expo, stBadParam),
      ((match b.kp with | some kp => decide ((symKcv alg kcvMethod b.key).take kp.length ≠ kp) | none => false), stKeyCheckFail) ]

/-- The key-encryption key of an import of a block. -/
def importKek (block : Bytes) (kek : Record) : Bool := kekPerm false kek && versionSuits (blockVersion block) kek.alg

/-! ### KEY_IMPORT (R180) -/

/-- The effect of KEY_IMPORT. -/
def importEff (c : Cmd) (d : Dev) : Dev × Fin :=
  let h := c.b8 0
  let w := got (useKey c d (c.b8 8) (importKek c.data) 1)
  let d1 := useOnce d c.k w.1
  match tr31Open w.2 c.data with
  | none => (d1, failWith stMacMismatch)
  | some b =>
    match blockFault b (hClass h) (strength w.1.alg) (c.b1 0x10) (zeroBytes 7) with
    | some st => (d1, failWith st)
    | none =>
      let n : NewKey :=
        { handle := newHandle d1 h [hClass h], alg := blockAlg b, usage := b.usage, mode := b.mode, expo := b.expo, kcvMethod := c.b1 0x10,
          params := zeroBytes 7, notBefore := 0, notAfter := noLimit, material := b.key }
      match roomCheck d1 h 1 with
      | some st => (d1, failWith st)
      | none => createAll d1 [n] (okUsing [w.1] (handleKcv n.handle n.kcv) [] [])

/-- KEY_IMPORT, opcode 0x1002 (06 R180). -/
def cardKeyImport : Card :=
  { tenantCard 0x1002 0 with
    lenOk := lens 24 32 9999 0
    paramOk := fun c => hVersion (c.b8 0) == 0 && decide (1 ≤ c.b1 0x10) && decide (c.b1 0x10 ≤ 3) && zeros c.p 0x11 7
    handles := fun c => [c.b8 0, c.b8 8]
    route := fun c => some (c.b8 0)
    locks := fun c => [c.b8 0]
    unit := fun _ => .lane
    loads := fun c => some (c.b8 8)
    check := fun c d => orElse (firstFail [(!blockFormOk c.data, stBadParam)])
      (orElse (existsCheck c d (c.b8 0)) (firstError [useKey c d (c.b8 8) (importKek c.data) 1]))
    takes := fun c d => [((got (useKey c d (c.b8 8) (importKek c.data) 1)).1, 1)]
    eff := importEff }

/-! ### KEY_EXPORT (R181) -/

/-- Whether a record may leave in a TR-31 block: a symmetric key, EXPORT E or S, a TR-31 usage. -/
def exportPerm (r : Record) : Bool :=
  (isTdes r.alg || isAes r.alg) && (r.expo == mE || r.expo == mS) && r.usage % 256 != 0x39

/-- The wrapping key of an export. -/
def exportKek (version : Nat) (sent kek : Record) : Bool :=
  kekPerm true kek && versionSuits version kek.alg && decide (strength sent.alg ≤ strength kek.alg)

/-- The block KEY_EXPORT writes. -/
def exportBlock (c : Cmd) (d : Dev) (x w : Record × Bytes) : Bytes :=
  tr31Build (c.b1 0x10) w.2 x.2 (isAes x.1.alg) x.1.kcvMethod (x.1.usage, x.1.mode, x.1.expo) (x.1.kcv.take 3) d.ent.draws

/-- Checks of KEY_EXPORT. -/
def exportCheck (c : Cmd) (d : Dev) : Option Nat :=
  match sentKey c d (c.b8 0) exportPerm with
  | .error st => some st
  | .ok x =>
    match useKey c d (c.b8 8) (exportKek (c.b1 0x10) x.1) 1 with
    | .error st => some st
    | .ok w => firstFail [(decide (c.cap < (exportBlock c d x w).length), stBadLength)]

/-- KEY_EXPORT, opcode 0x1003 (06 R181). -/
def cardKeyExport : Card :=
  { tenantCard 0x1003 0 with
    lenOk := lens 24 0 0 0
    paramOk := fun c => (c.b1 0x10 == 0x42 || c.b1 0x10 == 0x44) && zeros c.p 0x11 7
    handles := fun c => [c.b8 0, c.b8 8]
    route := fun c => some (c.b8 0)
    unit := fun _ => .lane
    loads := fun c => some (c.b8 8)
    check := exportCheck
    takes := fun c d => [((got (useKey c d (c.b8 8) (exportKek (c.b1 0x10) (got (sentKey c d (c.b8 0) exportPerm)).1) 1)).1, 1)]
    eff := fun c d =>
      let x := got (sentKey c d (c.b8 0) exportPerm)
      let w := got (useKey c d (c.b8 8) (exportKek (c.b1 0x10) x.1) 1)
      (useOnce d c.k w.1, okUsing [w.1] x.1.kcv (exportBlock c d x w) []) }

/-! ### KEY_REPLACE, record form (R182) -/

/-- The new version of a key that keeps the attributes of version v (06 R165 step 3). -/
def nextVersion (v : Record) (m : Bytes) : NewKey :=
  { handle := v.handle + 1, alg := v.alg, usage := v.usage, mode := v.mode, expo := v.expo, kcvMethod := v.kcvMethod, params := v.params,
    notBefore := v.notBefore, notAfter := v.notAfter, material := m }

/-- MOD_BITS of a record; 0 for other algorithms. -/
def recBits (v : Record) : Nat := if isRsa v.alg then field v.params 0 2 else 0

/-- The outcome of a replacement run (06 R165). -/
def replaceFin (used : List Record) (n : NewKey) (r : Dev × Nat) : Dev × Fin :=
  if r.2 = stOk then (r.1, okUsing used (handleKcv n.handle n.kcv) [] []) else (r.1, failWith r.2)

/-- Checks of the record form: the replaced key, then the wrapping key of a block. DESIGN CHOICE: a class 9 record, and a class 8 one from a block,
are not replaced: KEY_USAGE, as no source of R182 gives their material (log entry 94). -/
def replaceRecordCheck (c : Cmd) (d : Dev) : Option Nat :=
  let h := c.b8 8
  let l := storeOf d c.k h
  let v := (activeNamed l h).getD {}
  orElse (firstFail [(c.b1 1 == 1 && !blockFormOk c.data, stBadParam)])
    (orElse (replaceCheck c d h (bit (c.b1 2) 0) v.chainLen)
      (orElse (firstFail [(hClass h == 9 || (c.b1 1 == 1 && hClass h == 8), stKeyUsage)])
        (if c.b1 1 = 1 then firstError [useKey c d (c.b8 0x10) (importKek c.data) 1] else none)))

/-- The records and the ACTIVE head that a replacement starts from. -/
def replaceStart (c : Cmd) (d : Dev) : List Record × Record :=
  let l := storeOf d c.k (c.b8 8)
  (l, (activeNamed l (c.b8 8)).getD {})

/-- The effect of the record form. DESIGN CHOICE: a block is opened and judged before step 2 destroys a retiring version, and the class 9 twin of a
replaced class 8 pair stays as it is (log entry 94). -/
def replaceRecordEff (c : Cmd) (d : Dev) : Dev × Fin :=
  let h := c.b8 8
  let l := (replaceStart c d).1
  let v := (replaceStart c d).2
  let expected := slice c.p 0x20 5
  if c.b1 1 = 0 then
    if hClass h = 8 then
      let pair := freshPair v.alg (recBits v) (field v.params 2 1) d.ent.draws
      let n := nextVersion v pair.1
      replaceFin [] n (replaceRun (draw d 32).2 l v n (c.b8 0x18) expected c.i.testPasses)
    else
      let r := draw d (symLen v.alg)
      let n := nextVersion v r.1
      replaceFin [] n (replaceRun r.2 l v n (c.b8 0x18) expected c.i.testPasses)
  else
    let w := got (useKey c d (c.b8 0x10) (importKek c.data) 1)
    let d1 := useOnce d c.k w.1
    match tr31Open w.2 c.data with
    | none => (d1, failWith stMacMismatch)
    | some b =>
      match blockFault b (hClass h) (strength w.1.alg) v.kcvMethod v.params with
      | some st => (d1, failWith st)
      | none =>
        let x := replaceStart c d1
        let n := { nextVersion x.2 b.key with alg := blockAlg b, usage := b.usage, mode := b.mode, expo := b.expo }
        replaceFin [w.1] n (replaceRun d1 x.1 x.2 n (c.b8 0x18) expected c.i.testPasses)

/-! ### KEY_DESTROY (R184) -/

/-- Reported handles that a KEY_DESTROY of a handle ends. -/
def reportedOf (d : Dev) (h : Nat) : List Nat :=
  (d.vmp.report.map Prod.fst).filter fun x => keyOf x == keyOf h && (hVersion h == 0 || x == h)

/-- Checks of KEY_DESTROY: steps 1 to 3 of R158, a reported handle counting as a record. -/
def destroyCheck (c : Cmd) (d : Dev) : Option Nat :=
  let h := c.b8 0
  orElse (tenantStep c d h)
    (firstFail [(d.vmp.st == 0xF0, stKeyUnavailable),
      ((resolveIn (storeOf d c.k h) h).isNone && (reportedOf d h).isEmpty, stKeyNotFound)])

/-- The effect of KEY_DESTROY. -/
def destroyEff (c : Cmd) (d : Dev) : Dev × Fin :=
  let h := c.b8 0
  let l := storeOf d c.k h
  let gone := destroyed l h
  let lost := (reportedOf d h).map fun x : Nat => ({ handle := x, st := 0xF0 } : Record)
  let versions := ((gone.map Record.handle ++ lost.map Record.handle).eraseDups).length
  match applyEdit d (let e := destroyEdit l gone; { e with drops := e.drops ++ lost }) with
  | (d1, true) => (d1, ok (natLe 1 versions))
  | (d1, false) => (d1, failWith stBusy)

/-- KEY_DESTROY, opcode 0x1006 (06 R184). -/
def cardKeyDestroy : Card :=
  { tenantCard 0x1006 0 with
    lenOk := lens 8 0 0 0
    handles := fun c => [c.b8 0]
    route := fun c => some (c.b8 0)
    locks := fun c => [c.b8 0]
    busyOnHold := true
    check := destroyCheck
    eff := destroyEff }

/-! ### KEY_INFO (R185) -/

/-- A root slot of R169. -/
def rootSlotOk (s : Nat) : Bool :=
  decide (s ≤ 5) || (decide (0x10 ≤ s) && decide (s ≤ 0x1F)) || (decide (0x1000 ≤ s) && decide (s ≤ 0x1FFF))

/-- A bank as KEY_INFO shows it: SEQ, STATE, KCV, zero for an EMPTY bank. DESIGN CHOICE: SEQ in bytes 0 to 7, STATE in byte 8, KCV in bytes 9 to 13
(log entry 94). -/
def bankInfo (b : Bank) : Bytes := fitTo 16 (natLe 8 b.seq ++ natLe 1 b.code ++ if b.code = 0x0F then zeroBytes 5 else fitTo 5 b.kcv)

/-- The record a KEY_INFO answers: steps 1 to 4 for a tenant; class, then steps 3 and 4 for the PF. -/
def infoKey (c : Cmd) (d : Dev) : Except Nat (Record × Bytes) :=
  let h := c.b8 8
  if c.fn == .pf then (if hClass h = 0 ∨ 11 < hClass h then .error stKeyNotFound else readStep d c.k h) else readKey c d h

/-- The version of a key that is ACTIVE; 0 for none. -/
def activeVersion (l : List Record) : Nat := match l.find? (fun r => r.chainPos == 0 && r.st == 0x55) with | some r => hVersion r.handle | none => 0

/-- KEY_INFO, opcode 0x1007 (06 R185). -/
def cardKeyInfo : Card :=
  { Card.plain 0x1007 with
    tenant := true, group := some 0
    keyed := .onParams fun p => field p 0 1 == 0
    lenOk := lens 16 0 0 64
    paramOk := fun c => decide (c.b1 0 ≤ 1) && zeros c.p 1 1 && zeros c.p 4 4 &&
      (if c.b1 0 = 0 then zeros c.p 2 2 else zeros c.p 8 8 && rootSlotOk (c.b2 2))
    handles := fun c => if c.b1 0 = 0 then [c.b8 8] else []
    route := fun c => if c.b1 0 = 0 then some (c.b8 8) else none
    preCheck := fun c _ => if c.b1 0 = 1 ∧ c.fn ≠ .pf then some stNotPermitted else none
    check := fun c d => if c.b1 0 = 0 then firstError [infoKey c d] else none
    eff := fun c d =>
      if c.b1 0 = 0 then
        (d, okData [] (headBytes (got (infoKey c d)).1 ++ natLe 2 (activeVersion (storeOf d c.k (c.b8 8))) ++ zeroBytes 6))
      else (d, okData [] (bankInfo (rootSlot d (c.b2 2)).a ++ bankInfo (rootSlot d (c.b2 2)).b)) }

/-! ### KEY_DERIVE (R186) -/

/-- The base key of KEY_DERIVE (06 R173). -/
def derivePerm (r : Record) : Bool := hClass r.handle == 5 && r.usage == uOwn 1 && isAes r.alg && r.mode == mX

/-- Parameters of KEY_DERIVE. -/
def deriveParamOk (c : Cmd) : Bool :=
  let cls := hClass (c.b8 8)
  hVersion (c.b8 8) == 0 && isAes (c.b1 0x10) &&
    newAttrsOk cls (c.b1 0x10) (c.b2 0x12) (c.b1 0x11) (c.b1 0x15) (zeroBytes 7) &&
    decide (1 ≤ c.b1 0x16) && decide (c.b1 0x16 ≤ 32) && decide (c.b1 0x17 ≤ 32) && zeros c.p 0x28 8

/-- The key KEY_DERIVE creates. -/
def derivedKey (c : Cmd) (d : Dev) (base : Bytes) : NewKey :=
  let h := c.b8 8
  { handle := newHandle d h [hClass h], alg := c.b1 0x10, usage := c.b2 0x12, mode := c.b1 0x14, expo := c.b1 0x15, kcvMethod := c.b1 0x11,
    params := zeroBytes 7, notBefore := c.b8 0x18, notAfter := c.b8 0x20,
    material := kdf108 base (slice c.p 0x30 (c.b1 0x16)) (slice c.p (0x30 + c.b1 0x16) (c.b1 0x17)) (symLen (c.b1 0x10)) }

/-- KEY_DERIVE, opcode 0x1008 (06 R186). -/
def cardKeyDerive : Card :=
  { tenantCard 0x1008 0 with
    lenOk := fun e => decide (49 ≤ eParamLen e) && decide (eParamLen e ≤ 112) && decide (eDataLen e = 0)
    lenLate := fun c => decide (eParamLen c.entry = 48 + c.b1 0x16 + c.b1 0x17)
    paramOk := deriveParamOk
    handles := fun c => [c.b8 0, c.b8 8]
    route := fun c => some (c.b8 0)
    locks := fun c => [c.b8 8]
    drbg := fun _ => 1
    check := fun c d => orElse (firstError [useKey c d (c.b8 0) derivePerm 1])
      (createCheck c d (c.b8 8) (comboOk (hClass (c.b8 8)) (c.b2 0x12) (c.b1 0x10) (c.b1 0x14) &&
        paramsUsageOk (hClass (c.b8 8)) (c.b2 0x12) (c.b1 0x10) (zeroBytes 7)) 1)
    eff := fun c d =>
      let b := got (useKey c d (c.b8 0) derivePerm 1)
      let d1 := useOnce d c.k b.1
      let n := derivedKey c d1 b.2
      createAll d1 [n] (okUsing [b.1] (handleKcv n.handle n.kcv) [] []) }

/-! ### ATTEST (R177, R187) -/

/-- RING_MEMBER as IDENTIFY and ATTEST report it: the member number, 0xFF while RING_JOIN is low (04 R115). -/
def ringMemberByte (d : Dev) : Nat := if d.bay.ringJoin then memberNo d else 0xFF

/-- The evidence block (06 R177). -/
def evidence (c : Cmd) (d : Dev) : Bytes :=
  let im := d.mnt.running.getD {}
  let records := (d.vmp.slots.filter fun p => c.fn == .pf || hTenant p.2.handle == c.tenant).length
  natLe 8 d.otp.serial ++ natLe 2 (fnCode c.fn) ++ natLe 2 (ctxOf d c.k).gen ++ natLe 1 d.lcd.st ++ natLe 1 im.major ++ natLe 1 im.minor ++
    natLe 1 (ringMemberByte d) ++ natLe 4 im.security ++ zeroBytes 4 ++ natLe 8 (now d) ++ c.p.take 16 ++ natLe 8 records ++ zeroBytes 8

/-- The tenant's attestation handle (06 R148). -/
def attestHandle (c : Cmd) : Nat := mkHandle c.tenant 3 0xFFFFFFFE 0

/-- The attestation record: usage 98 and a mode that generates. -/
def attestPerm (r : Record) : Bool := r.usage == uOwn 8 && isAes r.alg && modeIn [mC, mG] r

/-- The private key of a root-store pair: the first part of its slot's content. -/
def rootPrivate (d : Dev) (slot alg : Nat) : Option Bytes := (rootContent d slot).map fun b => b.take (privLen alg 0)

/-- ATTEST, opcode 0x1010 (06 R187). -/
def cardAttest : Card :=
  { Card.plain 0x1010 with
    tenant := true, group := some 0
    lenOk := lens 16 0 0 0
    capFor := fun fn => if fn == .pf then 3373 else 64
    handles := fun c => if c.fn == .pf then [] else [attestHandle c]
    unit := fun c => if c.fn == .pf then .pk else .lane
    drbg := fun c => if c.fn == .pf then 1 else 0
    check := fun c d =>
      if c.fn == .pf then firstFail [((rootPrivate d 3 0x49).isNone, stKeyUnavailable)]
      else firstError [useKey c d (attestHandle c) attestPerm 1]
    takes := fun c d => if c.fn == .pf then [] else [((got (useKey c d (attestHandle c) attestPerm 1)).1, 1)]
    eff := fun c d =>
      let e := evidence c d
      if c.fn == .pf then
        ((draw d 32).2, okUsing [] (natLe 8 (now d))
          (e ++ fitTo 3309 (pkSign 0x30 0x49 3309 ((rootPrivate d 3 0x49).getD []) e 0 [] d.ent.draws)) [])
      else
        let x := got (useKey c d (attestHandle c) attestPerm 1)
        (useOnce d c.k x.1, okUsing [x.1] (aesCmac x.2 e) e []) }

/-! ## Meanings -/

/-- KEY_GENERATE (06 R179). -/
def execKeyGenerate (k : Nat) (i : Inputs) (s : State) := s.onDev (execCard cardKeyGenerate k i)
/-- KEY_IMPORT (06 R180). -/
def execKeyImport (k : Nat) (i : Inputs) (s : State) := s.onDev (execCard cardKeyImport k i)
/-- KEY_EXPORT (06 R181). -/
def execKeyExport (k : Nat) (i : Inputs) (s : State) := s.onDev (execCard cardKeyExport k i)
/-- KEY_DESTROY (06 R184). -/
def execKeyDestroy (k : Nat) (i : Inputs) (s : State) := s.onDev (execCard cardKeyDestroy k i)
/-- KEY_INFO (06 R185). -/
def execKeyInfo (k : Nat) (i : Inputs) (s : State) := s.onDev (execCard cardKeyInfo k i)
/-- KEY_DERIVE (06 R186). -/
def execKeyDerive (k : Nat) (i : Inputs) (s : State) := s.onDev (execCard cardKeyDerive k i)
/-- ATTEST (06 R187). -/
def execAttest (k : Nat) (i : Inputs) (s : State) := s.onDev (execCard cardAttest k i)

end Sys2Proof.Machine
end

