-- ==== Sys2Proof/Machine/Custody.lean ====
section
/-! DEFINITION. Custodians and dual control (14): enrolments and the policy, approval sessions, cards, ROOT_INIT, the unlock, and their
commands UNLOCK_REQUEST, UNLOCK_APPROVE, APPROVAL_BEGIN, APPROVAL_ADD, APPROVAL_CLOSE, CUSTODIAN, ROOT_INIT, CARD_OPEN. -/

namespace Sys2Proof.Machine

/-! ### Enrolments and the policy (R405 to R407) -/

/-- M, the enrolment mask and POLICY_SEQ as slot 0x001F holds them. -/
def policyContent (m mask seq : Nat) : Bytes := natLe 1 m ++ natLe 2 mask ++ natLe 8 seq
/-- The policy in force; empty without a usable root store. -/
def policyOf (d : Dev) : Bytes := (rootContent d 0x1F).getD []
/-- M, the quorum in force. -/
def quorum (d : Dev) : Nat := field (policyOf d) 0 1
/-- The mask of enrolment slots in force. -/
def enrolMask (d : Dev) : Nat := field (policyOf d) 1 2
/-- POLICY_SEQ in force. -/
def policySeq (d : Dev) : Nat := field (policyOf d) 3 8

/-- An enrolment in force: its slot's content while its policy bit is set. -/
def enrolment (d : Dev) (j : Nat) : Option Bytes := if bit (enrolMask d) j then rootContent d (0x10 + j) else none

/-- KIND, ROLES, ALGORITHM, CARD_SERIAL and PUBLIC_KEY of an enrolment (R405). -/
def enKind (e : Bytes) : Nat := field e 1 1
def enRoles (e : Bytes) : Nat := field e 2 1
def enAlg (e : Bytes) : Nat := field e 3 1
def enSerial (e : Bytes) : Nat := field e 8 8
def enKey (e : Bytes) : Bytes := slice e 0x3A (field e 0x38 2)

/-- An enrolment's bytes (R405). -/
def enrolBytes (index kind roles alg serial at' : Nat) (name pk : Bytes) : Bytes :=
  natLe 1 index ++ natLe 1 kind ++ natLe 1 roles ++ natLe 1 alg ++ zeroBytes 4 ++ natLe 8 serial ++ natLe 8 at' ++ fitTo 32 name ++
    natLe 2 pk.length ++ pk

/-- Enrolments in force, by index. -/
def inForce (d : Dev) : List Nat := (List.range 15).filter fun j => (enrolment d j).isSome
/-- Whether an enrolment in force carries a role: bit 0 APPROVER, bit 1 COMPONENT. -/
def hasRole (d : Dev) (role j : Nat) : Bool := match enrolment d j with | some e => bit (enRoles e) role | none => false
/-- Approvers in force. -/
def approvers (d : Dev) : Nat := ((inForce d).filter (hasRole d 0)).length

/-- The enrolment in force of a card, by its serial. -/
def cardEnrolment (d : Dev) (serial : Nat) : Option Nat :=
  (inForce d).find? fun j => match enrolment d j with | some e => enKind e == 0 && enSerial e == serial | none => false

/-- Bytes of a public key encoding of an enrolment's algorithm (09 R267). -/
def encLen (alg : Nat) : Nat := pubLen alg 0 + if isEcc alg then 1 else 0
/-- The class 9 material of an encoding. -/
def pubMaterial (alg : Nat) (enc : Bytes) : Bytes := if isEcc alg then enc.drop 1 else enc
/-- The signature scheme of a custodian's algorithm (R411). -/
def enScheme (alg : Nat) : Nat := if alg = 0x30 then 0x10 else if alg = 0x31 then 0x11 else 0x30

/-- Whether an enrolment's signature over a message verifies (R411). -/
def enVerify (e msg sig : Bytes) : Bool := pkVerify (enScheme (enAlg e)) (enAlg e) (pubMaterial (enAlg e) (enKey e)) msg 0 [] sig

/-! ### Approval sessions (R408 to R412) -/

/-- Session j. -/
def sessionOf (d : Dev) (j : Nat) : Session := d.lcd.sessions.getD j {}

/-- The approvals of a session that count: approvers in force, remote ones only while REMOTE_EN is 1 (R407, R410). -/
def counted (d : Dev) (s : Session) : List Nat :=
  s.approvedBy.filter fun j => hasRole d 0 j && (d.lcd.remoteEn || match enrolment d j with | some e => enKind e == 0 | none => false)

/-- Whether a session has its quorum. -/
def quorate (d : Dev) (s : Session) : Bool := decide (0 < quorum d) && decide (quorum d ≤ (counted d s).length)

/-- Every open session recounted: READY with its quorum, OPEN without (R407). -/
def recount (d : Dev) : Dev :=
  let old := d.lcd.sessions
  let new := old.map fun s => if s.code = 0x0F then s else { s with code := if quorate d s then 0x55 else 0x33 }
  let rose := (old.zip new).any fun p => p.1.code != 0x55 && p.2.code == 0x55
  { d with lcd.sessions := new, lcd.event := d.lcd.event ||| flag rose 0 }

/-- ACTION_DIGEST of a command (R409). -/
def actionDigest (c : Cmd) : Bytes :=
  sha256 (natLe 2 (eOpcode c.entry) ++ natLe 2 (fnCode c.fn) ++ c.p ++ sha256 c.data)

/-- ACTION_DIGEST of an unlock (R409). -/
def unlockDigest (bound : Nat) : Bytes := sha256 (ascii [0x49, 0x57, 0x2D, 0x55, 0x4E, 0x4C, 0x4F, 0x43, 0x4B] ++ natLe 8 bound)

/-- The statement a custodian signs (R411). -/
def statement (d : Dev) (kind action session custodian time : Nat) (challenge digest : Bytes) : Bytes :=
  ascii [0x49, 0x57, 0x41, 0x50] ++ natLe 1 1 ++ natLe 1 kind ++ natLe 2 action ++ natLe 8 d.otp.serial ++ natLe 1 session ++
    natLe 1 custodian ++ zeroBytes 6 ++ natLe 8 time ++ fitTo 32 challenge ++ fitTo 32 digest ++ zeroBytes 32

/-- The lowest FREE session. -/
def freeSession (d : Dev) : Option Nat := (findAt (fun s : Session => s.code == 0x0F) d.lcd.sessions 0).map Prod.fst

/-- A session opened in slot j for an action and digest, its challenge drawn from the DRBG (R410, R411). -/
def openSession (d : Dev) (j action : Nat) (digest : Bytes) (bound : Nat) : Dev :=
  let r := draw d 32
  let s : Session := { code := 0x33, action, digest, challenge := r.1, openedAt := now d, ttl := d.lcd.ttl, approvedBy := [], bound }
  logCustody { r.2 with lcd.sessions := modifyAt r.2.lcd.sessions j fun _ => s } 3 (natLe 1 j ++ natLe 2 action)

/-- Undefined session codes met by a command of this chapter: class L alarm, and the session closes (15 R450). -/
def checkSessions (d : Dev) : Dev :=
  match (d.lcd.sessions.zipIdx.filter fun p => !(p.1.code == 0x0F || p.1.code == 0x33 || p.1.code == 0x55)).head? with
  | none => d
  | some p => closeSession (invalidCode d 9 p.1.code clsL) p.2 false

/-! ### Cards (R413, R414; 02 R63) -/

/-- Card slot of a number. -/
def cardOf (d : Dev) (slot : Nat) : CardSlot := d.lcd.cards.getD slot {}
/-- A card slot changed by a function. -/
def modCard (d : Dev) (slot : Nat) (f : CardSlot → CardSlot) : Dev := { d with lcd.cards := modifyAt d.lcd.cards slot f }

/-- The reason a ceremony step on an opened card fails before its exchange; none if it may go ahead. -/
def cardReason (d : Dev) (slot : Nat) : Option Nat :=
  let c := cardOf d slot
  if !c.present then some 1 else if !c.opened || c.used || decide (c.openedAt + 120000000 < now d) then some 5 else none

/-- A card withdrawn: deactivated at once, its opening ended, logged (R414, 02 R63). -/
def withdraw (d : Dev) (slot : Nat) : Dev :=
  if (cardOf d slot).present then
    let d1 := logCustody (modCard d slot fun c => { lastFail := c.lastFail }) 1 (natLe 1 slot ++ natLe 8 (cardOf d slot).serial)
    { d1 with lcd.event := setBit d1.lcd.event 2 }
  else d

/-- A failed card step: CARD_FAILED with its reason (R414). -/
def cardFail (d : Dev) (slot reason : Nat) : Dev × Reply :=
  let d1 := if reason = 2 then withdraw d slot else d
  (modCard d1 slot fun c => { c with lastFail := reason }, { bare stCardFailed with result := fitTo 16 (natLe 1 reason) })

/-- An exchange with a card: what it returned, or the reason it failed. -/
def exchange : CardOutcome → Except Nat Bytes
  | .returned p => .ok p
  | .withdrawn => .error 2
  | .protocolError => .error 3
  | .refused => .error 4
  | .timedOut => .error 7

/-- The card deactivated after its one use (R413). -/
def useCard (d : Dev) (slot : Nat) : Dev := modCard d slot fun c => { c with opened := false, used := true }

/-! ### APPROVAL_ADD and UNLOCK_APPROVE (R422, R424) -/

/-- The refusal cause of an unlock session bound to a log position; 0 for none (15 R458). -/
def unlockCause (d : Dev) (bound : Nat) : Nat :=
  if (List.range 20).any fun s => bit d.sen.active s && !sourceDisabled d s && decide (clsL ≤ sourceClass d s) then 1
  else if (d.sen.log.any fun e => e.type == 1 && decide (clsL ≤ e.cls) && decide (bound ≤ e.seq)) ||
      (d.sen.submitted.any fun e => e.type == 1 && decide (clsL ≤ e.cls)) then 2
  else if 1048576 ≤ logUsed d then 3 else 0

/-- Leaving LOCKED (15 R459; the response level with it: log entry 25). -/
def unlock (d : Dev) (session mask : Nat) : Dev :=
  submit { d with glb.locked := false, keeper.latch := false, keeper.latchCause := 0xFF, sen.lockCause := 0xFF, sen.latched := 0, sen.hist := [],
                  sen.response := 0x0F } 0x0004 0 12 0xFFFE (natLe 1 session ++ natLe 2 mask)

/-- An unlock refused (15 R458). -/
def refuseUnlock (d : Dev) (session cause : Nat) : Dev :=
  submit { d with lcd.refuseCause := cause, sen.event := setBit d.sen.event 6 } 0x0005 0 12 0xFFFE (natLe 1 session ++ natLe 1 cause)

/-- Parameters of APPROVAL_ADD and UNLOCK_APPROVE. -/
def addParamOk (c : Cmd) : Bool :=
  decide (c.b1 0 ≤ 7) && decide (c.b1 1 ≤ 2) && (if c.b1 1 = 2 then decide (c.b1 2 ≤ 14) else c.b1 2 == 0) && zeros c.p 3 5

/-- Input data of APPROVAL_ADD: the signature of a remote approval, nothing for a card. -/
def addLenOk (c : Cmd) : Bool := if c.b1 1 = 2 then decide (64 ≤ c.dlen) && decide (c.dlen ≤ 3309) else decide (c.dlen = 0)

/-- A mask of enrolment indexes. -/
def maskOf (l : List Nat) : Nat := l.foldl setBit 0

/-- A valid approval of enrolment e given to session j. -/
def approve (unlocking : Bool) (d : Dev) (j e : Nat) : Dev × Fin :=
  let d1 := recount { d with lcd.sessions := modifyAt d.lcd.sessions j fun s => { s with approvedBy := insertNat s.approvedBy e } }
  let s := sessionOf d1 j
  let ready := s.code == 0x55
  let result := natLe 1 (counted d1 s).length ++ natLe 1 (if ready then 1 else 0) ++ natLe 1 e
  if unlocking && ready then
    let d2 := closeSession d1 j true
    let cause := unlockCause d2 s.bound
    if cause = 0 then (unlock d2 j (maskOf (counted d1 s)), ok (result ++ natLe 1 1)) else (refuseUnlock d2 j cause, failWith stNotPermitted)
  else (d1, ok result)

/-- Whether enrolment e may approve session s: an approver in force that has not yet approved. -/
def mayApprove (d : Dev) (s : Session) (e : Nat) : Bool := hasRole d 0 e && !s.approvedBy.contains e

/-- The effect of APPROVAL_ADD and UNLOCK_APPROVE. -/
def addEff (unlocking : Bool) (c : Cmd) (d0 : Dev) : Dev × Fin :=
  let d := checkSessions d0
  let j := c.b1 0
  let s := sessionOf d j
  let stmt := fun e => statement d 1 s.action j e s.openedAt s.challenge s.digest
  let valid := fun e sig => mayApprove d s e && match enrolment d e with | some b => enVerify b (stmt e) sig | none => false
  if s.code = 0x0F || (s.action == 9) != unlocking then (d, failWith stNotReady)
  else if c.b1 1 = 2 then
    let e := c.b1 2
    let remote := match enrolment d e with | some b => enKind b == 1 | none => false
    if !d.lcd.remoteEn then (d, failWith stNotPermitted)
    else if remote && valid e c.data then approve unlocking d j e else (d, failWith stApprovalInvalid)
  else
    let slot := c.b1 1
    match cardReason d slot with
    | some r => let x := cardFail d slot r; (x.1, .done x.2)
    | none =>
      match cardEnrolment d (cardOf d slot).serial with
      | none => let x := cardFail d slot 6; (x.1, .done x.2)
      | some e =>
        if !mayApprove d s e then (d, failWith stApprovalInvalid)
        else match exchange c.i.card with
          | .error r => let x := cardFail d slot r; (x.1, .done x.2)
          | .ok sig =>
            let d1 := useCard d slot
            if valid e sig then approve unlocking d1 j e else (d1, failWith stApprovalInvalid)

/-- APPROVAL_ADD, opcode 0x0221 (R424). -/
def cardApprovalAdd : Card :=
  { Card.plain 0x0221 with
    lenOk := lens 8 0 3309 0, lenLate := addLenOk, paramOk := addParamOk, unit := fun _ => .pk, eff := addEff false }

/-- UNLOCK_APPROVE, opcode 0x0211 (R422). -/
def cardUnlockApprove : Card :=
  { Card.plain 0x0211 with
    lenOk := lens 8 0 3309 0, lenLate := addLenOk, paramOk := addParamOk, unit := fun _ => .pk, eff := addEff true }

/-! ### UNLOCK_REQUEST, APPROVAL_BEGIN, APPROVAL_CLOSE (R421, R423, R425) -/

/-- UNLOCK_REQUEST, opcode 0x0210 (R421). -/
def cardUnlockRequest : Card :=
  { Card.plain 0x0210 with
    logs := .always, lenOk := lens 0 0 0 64, drbg := fun _ => 1
    check := fun _ d => firstFail [(!d.glb.locked, stNotReady), (d.lcd.unlockSession.isSome || (freeSession d).isNone, stBusy)]
    eff := fun _ d =>
      let j := (freeSession d).getD 0
      let d1 := { openSession d j 9 (unlockDigest d.sen.nextSeq) d.sen.nextSeq with lcd.unlockSession := some j }
      (d1, okData (natLe 1 j ++ zeroBytes 7 ++ natLe 8 (now d)) ((sessionOf d1 j).challenge ++ (sessionOf d1 j).digest)) }

/-- APPROVAL_BEGIN, opcode 0x0220 (R423). -/
def cardApprovalBegin : Card :=
  { Card.plain 0x0220 with
    logs := .always, lenOk := lens 40 0 0 128, drbg := fun _ => 1
    paramOk := fun c => decide (1 ≤ c.b2 0) && decide (c.b2 0 ≤ 8) && zeros c.p 2 6
    check := fun _ d => firstFail [((freeSession d).isNone, stBusy)]
    eff := fun c d =>
      let j := (freeSession d).getD 0
      let d1 := openSession d j (c.b2 0) (slice c.p 8 32) 0
      let s := sessionOf d1 j
      (d1, okData (natLe 2 j ++ natLe 2 s.action ++ zeroBytes 4 ++ natLe 8 (now d))
        (statement d 1 s.action j 0xFF s.openedAt s.challenge s.digest)) }

/-- APPROVAL_CLOSE, opcode 0x0222 (R425). -/
def cardApprovalClose : Card :=
  { Card.plain 0x0222 with
    logs := .always, lenOk := lens 8 0 0 0
    paramOk := fun c => decide (c.b1 0 ≤ 7) && zeros c.p 1 7
    check := fun c d => firstFail [((sessionOf d (c.b1 0)).code == 0x0F, stNotReady)]
    eff := fun c d => (closeSession d (c.b1 0) false, ok []) }

/-! ### CARD_OPEN (R428) -/

/-- Whether a passcode's digits are packed with 0xF beyond them (10 R287). -/
def passcodeOk (p : Bytes) (n : Nat) : Bool :=
  let nib := p.flatMap fun b => [b.toNat / 16, b.toNat % 16]
  (nib.take n).all (fun x => decide (x ≤ 9)) && (nib.drop n).all (fun x => x == 15)

/-- The effect of CARD_OPEN: the card is activated and VERIFY runs. -/
def cardOpenEff (c : Cmd) (d : Dev) : Dev × Fin :=
  let slot := c.b1 0
  if !(cardOf d slot).present then let x := cardFail d slot 1; (x.1, .done x.2)
  else match exchange c.i.card with
    | .error r => let x := cardFail d slot r; (x.1, .done x.2)
    | .ok _ =>
      let d1 := modCard d slot fun c => { c with opened := true, openedAt := now d, used := false }
      (d1, ok (natLe 8 (cardOf d slot).serial ++ natLe 1 (if (cardEnrolment d (cardOf d slot).serial).isSome then 1 else 0)))

/-- CARD_OPEN, opcode 0x0233 (R428). -/
def cardCardOpen : Card :=
  { Card.plain 0x0233 with
    lenOk := lens 16 0 0 0
    paramOk := fun c => decide (c.b1 0 ≤ 1) && decide (4 ≤ c.b1 1) && decide (c.b1 1 ≤ 12) && zeros c.p 2 6 && passcodeOk (slice c.p 8 8) (c.b1 1)
    eff := cardOpenEff }

/-! ### CUSTODIAN (R426) -/

/-- A root-store entry of the log: slot, bank, SEQ, outcome 0 committed, 1 failed, 2 abandoned (15 R454 TYPE 0x0023). -/
def logRoot (d : Dev) (slot : Nat) (inB : Bool) (seq outcome : Nat) : Dev :=
  submit d 0x0023 0 8 0xFFFE (natLe 2 slot ++ natLe 1 (if inB then 1 else 0) ++ natLe 8 seq ++ natLe 1 outcome)

/-- A committed replacement of a root slot, logged. -/
def commitLogged (d : Dev) (slot : Nat) (content kcv : Bytes) : Dev :=
  logRoot (commitRoot d slot content kcv) slot (bankToWrite d (rootSlot d slot)) (nextBankSeq (rootSlot d slot)) 0

/-- A change of the policy: written last, logged, the sessions recounted (R406, R407). -/
def setPolicy (d : Dev) (m mask op index : Nat) : Dev :=
  let d1 := commitLogged d 0x1F (policyContent m mask (policySeq d + 1)) []
  recount (logCustody { d1 with lcd.event := setBit d1.lcd.event 4 } 2 (natLe 1 op ++ natLe 1 index ++ natLe 1 m ++ natLe 2 mask))

/-- Whether M and the approvers of a mask satisfy R406. -/
def policyOk (m approverCount : Nat) : Bool := decide (2 ≤ approverCount) && decide (2 ≤ m) && decide (m ≤ approverCount)

/-- What a card's IDENTITY exchange returns: algorithm and public key encoding, of the forms R405 permits a card. -/
def identity (p : Bytes) : Option (Nat × Bytes) :=
  let alg := field p 0 1
  if (alg == 0x30 || alg == 0x48) && p.length == 1 + encLen alg then some (alg, p.drop 1) else none

/-- The enrolment to write for a source, or how it fails. `taken` says whether a card serial is enrolled already. -/
def newEnrolment (c : Cmd) (d : Dev) (source : Nat) (taken : Nat → Bool) : Except (Dev × Fin) (Dev × Bytes) :=
  let index := c.b1 1
  let name := slice c.p 0x10 32
  if source = 2 then
    let alg := c.b1 4
    if isEcc alg && !(field c.data 0 1 == 4 && onCurve alg c.data) then .error (d, failWith stBadParam)
    else .ok (d, enrolBytes index 1 (c.b1 3) alg 0 (now d) name c.data)
  else match cardReason d source with
    | some r => let x := cardFail d source r; .error (x.1, .done x.2)
    | none =>
      let serial := (cardOf d source).serial
      if taken serial then .error (d, failWith stKeyExists)
      else match exchange c.i.card with
        | .error r => let x := cardFail d source r; .error (x.1, .done x.2)
        | .ok p => match identity p with
          | none => let x := cardFail d source 3; .error (x.1, .done x.2)
          | some a => .ok (useCard d source, enrolBytes index 0 (c.b1 3) a.1 serial (now d) name a.2)

/-- Parameters of CUSTODIAN. -/
def custodianParamOk (c : Cmd) : Bool :=
  let op := c.b1 0
  decide (op ≤ 5) && zeros c.p 6 10 && (if op = 1 ∨ op = 2 then decide (c.b1 1 ≤ 14) else c.b1 1 == 0) &&
    (if op = 1 then decide (c.b1 2 ≤ 2) && decide (c.b1 3 < 4) else c.b1 2 == 0 && c.b1 3 == 0) &&
    (if (op = 1 ∧ c.b1 2 = 2) ∨ op = 4 then c.b1 4 == 0x31 || c.b1 4 == 0x49 else c.b1 4 == 0) && (op == 3 || c.b1 5 == 0) &&
    (op == 1 || zeros c.p 0x10 32)

/-- The list entry of an enrolment slot (OP 0). -/
def listEntry (d : Dev) (j : Nat) : Bytes :=
  match enrolment d j with
  | none => zeroBytes 64
  | some e => slice e 0 0x38 ++ (sha256 (enKey e)).take 5 ++ zeroBytes 3

/-- The effect of CUSTODIAN. -/
def custodianEff (c : Cmd) (d : Dev) : Dev × Fin :=
  let index := c.b1 1
  match c.b1 0 with
  | 0 => (d, okData (natLe 1 (quorum d) ++ natLe 1 (inForce d).length) ((List.range 15).flatMap (listEntry d)))
  | 1 =>
    if bit (enrolMask d) index then (d, failWith stBadParam)
    else match newEnrolment c d (c.b1 2) fun s => (cardEnrolment d s).isSome with
      | .error x => x
      | .ok (d1, e) =>
        let count := approvers d + if bit (enRoles e) 0 then 1 else 0
        if !policyOk (quorum d) count then (d1, failWith stBadParam)
        else (setPolicy (commitLogged d1 (0x10 + index) e ((sha256 (enKey e)).take 5)) (quorum d) (setBit (enrolMask d) index) 1 index, ok [])
  | 2 =>
    let count := ((inForce d).filter fun j => j != index && hasRole d 0 j).length
    if !policyOk (quorum d) count then (d, failWith stBadParam)
    else (setPolicy d (quorum d) (clearBits (enrolMask d) (2 ^ index)) 2 index, ok [])
  | 3 => if policyOk (c.b1 5) (approvers d) then (setPolicy d (c.b1 5) (enrolMask d) 3 0, ok []) else (d, failWith stBadParam)
  | 4 =>
    if isEcc (c.b1 4) && !(field c.data 0 1 == 4 && onCurve (c.b1 4) c.data) then (d, failWith stBadParam)
    else (commitLogged d 4 (natLe 1 (c.b1 4) ++ c.data) ((sha256 c.data).take 5), ok [])
  | _ =>
    let s := rootSlot d 4
    (logRoot (setRoot d 4 { a := { seq := s.a.seq }, b := { seq := s.b.seq } }) 4 false s.a.seq 0, ok [])

/-- CUSTODIAN, opcode 0x0230 (R426). -/
def cardCustodian : Card :=
  { Card.plain 0x0230 with
    logs := .onParams fun p => field p 0 1 != 0
    lenOk := lens 48 0 1952 0
    lenLate := fun c =>
      (if (c.b1 0 = 1 ∧ c.b1 2 = 2) ∨ c.b1 0 = 4 then c.b1 4 == 0 || decide (c.dlen = encLen (c.b1 4)) else decide (c.dlen = 0)) &&
        (c.b1 0 != 0 || decide (960 ≤ c.cap))
    paramOk := custodianParamOk
    approval := fun c _ => if c.b1 0 = 0 then none else some (if c.b1 0 ≤ 3 then 5 else 6, actionDigest c)
    eff := custodianEff }

/-! ### ROOT_INIT (R417, R427) -/

/-- A bank of a ROOT_INIT session: bank A at SEQ 1. -/
def initBank (d : Dev) (code : Nat) (content kcv : Bytes) : Slot :=
  { a := { seq := 1, code, wrapped := wrapRoot d content, kcv } }

/-- A slot WRITTEN by the session. -/
def initSlot (d : Dev) (slot : Nat) (content kcv : Bytes) : Dev := setRoot d slot (initBank d 0x33 content kcv)

/-- A root-store key pair drawn: private and public material, with the check value of its public key. -/
def rootPair (d : Dev) (slot alg : Nat) : Dev :=
  let pair := freshPair alg 0 0 d.ent.draws
  initSlot (draw d 32).2 slot (pair.1 ++ pair.2) (pubKcv alg pair.2)

/-- The keeper key drawn, as two shares with a mask from the keeper's own noise (06 R175); the zeroised flag clears (15 R432). -/
def drawKeeperKey (d : Dev) : Dev :=
  let r := draw d 32
  let mask : Bytes := (List.range 32).map (Config.keeperNoise d.keeper.timeUs)
  { r.2 with keeper.cells0 := some (xorBytes r.1 mask, mask), keeper.cells1 := none, keeper.cellSet := false, keeper.sense := false,
             keeper.zeroised := false }

/-- BEGIN. -/
def rootBegin (d : Dev) : Dev :=
  let d1 := { drawKeeperKey (zeroiseKeeper d) with keys.root := [], glb.rootOk := false }
  let r := draw d1 32
  let d2 := initSlot r.2 0 r.1 (symKcv 0x12 1 r.1)
  let d3 := rootPair (rootPair (rootPair d2 1 0x49) 2 0x31) 3 0x49
  let sec := match d3.mnt.running with | some im => im.security | none => 1
  { initSlot d3 5 (floorContent (2 ^ 40) sec) [] with lcd.rootInit := some [] }

/-- The content of a slot of the session. -/
def initContent (d : Dev) (slot : Nat) : Bytes := (unwrapRoot d (rootSlot d slot).a).getD []

/-- The attachment record made afresh from what was read at this start (02 R55). -/
def makeAttach (d : Dev) : Dev :=
  let record : Attach :=
    { dimms := d.bay.dimms.map fun m => if m.fitted then m.serial else 0
      cell := d.bay.cell.serial, cellFitted := d.bay.cellAt, chassis := d.bay.chassis, position := bayPosition d }
  { d with bay.attach := some record }

/-- Every bank WRITTEN by the session becomes VERIFIED. -/
def verifyAll (d : Dev) : Dev :=
  { d with keys.root := d.keys.root.map fun p => (p.1, { p.2 with a := { p.2.a with code := 0x55 } }) }

/-- FINISH, its conditions met. -/
def rootFinish (d : Dev) (m : Nat) (l : List Nat) : Dev :=
  let mask := maskOf l
  let d1 := verifyAll (initSlot d 0x1F (policyContent m mask 1) [])
  let d2 := { d1 with glb.rootOk := true, keys.floor := 2 ^ 40, keys.floorSpent := false, keys.stash := none, lcd.rootInit := none, lcd.event := setBit d1.lcd.event 4 }
  recount (makeAttach (logCustody d2 2 (natLe 1 3 ++ natLe 1 0 ++ natLe 1 m ++ natLe 2 mask)))

/-- The effect of ROOT_INIT. -/
def rootInitEff (c : Cmd) (d : Dev) : Dev × Fin :=
  match c.b1 0, d.lcd.rootInit with
  | 0, some _ => (d, failWith stBusy)
  | 0, none =>
    if (d.lcd.st == 0x55 || d.lcd.st == 0x96) && (bankInForce d (rootSlot d 0)).isNone && !d.bay.ringJoin && d.vmp.st == 0x0F then
      (if c.i.testPasses then (rootBegin d, ok []) else ((draw d 32).2, failWith stKeyTestFail))
    else (d, failWith stNotReady)
  | _, none => (d, failWith stNotReady)
  | 3, some l =>
    let cards := l.filter fun j => enKind (initContent d (0x10 + j)) == 0 && bit (enRoles (initContent d (0x10 + j))) 0
    let count := (l.filter fun j => bit (enRoles (initContent d (0x10 + j))) 0).length
    if decide (2 ≤ cards.length) && policyOk (c.b1 5) count then
      let d1 := rootFinish d (c.b1 5) l
      (d1, ok (fitTo 5 (rootSlot d1 3).a.kcv ++ zeroBytes 3 ++ natLe 8 (now d)))
    else (d, failWith stBadParam)
  | 4, some _ => ({ d with lcd.rootInit := none, keys.root := [] }, ok [])
  | _, some l =>
    let index := c.b1 1
    let source := if c.b1 0 = 2 then 2 else c.b1 2
    if l.contains index then (d, failWith stBadParam)
    else match newEnrolment c d source fun s => l.any fun j => enKind (initContent d (0x10 + j)) == 0 && enSerial (initContent d (0x10 + j)) == s with
      | .error x => x
      | .ok (d1, e) => ({ initSlot d1 (0x10 + index) e ((sha256 (enKey e)).take 5) with lcd.rootInit := some (insertNat l index) }, ok [])

/-- Parameters of ROOT_INIT, in the layout of CUSTODIAN. -/
def rootInitParamOk (c : Cmd) : Bool :=
  let op := c.b1 0
  decide (op ≤ 4) && zeros c.p 6 10 && (if op = 1 ∨ op = 2 then decide (c.b1 1 ≤ 14) && decide (c.b1 3 < 4) else c.b1 1 == 0 && c.b1 3 == 0) &&
    (if op = 1 then decide (c.b1 2 ≤ 1) else if op = 2 then c.b1 2 == 0 || c.b1 2 == 2 else c.b1 2 == 0) &&
    (if op = 2 then c.b1 4 == 0x31 || c.b1 4 == 0x49 else c.b1 4 == 0) && (op == 3 || c.b1 5 == 0) &&
    (op == 1 || op == 2 || zeros c.p 0x10 32)

/-- ROOT_INIT, opcode 0x0231 (R427). -/
def cardRootInit : Card :=
  { Card.plain 0x0231 with
    logs := .onParams fun p => field p 0 1 == 3
    lenOk := lens 48 0 1952 0
    lenLate := fun c => if c.b1 0 = 2 then c.b1 4 == 0 || decide (c.dlen = encLen (c.b1 4)) else decide (c.dlen = 0)
    paramOk := rootInitParamOk
    drbg := fun c => if c.b1 0 = 0 then 1 else 0
    eff := rootInitEff }

/-! ## Meanings -/

/-- UNLOCK_REQUEST (14 R421). -/
def execUnlockRequest (k : Nat) (i : Inputs) (s : State) := s.onDev (execCard cardUnlockRequest k i)
/-- UNLOCK_APPROVE (14 R422). -/
def execUnlockApprove (k : Nat) (i : Inputs) (s : State) := s.onDev (execCard cardUnlockApprove k i)
/-- APPROVAL_BEGIN (14 R423). -/
def execApprovalBegin (k : Nat) (i : Inputs) (s : State) := s.onDev (execCard cardApprovalBegin k i)
/-- APPROVAL_ADD (14 R424). -/
def execApprovalAdd (k : Nat) (i : Inputs) (s : State) := s.onDev (execCard cardApprovalAdd k i)
/-- APPROVAL_CLOSE (14 R425). -/
def execApprovalClose (k : Nat) (i : Inputs) (s : State) := s.onDev (execCard cardApprovalClose k i)
/-- CUSTODIAN (14 R426). -/
def execCustodian (k : Nat) (i : Inputs) (s : State) := s.onDev (execCard cardCustodian k i)
/-- ROOT_INIT (14 R427). -/
def execRootInit (k : Nat) (i : Inputs) (s : State) := s.onDev (execCard cardRootInit k i)
/-- CARD_OPEN (14 R428). -/
def execCardOpen (k : Nat) (i : Inputs) (s : State) := s.onDev (execCard cardCardOpen k i)

/-! ## Card and session events -/

/-- CARD_INSERTED (02 R63): the card's serial is read, the card deactivated again, and the insertion logged. -/
def cardInsertedEff (slot serial : Nat) (classB : Bool) (d : Dev) : Dev :=
  if d.bay.mainLoads && decide (slot < 2) then
    let d0 := withdraw d slot
    let d1 := logCustody (modCard d0 slot fun c => { present := true, serial, classB, lastFail := c.lastFail }) 0 (natLe 1 slot ++ natLe 8 serial)
    { d1 with lcd.event := setBit d1.lcd.event 2 }
  else d
def execCardInserted (slot serial : Nat) (classB : Bool) (s : State) := s.onDev (cardInsertedEff slot serial classB)

/-- A card step under way in a context ends with CARD_FAILED (R414). -/
def endCardStep (d : Dev) (slot k reason : Nat) : Dev :=
  let x := cardFail d slot reason
  finishWith x.1 k x.2 true false

/-- CARD_WITHDRAWN (14 R414, 02 R63): an exchange in progress fails with reason 2; the opening ends. -/
def cardWithdrawnEff (slot : Nat) (d : Dev) : Dev :=
  match (cardOf d slot).exchange with
  | some k => if (cardOf d slot).present then endCardStep d slot k 2 else d
  | none => withdraw d slot
def execCardWithdrawn (slot : Nat) (s : State) := s.onDev (cardWithdrawnEff slot)

/-- CARD_EXCHANGE_TIMEOUT (14 R413, R414): an exchange of 5 s fails with reason 7. -/
def cardExchangeTimeoutEff (slot : Nat) (d : Dev) : Dev :=
  match (cardOf d slot).exchange with
  | some k => endCardStep (modCard d slot fun c => { c with exchange := none }) slot k 7
  | none => d
def execCardExchangeTimeout (slot : Nat) (s : State) := s.onDev (cardExchangeTimeoutEff slot)

/-- CARD_OPENING_EXPIRY (14 R413): 120 s after its opening the card is deactivated. -/
def cardOpeningExpiryEff (slot : Nat) (d : Dev) : Dev :=
  if (cardOf d slot).opened then modCard d slot fun c => { c with opened := false } else d
def execCardOpeningExpiry (slot : Nat) (s : State) := s.onDev (cardOpeningExpiryEff slot)

/-- APPROVAL_SESSION_EXPIRY (14 R410): APPROVAL_TTL seconds after its opening a session closes. -/
def approvalSessionExpiryEff (j : Nat) (d : Dev) : Dev :=
  if (sessionOf d j).code = 0x0F then d else closeSession d j false
def execApprovalSessionExpiry (j : Nat) (s : State) := s.onDev (approvalSessionExpiryEff j)

end Sys2Proof.Machine
end

