-- ==== Sys2Proof/Machine/Resets.lean ====
section
/-! DEFINITION. Resets of functions and the generation number (03 R67 to R73, R82 to R85): the shared operation, the fabric's access-table
entries for VF windows (13 R378), and the PCIe events of the table. -/

namespace Sys2Proof.Machine

/-! ## The generation search (03 R84) -/

/-- The generation after `g`, skipping 0. -/
def genAfter (g : Nat) : Nat := if g + 1 = 2 ^ 16 then 1 else g + 1

/-- The first generation after `g` that no value of `used` equals; `fuel` bounds the search. -/
def freshGen (used : List Nat) : (fuel g : Nat) → Nat
  | 0, g => g
  | f + 1, g => if used.contains g then freshGen used f (genAfter g) else g

/-- The stamps of a function's commands in flight, forwarded ones among them. -/
def stampsOf (d : Dev) (fn : Fn) : List Nat :=
  (d.sch.ctxs.filter fun x => ctxHeld x.2 && x.2.origin.isNone && x.2.fn == fn).map fun x => x.2.gen

/-- The new generation of a function. -/
def newGen (d : Dev) (fn : Fn) : Nat := freshGen (stampsOf d fn) 4097 (genAfter (genOf d fn))

/-- The generation of a function advanced, RESET_COUNT of a tenant with it. -/
def advanceGen (d : Dev) (fn : Fn) : Dev :=
  match fn with
  | .pf => { d with glb.pfGen := newGen d .pf }
  | .vf n => modTn d n fun t => { t with gen := newGen d (.vf n), resetCount := (t.resetCount + 1) % 256 }

/-! ## What a reset ends (03 R82, R83) -/

/-- A command of a function stamped with an old generation. -/
def stale (d : Dev) (fn : Fn) (c : Ctx) : Bool := ctxHeld c && c.origin.isNone && c.fn == fn && c.gen != genOf d fn

/-- Whether a stale command ends at once: its writes are held or wait, it streams, it waits under FENCE, or it still needs host memory to start. -/
def endsAtReset (d : Dev) (c : Ctx) : Bool :=
  writesHeld c || c.stream.isSome || c.wait == .fence || abandoned d c

/-- The commands of a function that a reset finds in flight: those R83 abandons or stops are counted, the others run to their end. -/
def settleStale (d : Dev) (fn : Fn) : Dev :=
  let d1 := (ctxsWhere d fun c => stale d fn c && endsAtReset d c).foldl discard d
  wakeWhere d1 fun c => stale d1 fn c && c.wait == .hostMemory

/-- Fetching stops for a function: reads of its entries issued and not answered bring nothing. -/
def stopFetch (d : Dev) (fn : Fn) : Dev := { d with host.reads := d.host.reads.filter fun r => r.fn != fn }

/-- The registers of a VF at their reset values (03 R77, R81, 04 R92). -/
def restoredTenant (t : Tenant) : Tenant :=
  { t with qps := [], msix := [], event := 0, eventEn := 0, eventVector := 0, lockKey := 0, lockReq := false, forced := false,
           refused := false, st := if t.st = 3 then 3 else 0 }

/-- A tenant reset (03 R82): generation, fetching, lock, commands in flight, then the registers. -/
def resetTenantFn (d : Dev) (n : Nat) : Dev :=
  let d1 := stopFetch (advanceGen d (.vf n)) (.vf n)
  let d2 := settleStale (forceRelease d1 n) (.vf n)
  modTn { d2 with eng.lockQueue := d2.eng.lockQueue.filter (· != n) } n restoredTenant

/-- A check-value job in register mode ended by a PF reset (16 R465; ERROR with ERR: log entry 27). -/
def endRegisterJob (u : Cvu) : Cvu :=
  if u.busy && u.cmd.isNone then { u with busy := false, error := true, err := 3 } else u

/-- A token session ended by a reset of the PF; a transition that has not begun to program INTENT ends with it (14 R400, R402). -/
def endToken (d : Dev) : Dev :=
  if d.lcd.phase = .draining then
    let d1 := match d.lcd.execCtx with | some k => discard d k | none => d
    { d1 with lcd.phase := .none, lcd.execCtx := none, lcd.pendingTarget := 0, lcd.token := none }
  else { d with lcd.token := none }

/-- The PF's registers at their reset values (03 R77, R78; 04 R110; 05 R133). -/
def restorePf (d : Dev) : Dev :=
  { d with
    glb.admin := {}, glb.eventEn := 0, glb.cfgReject := false, glb.cfgCause := false, glb.cfgOffset := 0
    host.pfMsix := [], host.tenantSel := 0, sch.tenantSel := 0, cvu.units := d.cvu.units.map endRegisterJob }

/-- Every tenant, T0 to T4095. -/
def everyTenant : List Nat := List.range 4096

/-- Every tenant reset. -/
def resetTenants (d : Dev) : Dev := everyTenant.foldl resetTenantFn d

/-- A policy that is due takes force. -/
def takePolicy (t : Tenant) : Tenant :=
  match t.policyDue with
  | none => t
  | some p => { t with policySet := true, maxPrio := p.maxPrio, contextCap := p.contextCap, classMask := p.classMask, groupMask := p.groupMask, policyDue := none }

/-- The policies that are due take force: the completions of their commands are issued, or never will be (04 R117). -/
def takePolicies (d : Dev) : Dev :=
  if d.tenants.any fun p => p.2.policyDue.isSome then { d with tenants := d.tenants.map fun p => (p.1, takePolicy p.2) } else d

/-- The PF and every tenant reset (03 R82; 14 R400, R410). -/
def resetPf (d : Dev) : Dev :=
  let d1 := takePolicies (settleStale (stopFetch (advanceGen d .pf) .pf) .pf)
  closeSessions (endToken (restorePf (resetTenants d1)))

/-! ## VFs and their windows (03 R70, R71; 13 R378) -/

/-- The service UART's entry is open where input is accepted (14 R404). -/
def uartInput (lc : Nat) : Bool := lc == 0x33 || lc == 0x3C

/-- The entry for the VF register windows: VF 0 to NumVFs − 1 (13 R378; its number and classes: log entry 28). -/
def vfEntry (numVFs : Nat) : ActEntry :=
  if numVFs = 0 then {}
  else { base := 0x20000000 / 64, last := (0x20000000 + 0x10000 * numVFs) / 64 - 1, mask := 0x01C, r := true, w := true, valid := true }

/-- The VF windows opened for the VFs that exist, in the table and its staging copy. -/
def openVfWindows (d : Dev) : Dev :=
  let e := vfEntry (if d.host.vfEnable then d.host.numVFs else 0)
  { d with act.entries := tabPut {} d.act.entries 32 e, act.stage := tabPut {} d.act.stage 32 e }

/-- Bus Master Enable of a function set or cleared. -/
def setBme (d : Dev) (fn : Fn) (v : Bool) : Dev :=
  match fn with
  | .pf => { d with host.pfBme := v }
  | .vf n => modTn d n fun t => { t with bme := v }

/-- Whether a function answers on the link. -/
def fnExists (d : Dev) : Fn → Bool
  | .pf => d.host.linkUp
  | .vf n => vfExists d n

/-- Every VF's configuration space at its defaults (log entry 26). -/
def clearVfBme (d : Dev) : Dev :=
  { d with tenants := d.tenants.foldl (fun tab p => tabPut {} tab p.1 { p.2 with bme := false, cfg := {} }) d.tenants }

/-- VF Enable cleared: the VFs cease to exist on the host. -/
def dropVfs (d : Dev) : Dev := openVfWindows (clearVfBme { d with host.vfEnable := false })

/-- A reset of one function by FLR or by its return from D3hot: its configuration space returns to its defaults (log entry 26). -/
def functionReset (d : Dev) (fn : Fn) : Dev :=
  match fn with
  | .vf n => modCfg (setBme (resetTenantFn d n) fn false) fn fun _ => {}
  | .pf => dropVfs { setBme (resetPf d) .pf false with host.numVFs := 0, host.pfCfg := {} }

/-- The host interface reset (03 R67): link, configuration space, every function. -/
def hostReset (d : Dev) : Dev := dropVfs { setBme (resetPf d) .pf false with host.numVFs := 0, host.pfCfg := {}, host.linkUp := false }

/-! ## Meanings -/

/-- FLR of VF n (03 R85). -/
def flrVfEff (n : Nat) (d : Dev) : Dev := if vfExists d n && !d.glb.failStop then functionReset d (.vf n) else d
def execFlrVf (n : Nat) (s : State) := s.onDev (flrVfEff n)

/-- FLR of the PF (03 R85). -/
def flrPfEff (d : Dev) : Dev := if d.host.linkUp && !d.glb.failStop then functionReset d .pf else d
def execFlrPf (s : State) := s.onDev flrPfEff

/-- A function returns from D3hot to D0 (03 R69). -/
def d3hotReturnEff (fn : Fn) (d : Dev) : Dev := if fnExists d fn && !d.glb.failStop then functionReset d fn else d
def execD3hotReturn (fn : Fn) (s : State) := s.onDev (d3hotReturnEff fn)

/-- VF Enable cleared (03 R82). -/
def vfEnableClearEff (d : Dev) : Dev :=
  if d.host.linkUp && d.host.vfEnable then dropVfs (resetTenants d) else d
def execVfEnableClear (s : State) := s.onDev vfEnableClearEff

/-- VF Enable set, or NumVFs changed (03 R70, R71). -/
def vfEnableSetEff (numVFs : Nat) (d : Dev) : Dev :=
  if d.host.linkUp then openVfWindows { d with host.vfEnable := true, host.numVFs := numVFs } else d
def execVfEnableSet (numVFs : Nat) (s : State) := s.onDev (vfEnableSetEff numVFs)

/-- Bus Master Enable of a function goes to 0 (03 R73). -/
def busMasterEnableClearEff (fn : Fn) (d : Dev) : Dev := if fnExists d fn then setBme d fn false else d
def execBusMasterEnableClear (fn : Fn) (s : State) := s.onDev (busMasterEnableClearEff fn)

/-- The writes of a held command go out, after the generation check (03 R73, 04 R108). -/
def writeHeld (d : Dev) (k : Nat) : Dev :=
  let c := ctxOf d k
  finishWith d k (c.held.getD (bare stInternalFault)) ((c.inputs.map Inputs.replyWriteOk).getD true) c.sentTo.isSome

/-- Vectors of a function. -/
def vectorCount : Fn → Nat
  | .pf => 64
  | .vf _ => 4

/-- Bus Master Enable of a function returns to 1: waiting requests go on, held writes and messages go out (03 R73, R77). -/
def busMasterEnableSetEff (fn : Fn) (d : Dev) : Dev :=
  if fnExists d fn then
    let d1 := setBme d fn true
    let d2 := (ctxsWhere d1 fun c => writesHeld c && c.origin.isNone && c.fn == fn).foldl writeHeld d1
    let d3 := wakeWhere (if fn = .pf then takePolicies d2 else d2) fun c => c.origin.isNone && c.fn == fn && c.wait == .hostMemory
    (List.range (vectorCount fn)).foldl (fun d v => releaseVector d fn v) d3
  else d
def execBusMasterEnableSet (fn : Fn) (s : State) := s.onDev (busMasterEnableSetEff fn)

/-- PERST_N asserted, or the link down (03 R67; after fail-stop 17 R489). -/
def perstOrLinkDownEff (perst : Bool) (d : Dev) : Dev :=
  let d1 := { d with bay.perst := d.bay.perst || perst }
  if d.bay.fabric && (d.host.linkUp || (perst && !d.bay.perst)) then hostReset d1 else d1
def execPerstOrLinkDown (perst : Bool) (s : State) := s.onDev (perstOrLinkDownEff perst)

/-- PERST_N released, or high when the link trains again: configuration space answers (03 R64, R67, R535). -/
def perstReleaseEff (d : Dev) : Dev := { d with bay.perst := false, host.linkUp := d.host.linkUp || d.bay.fabric }
def execPerstRelease (s : State) := s.onDev perstReleaseEff

end Sys2Proof.Machine
end

