-- ==== Sys2Proof/Machine/Queues.lean ====
section
/-! DEFINITION. The queue manager (04 R87 to R107, R536): doorbells, queue pairs enabled and disabled, fetch decisions, entries that arrive,
interrupt coalescing. -/

namespace Sys2Proof.Machine

/-! ## Queue pairs -/

/-- Whether a queue pair's registers exist (04 R92). -/
def qpExists (d : Dev) : Fn → Nat → Bool
  | .pf, q => q == 0
  | .vf n, q => decide (q < (tn d n).qpCount)

/-- Whether every condition of R72 that applies to a function holds: tenants only. -/
def mayFetch (d : Dev) : Fn → Bool
  | .pf => true
  | .vf n => admitted d n

/-! ## Doorbells (R88, R93) -/

/-- A doorbell ignored: DOORBELL_ERR of a tenant's queue pair. -/
def doorbellErr (d : Dev) (fn : Fn) (q : Nat) : Dev :=
  match fn with
  | .pf => d
  | .vf _ => modQp d fn q fun p => { p with doorbellErr := true }

/-- Whether a CQ head moves past the CQ tail. -/
def headPast (p : Qp) (idx : Nat) : Bool :=
  let size := 2 ^ p.cqSize
  decide ((p.cqTail + size - p.cqHead) % size < (idx + size - p.cqHead) % size)

/-- A write of a queue pair's SQ_TAIL (R88, R93; 03 R72). -/
def writeSqTail (fn : Fn) (q idx : Nat) (d : Dev) : Dev :=
  if !qpExists d fn q then d
  else
    let p := qpOf d fn q
    if !p.enable || !mayFetch d fn || decide (2 ^ p.sqSize ≤ idx) then doorbellErr d fn q
    else setQp d fn q { p with sqTail := idx }

/-- A write of a queue pair's CQ_HEAD (R88, R91, R93). -/
def writeCqHead (fn : Fn) (q idx : Nat) (d : Dev) : Dev :=
  if !qpExists d fn q then d
  else
    let p := qpOf d fn q
    if !p.enable || !mayFetch d fn || decide (2 ^ p.cqSize ≤ idx) || headPast p idx then doorbellErr d fn q
    else setQp d fn q { p with cqHead := idx }

/-! ## Queue pairs configured (R89, R92; 03 R78; 05 R142) -/

/-- A queue pair enabled: SQ head and CQ tail 0, phase 1 (R89); the indices of its doorbells with them (log entry 36). -/
def enabledQp (p : Qp) : Qp :=
  { p with enable := true, sqHead := 0, cqTail := 0, phase := true, sqTail := 0, cqHead := 0, unsignalled := 0, retryHold := false }

/-- A queue pair disabled: reads of its entries not yet answered bring nothing (R92; log entry 36). -/
def disableQp (d : Dev) (fn : Fn) (q : Nat) : Dev :=
  modQp { d with host.reads := d.host.reads.filter fun r => !(r.fn == fn && r.q == q) } fn q fun p => { p with enable := false, retryHold := false }

/-- Busy, for quiesce-only fields: ENABLE is 1 or IDLE is 0 (R92; for the admin queue 03 R78). -/
def qpBusy (p : Qp) : Bool := p.enable || decide (p.inflight ≠ 0)

/-- A size field within 4 to 12. -/
def sizeOk (s : Nat) : Bool := decide (4 ≤ s) && decide (s ≤ 12)

/-- The admin queue is busy while ENABLE is 1 or an admin command is in flight, one with an old stamp among them (03 R78). -/
def adminBusy (d : Dev) : Bool := d.glb.admin.enable || decide (0 < countCtx d isAdmin)

/-- What rejects a write of a CFG word, with its CAUSE: sizes changed while busy, sizes out of range, ENABLE without bases. -/
def cfgFault (busy : Bool) (p : Qp) (w : Nat) : Option Bool :=
  let s := bits w 11 8
  let c := bits w 15 12
  if busy && (s != p.sqSize || c != p.cqSize) then some false
  else if !sizeOk s || !sizeOk c || (bit w 0 && (p.sqBase == 0 || p.cqBase == 0)) then some true
  else none

/-- The ENABLE bit of a CFG word takes effect. -/
def writeEnable (d : Dev) (fn : Fn) (q w : Nat) : Dev :=
  if bit w 0 then modQp d fn q fun p => if p.enable then p else enabledQp p else disableQp d fn q

/-- A write of QM_QP_CFG. -/
def writeQpCfg (n q w : Nat) (d : Dev) : Dev :=
  if (cfgFault (qpBusy (qpOf d (.vf n) q)) (qpOf d (.vf n) q) w).isSome then rejectVf d n
  else
    writeEnable (modQp d (.vf n) q fun p => { p with irqEn := bit w 1, vector := bits w 5 4, sqSize := bits w 11 8, cqSize := bits w 15 12 })
      (.vf n) q w

/-- A write of GLB_ADMIN_CFG. -/
def writeAdminCfg (w : Nat) (d : Dev) : Dev :=
  match cfgFault (adminBusy d) d.glb.admin w with
  | some cause => rejectPf d cause 0x50
  | none =>
    writeEnable (modQp d .pf 0 fun p => { p with irqEn := bit w 1, fetchErr := p.fetchErr && !bit w 2, sqSize := bits w 11 8, cqSize := bits w 15 12 })
      .pf 0 w

/-! ## Fetch decisions (R104, R105, R107) -/

/-- Contexts of a division set aside by reads not yet answered. -/
def setAside (d : Dev) (p : Fn → Bool) : Nat := ((d.host.reads.filter fun r => p r.fn).map FetchRead.count).foldl (· + ·) 0

/-- Contexts free to a function's commands: 64 for admin, 3,584 for tenants up to each CONTEXT_CAP (R105). -/
def contextsFree (d : Dev) : Fn → Nat
  | .pf => 64 - countCtx d isAdmin - setAside d (· == .pf)
  | .vf n =>
    min (3584 - countCtx d isTenant - setAside d (· != .pf)) ((tn d n).contextCap - countCtx d (isOf n) - setAside d (· == .vf n))

/-- Entries that credit allows: as many as a tenant's credit, less those being read; admin commands use none (R106). -/
def creditFor (d : Dev) : Fn → Nat
  | .pf => 8
  | .vf n => ((tn d n).credit - (setAside d (· == .vf n) : Nat)).toNat

/-- Room for completions (R91): in flight and written but not released stay within 2^C − 1. -/
def cqRoom (p : Qp) : Nat := 2 ^ p.cqSize - 1 - p.inflight - (p.cqTail + 2 ^ p.cqSize - p.cqHead) % 2 ^ p.cqSize

/-- Entries a read of a queue pair would fetch now: consecutive in memory, at most 8, one read of a queue pair at a time (log entry 36). -/
def fetchCount (d : Dev) (fn : Fn) (q : Nat) : Nat :=
  let p := qpOf d fn q
  if !p.enable || p.fenced || p.retryHold || (d.host.reads.any fun r => r.fn == fn && r.q == q) then 0
  else min (min (min 8 (contextsFree d fn)) (min (creditFor d fn) (cqRoom p)))
    (min ((p.sqTail + 2 ^ p.sqSize - p.sqHead) % 2 ^ p.sqSize) (2 ^ p.sqSize - p.sqHead))

/-- Whether the conditions on a function let its entries be fetched (R72, R107; 01 R24; 14 R401; 17 R481). -/
def fetchOpen (d : Dev) (fn : Fn) : Bool :=
  d.bay.fabric && d.host.linkUp && !d.glb.failStop && !d.bay.seatHigh && bmeOf d fn &&
    match fn with
    | .pf => true
    | .vf n => admitted d n && d.glb.pace != 0 && !draining d && d.lcd.phase == .none && (tn d n).st != 3

/-- A read of a queue pair's next entries issued. -/
def issueFetch (d : Dev) (fn : Fn) (q : Nat) : Dev :=
  let p := qpOf d fn q
  let n := fetchCount d fn q
  dma { d with host.reads := d.host.reads ++ [{ fn, q, first := p.sqHead, count := n }] } 5 .read (.hostRead fn (p.sqBase + 128 * p.sqHead) (128 * n))

/-- The queue pairs of a tenant in round-robin order. -/
def qpOrder (d : Dev) (n : Nat) : List Nat :=
  let t := tn d n
  (List.range t.qpCount).map fun i => (t.rrNext + i) % t.qpCount

/-- The queue pair of a tenant that is fetched next. -/
def nextQp (d : Dev) (n : Nat) : Option Nat :=
  if fetchOpen d (.vf n) then (qpOrder d n).find? fun q => decide (0 < fetchCount d (.vf n) q) else none

/-- The tenants in round-robin order. -/
def tenantOrder (d : Dev) : List Nat :=
  let l := d.tenants.map Prod.fst
  l.filter (fun n => decide (d.host.rrTenant ≤ n)) ++ l.filter (fun n => decide (n < d.host.rrTenant))

/-- A tenant queue pair served: the rotations move past it. -/
def serveTenant (d : Dev) (n q : Nat) : Dev :=
  modTn { issueFetch d (.vf n) q with host.rrTenant := (n + 1) % 4096 } n fun t => { t with rrNext := q + 1 }

/-! ## Commits of VFCFG (03 R79, R80; 05 R141, R143, R144) -/

/-- Whether an entry has shadowed changes. -/
def dirty (t : Tenant) : Bool := t.enableShadow != t.enable || t.lockAllowedShadow != t.lockAllowed || t.weightShadow != t.weight

/-- One entry's shadow values take effect, or the commit is rejected and the shadow returns; ENABLE from 1 to 0 resets the tenant, LOCK_ALLOWED
from 1 to 0 ends its lock or its request. DESIGN CHOICE: a rejected commit, which is no write, records in GLB_CFG_REJECT the offset of its commit
register, 0x60 (log entry 99). -/
def commitTenant (d : Dev) (n : Nat) : Dev :=
  let t := tn d n
  if t.weightShadow = 0 then
    rejectPf (modTn d n fun t => { t with commitMarked := false, enableShadow := t.enable, lockAllowedShadow := t.lockAllowed,
                                          weightShadow := t.weight }) true 0x60
  else
    let d1 := modTn d n fun t => { t with commitMarked := false, enable := t.enableShadow, lockAllowed := t.lockAllowedShadow, weight := t.weightShadow }
    let d2 := if t.lockAllowed && !t.lockAllowedShadow then refuseLock (forceRelease d1 n) n else d1
    if t.enable && !t.enableShadow then resetTenantFn d2 n else d2

/-- PENDING clears once no entry's commit waits. -/
def vfcfgPending (d : Dev) : Dev := { d with glb.vfCommitPending := d.tenants.any fun p => p.2.commitMarked }

/-- Every waiting commit of VFCFG applied. -/
def applyVfcfg (d : Dev) : Dev :=
  if d.glb.vfCommitPending then
    vfcfgPending (((d.tenants.filter fun p => p.2.commitMarked).map Prod.fst).foldl commitTenant d)
  else d

/-- A fetch decision for tenant n, at which its waiting commit takes effect (05 R144). -/
def decideTenant (d : Dev) (n : Nat) : Dev := if (tn d n).commitMarked then vfcfgPending (commitTenant d n) else d

/-- Fetch decisions tenant by tenant, up to the first that is served. -/
def fetchDecisions : List Nat → Dev → Dev
  | [], d => d
  | n :: t, d =>
    let d1 := decideTenant d n
    match nextQp d1 n with
    | some q => serveTenant d1 n q
    | none => fetchDecisions t d1

/-- The tenants' part of a fetch decision. -/
def tenantFetch (d : Dev) : Dev := fetchDecisions (tenantOrder d) d

/-- QUEUE_FETCH (R104): the admin queue pair first, then tenants in round-robin order. -/
def queueFetchEff (d : Dev) : Dev :=
  if fetchOpen d .pf ∧ 0 < fetchCount d .pf 0 then issueFetch d .pf 0
  else tenantFetch d

/-! ## Entries that arrive (R95 to R97, R104, R106, R536) -/

/-- The level a command gets (R97). -/
def levelOf (d : Dev) (fn : Fn) (e : Bytes) : Nat :=
  match fn with
  | .pf => 1
  | .vf n => max (ePriority e % 8) (tn d n).maxPrio

/-- An entry's charge (R106). -/
def charge (d : Dev) (fn : Fn) (e : Bytes) : Dev :=
  match fn with
  | .pf => d
  | .vf n => modTn d n fun t => { t with credit := t.credit - 1 - (eDataLen e / 65536 : Nat), fetchedInWindow := true }

/-- One entry fetched: charged, stamped, in a context; under FENCE it waits for the commands before it (R96). -/
def takeEntry (fn : Fn) (q : Nat) (d : Dev) (e : Bytes) : Dev :=
  let p := qpOf d fn q
  let d1 := charge (setQp d fn q { p with sqHead := (p.sqHead + 1) % 2 ^ p.sqSize, inflight := p.inflight + 1, fenced := p.fenced || eFence e }) fn e
  let d2 := { d1 with host.fetchTotal := d1.host.fetchTotal + 1 }
  let x := takeCtx d2 { code := csWaiting, level := levelOf d fn e, fn, gen := genOf d fn, qp := q, entry := e, fetchNo := d2.host.fetchTotal }
  if eFence e && decide (0 < p.inflight) then modCtx x.2 x.1 fun c => { c with wait := .fence } else pushReady x.2 x.1

/-- The entries of a read up to the first with FENCE (R104). -/
def upToFence : List Bytes → List Bytes
  | [] => []
  | e :: t => if eFence e then [e] else e :: upToFence t

/-- FETCH_ENTRIES_ARRIVE (R104, R536): read j answered, with its entries, or in error. -/
def fetchEntriesArriveEff (j : Nat) (entries : Option (List Bytes)) (d : Dev) : Dev :=
  match d.host.reads[j]? with
  | none => d
  | some r =>
    let d1 := { d with host.reads := d.host.reads.eraseIdx j }
    match entries with
    | some l => if r.count ≤ l.length then (upToFence (l.take r.count)).foldl (takeEntry r.fn r.q) d1
                else modQp d1 r.fn r.q fun p => { p with fetchErr := true, retryHold := true }
    | none => modQp d1 r.fn r.q fun p => { p with fetchErr := true, retryHold := true }

/-- FETCH_RETRY_TIMER (R536): the read is tried again as a new fetch decision. -/
def fetchRetryTimerEff (fn : Fn) (q : Nat) (d : Dev) : Dev :=
  if (qpOf d fn q).retryHold then
    let d0 := modQp d fn q fun p => { p with retryHold := false }
    let d1 := match fn with | .pf => d0 | .vf n => decideTenant d0 n
    if fetchOpen d1 fn ∧ 0 < fetchCount d1 fn q then issueFetch d1 fn q else d1
  else d

/-- IRQ_COALESCE_TIMEOUT (R94): TIME µs after the first unsignalled completion. -/
def irqCoalesceTimeoutEff (n q : Nat) (d : Dev) : Dev :=
  let p := qpOf d (.vf n) q
  if p.irqEn && decide (p.time ≠ 0) && decide (0 < p.unsignalled) then
    signalVector (setQp d (.vf n) q { p with unsignalled := 0 }) (.vf n) p.vector
  else d

/-! ## Meanings -/

/-- QUEUE_FETCH (R104). -/
def execQueueFetch (s : State) := s.onDev queueFetchEff
/-- FETCH_ENTRIES_ARRIVE (R104). -/
def execFetchEntriesArrive (j : Nat) (entries : Option (List Bytes)) (s : State) := s.onDev (fetchEntriesArriveEff j entries)
/-- FETCH_RETRY_TIMER (R536). -/
def execFetchRetryTimer (fn : Fn) (q : Nat) (s : State) := s.onDev (fetchRetryTimerEff fn q)
/-- IRQ_COALESCE_TIMEOUT (R94). -/
def execIrqCoalesceTimeout (n q : Nat) (s : State) := s.onDev (irqCoalesceTimeoutEff n q)

end Sys2Proof.Machine
end

