-- ==== Sys2Proof/Machine/Commits.lean ====
section
/-! DEFINITION. Commits of shadowed fields (05 R141, R143, R144): one operation per block, PENDING and COUNT, and the rows COMMIT_GO,
VFCFG_COMMIT_WRITE and COMMIT_APPLY. A block is numbered by bits 15:12 of its offset in PF BAR0 (03 R74); 9 stands for VFCFG. -/

namespace Sys2Proof.Machine

/-! ## Values take effect -/

/-- SCH: MGMT_RESERVE, at a dispatch decision. -/
def applySch (d : Dev) : Dev :=
  if d.sch.pending then { d with sch.mgmtReserve := d.sch.mgmtShadow, sch.pending := false, sch.commits := (d.sch.commits + 1) % 256 } else d

/-- SEN: classes and window, at a scan; a lowering is rejected in IN_SERVICE (15 R438). -/
def applySen (d : Dev) : Dev :=
  if !d.sen.pending then d
  else
    let lowers := (List.range 5).any (fun j => decide (d.sen.clsShadow.getD j 0 < d.sen.cls.getD j 0)) || decide (d.sen.escShadow < d.sen.esc)
    if lowers && d.lcd.st == 0x96 then
      rejectPf { d with sen.pending := false, sen.clsShadow := d.sen.cls, sen.thresholdShadow := d.sen.threshold, sen.windowShadow := d.sen.window,
                        sen.escShadow := d.sen.esc } true 0x4FF8
    else { d with sen.pending := false, sen.cls := d.sen.clsShadow, sen.threshold := d.sen.thresholdShadow, sen.window := d.sen.windowShadow,
                  sen.esc := d.sen.escShadow, sen.commits := (d.sen.commits + 1) % 256 }

/-- VMP: FROG_PERIOD. -/
def applyVmp (d : Dev) : Dev :=
  if d.vmp.pending then { d with vmp.frogPeriod := d.vmp.frogPeriodShadow, vmp.pending := false, vmp.commits := (d.vmp.commits + 1) % 256 } else d

/-- LCD: APPROVAL_TTL and REMOTE_EN, and the sessions recounted, as remote approvals count only while REMOTE_EN is 1 (14 R410). -/
def applyLcd (d : Dev) : Dev :=
  if d.lcd.pending then
    recount { d with lcd.ttl := d.lcd.ttlShadow, lcd.remoteEn := d.lcd.remoteShadow, lcd.pending := false, lcd.commits := (d.lcd.commits + 1) % 256 }
  else d

/-- The shadow values of a check-value unit obey 16 R461. -/
def cvuShadowOk (u : Cvu) : Bool :=
  decide (1 ≤ u.widthS) && decide (u.widthS ≤ 64) && decide (u.polyS < 2 ^ u.widthS) && decide (u.initS < 2 ^ u.widthS) && decide (u.xoroutS < 2 ^ u.widthS)

/-- A unit with its shadow values in force. -/
def takeShadow (u : Cvu) : Cvu :=
  { u with width := u.widthS, refin := u.refinS, refout := u.refoutS, raw := u.rawS, poly := u.polyS, crcInit := u.initS, xorout := u.xoroutS }

/-- A unit's shadow copy returned to the values in force. -/
def dropShadow (u : Cvu) : Cvu :=
  { u with widthS := u.width, refinS := u.refin, refoutS := u.refout, rawS := u.raw, polyS := u.poly, initS := u.crcInit, xoroutS := u.xorout }

/-- Whether a unit runs a job of the PF. -/
def runsJob (u : Cvu) : Bool := u.busy && u.cmd.isNone

/-- CVU: a commit is checked as a whole; a unit without a running job takes its values, one with a job at its next (16 R466). -/
def applyCvu (d : Dev) : Dev :=
  if !d.cvu.pending then d
  else if !d.cvu.units.all cvuShadowOk then
    rejectPf { d with cvu.pending := false, cvu.units := d.cvu.units.map dropShadow } true 0x3FF8
  else
    let l := d.cvu.units.map fun u => if runsJob u then u else takeShadow u
    if l.all fun u => takeShadow u == u then { d with cvu := { units := l, pending := false, commits := (d.cvu.commits + 1) % 256 } }
    else { d with cvu.units := l }

/-- The commit of a block applied. -/
def applyBlock (block : Nat) (d : Dev) : Dev :=
  match block with
  | 2 => applySch d
  | 3 => applyCvu d
  | 4 => applySen d
  | 5 => applyRing d
  | 6 => applyVmp d
  | 7 => applyLcd d
  | 8 => applyEnt d
  | 9 => applyVfcfg d
  | _ => d

/-! ## GO -/

/-- PENDING of a block. -/
def blockPending (block : Nat) (d : Dev) : Bool :=
  match block with
  | 2 => d.sch.pending
  | 3 => d.cvu.pending
  | 4 => d.sen.pending
  | 5 => d.ring.pending
  | 6 => d.vmp.pending
  | 7 => d.lcd.pending
  | 8 => d.ent.pending
  | 9 => d.glb.vfCommitPending
  | _ => false

/-- COUNT of a block. -/
def blockCount (block : Nat) (d : Dev) : Nat :=
  match block with
  | 2 => d.sch.commits
  | 3 => d.cvu.commits
  | 4 => d.sen.commits
  | 5 => d.ring.commits
  | 6 => d.vmp.commits
  | 7 => d.lcd.commits
  | 8 => d.ent.commits
  | _ => 0

/-- PENDING of a block set. -/
def setPending (block : Nat) (d : Dev) : Dev :=
  match block with
  | 2 => { d with sch.pending := true }
  | 3 => { d with cvu.pending := true }
  | 4 => { d with sen.pending := true }
  | 5 => { d with ring.pending := true }
  | 6 => { d with vmp.pending := true }
  | 7 => { d with lcd.pending := true }
  | 8 => { d with ent.pending := true }
  | _ => d

/-- Whether a block is idle, so that a commit takes effect at once (R141; which state is idle: log entry 46). -/
def blockIdle (block : Nat) (d : Dev) : Bool :=
  match block with
  | 2 => (ctxsWhere d fun c => c.code == csReady || c.code == csRunning).isEmpty
  | 3 => true
  | 4 => false
  | 5 => d.ring.st == 0x0F
  | 6 => true
  | 7 => d.lcd.phase == .none
  | 8 => (ctxsWhere d fun c => c.code == csWaiting && c.wait == .entropy).isEmpty
  | _ => false

/-- A write of an X_COMMIT register. -/
def writeCommit (block w : Nat) (d : Dev) : Dev :=
  if !bit w 0 || blockPending block d then d
  else
    let d1 := setPending block d
    if blockIdle block d then applyBlock block d1 else d1

/-- Whether no fetch decision can come for a tenant now, so that its commit takes effect at once. -/
def tenantIdle (d : Dev) (n : Nat) : Bool := (nextQp d n).isNone

/-- A write of GLB_VFCFG_COMMIT: the tenant named, or every one with shadowed changes. -/
def writeVfcfgCommit (w : Nat) (d : Dev) : Dev :=
  if d.glb.vfCommitPending then d
  else
    let targets := (d.tenants.filter fun p => dirty p.2 && (bit w 16 || p.1 == w % 4096)).map Prod.fst
    vfcfgPending (targets.foldl (fun d n => if tenantIdle d n then commitTenant d n else modTn d n fun t => { t with commitMarked := true }) d)

/-- COMMIT_APPLY (R141, R143): the block reaches its next command boundary with a commit pending. -/
def commitApplyEff (block : Nat) (d : Dev) : Dev := if d.bay.fabric && blockPending block d then applyBlock block d else d
def execCommitApply (block : Nat) (s : State) := s.onDev (commitApplyEff block)

end Sys2Proof.Machine
end

