-- ==== Sys2Proof/Machine/Checks.lean ====
section
/-! DEFINITION. Check values and entropy (16): CHECK_VALUE, RANDOM, the jobs of a check-value unit that the PF owns, the noise sources' health,
reseeds and the wait for the pool. -/

namespace Sys2Proof.Machine

/-! ### CHECK_VALUE (R463, R475) -/

/-- The parameters of CHECK_VALUE within R461. -/
def checkValueParams (c : Cmd) : Bool :=
  decide (1 ≤ c.b1 0) && decide (c.b1 0 ≤ 64) && decide (c.b1 1 < 8) && zeros c.p 2 6 &&
    decide (c.b8 8 < 2 ^ c.b1 0) && decide (c.b8 0x10 < 2 ^ c.b1 0) && decide (c.b8 0x18 < 2 ^ c.b1 0)

/-- The check value of a command's data. -/
def checkValueOf (c : Cmd) : Nat :=
  crc (c.b1 0) (c.b8 8) (c.b8 0x10) (c.b8 0x18) (bit (c.b1 1) 0) (bit (c.b1 1) 1) (bit (c.b1 1) 2) c.data

/-- JOBS of a unit raised by one. -/
def countJob (u : Cvu) : Cvu := { u with jobs := (u.jobs + 1) % 2 ^ 24 }

/-- CHECK_VALUE, opcode 0x8001. -/
def cardCheckValue : Card :=
  { Card.plain 0x8001 with
    tenant := true, group := some 7
    lenOk := lens 32 0 0xFFFFFFFF 0
    paramOk := checkValueParams
    unit := fun _ => .cvu
    check := fun _ d => firstFail [(d.cvu.units.all (·.owner), stBusy)]
    eff := fun c d =>
      ({ d with cvu.units := d.cvu.units.map fun u => if u.cmd = some c.k then countJob u else u }, ok (natLe 8 (checkValueOf c))) }

/-! ### RANDOM (R476) -/

/-- RANDOM, opcode 0x8002. -/
def cardRandom : Card :=
  { Card.plain 0x8002 with
    tenant := true, group := some 7
    lenOk := lens 8 0 0 0
    lenLate := fun c => decide (c.b4 0 ≤ 16) || decide ((c.b4 0 + 63) / 64 ≤ eReplyUnits c.entry)
    paramOk := fun c => decide (1 ≤ c.b4 0) && decide (c.b4 0 ≤ 65536) && decide (c.b1 4 < 2) && zeros c.p 5 3
    drbg := fun c => if bit (c.b1 4) 0 then 2 else 1
    eff := fun c d =>
      let r := draw d (c.b4 0)
      (r.2, if c.b4 0 ≤ 16 then ok r.1 else okData (natLe 4 (c.b4 0)) r.1) }

/-! ### Jobs of the PF (R463 to R466) -/

/-- Unit u. -/
def cvuOf (d : Dev) (u : Nat) : Cvu := d.cvu.units.getD u {}
/-- Unit u changed. -/
def modCvu (d : Dev) (u : Nat) (f : Cvu → Cvu) : Dev := { d with cvu.units := modifyAt d.cvu.units u f }

/-- A job begins: the unit's shadow values take effect if a commit waits, and its data are read. -/
def beginJob (d : Dev) (u : Nat) : Dev :=
  let d1 := applyCvu (modCvu d u fun c => { c with pend := false })
  let x := cvuOf d1 u
  dma (modCvu d1 u fun c => { c with busy := true, cmd := none }) 6 .read (.hostRead .pf x.addr x.len)

/-- START of unit u: at once, or after the job that runs. -/
def startJob (d : Dev) (u : Nat) : Dev := if (cvuOf d u).busy then modCvu d u fun c => { c with pend := true } else beginJob d u

/-- PF BAR0 offset of unit u's CVU_CTRL. -/
def cvuCtrlOffset (u : Nat) : Nat := 0x302C + 0x100 * u

/-- A write of CVU_CTRL. -/
def writeCvuCtrl (u w : Nat) (d : Dev) : Dev :=
  let x := cvuOf d u
  let start := bit w 0 && bit w 1
  if (x.busy && bit w 1 != x.owner) || (start && !d.host.pfBme) then rejectPf d false (cvuCtrlOffset u)
  else
    let d1 := modCvu d u fun c => { c with owner := bit w 1, irqEn := bit w 2 }
    if start then startJob d1 u else d1

/-- DONE and ERROR signal the unit's vector (R466). -/
def signalCvu (d : Dev) (u : Nat) : Dev := if (cvuOf d u).irqEn then signalVector d .pf (6 + u) else d

/-- A job that ended with an error code. -/
def failJob (d : Dev) (u err : Nat) : Dev := signalCvu (modCvu d u fun c => { c with busy := false, error := true, err }) u

/-- A START that waited for the job before it begins, or is rejected with Bus Master Enable 0. -/
def nextJob (d : Dev) (u : Nat) : Dev :=
  if !(cvuOf d u).pend then d
  else if d.host.pfBme then beginJob d u
  else rejectPf (modCvu d u fun c => { c with pend := false }) false (cvuCtrlOffset u)

/-- The result of a unit over data. -/
def jobResult (x : Cvu) (data : Bytes) : Nat := crc x.width x.poly x.crcInit x.xorout x.refin x.refout x.raw data

/-- CVU_JOB_DONE (R464): the data read, or an error of the read; a stopped access table denies it (13 R392). -/
def cvuJobDoneEff (u : Nat) (data : Option Bytes) (d : Dev) : Dev :=
  let x := cvuOf d u
  if !runsJob x then d
  else if d.act.st = 0xF0 then failJob d u 2
  else match data with
    | none => nextJob (failJob d u 1) u
    | some b =>
      nextJob (applyCvu (signalCvu (modCvu d u fun c =>
        { countJob c with busy := false, isDone := true, err := 0, result := jobResult x (b.take x.len) }) u)) u

/-! ### Noise sources (R467 to R469) -/

/-- Whether a list element by number is raised by one. -/
def bumpAt (l : List Nat) (j : Nat) : List Nat := modifyAt l j fun v => v + 1

/-- A source's failed test counted: the third in succession retires it. -/
def countTestFail (d : Dev) (src : Nat) : Dev :=
  { d with
    ent.fails := modifyAt d.ent.fails src fun v => holdAt 8 (v + 1), ent.inRow := bumpAt d.ent.inRow src
    ent.retired := if 3 ≤ d.ent.inRow.getD src 0 + 1 then setBit d.ent.retired src else d.ent.retired }

/-- Data of an entropy entry for a source and a test. -/
def sourceData (src test : Nat) : Bytes := natLe 1 src ++ natLe 1 test

/-- NOISE_SOURCE_TEST_FAIL (R468, R469): an online source goes offline. -/
def noiseSourceTestFailEff (src test : Nat) (d : Dev) : Dev :=
  if !d.bay.fabric || !decide (src < 4) || !bit d.ent.online src then d
  else
    let d1 := countTestFail d src
    judgePool (logEntropy { d1 with ent.online := clearBits d1.ent.online (2 ^ src), ent.event := setBit d1.ent.event 0 } 0 (sourceData src test))

/-- NOISE_SOURCE_RETEST (R468): the start-up test of an offline source, one second after it failed. -/
def noiseSourceRetestEff (src : Nat) (passes : Bool) (d : Dev) : Dev :=
  if !d.bay.fabric || !decide (src < 4) || bit d.ent.online src || bit d.ent.retired src then d
  else if passes then
    judgePool (logEntropy { d with ent.online := setBit d.ent.online src, ent.inRow := modifyAt d.ent.inRow src fun _ => 0,
                                   ent.event := setBit d.ent.event 0 } 1 (natLe 1 src))
  else logEntropy (countTestFail d src) 0 (sourceData src 2)

/-! ### Reseeds (R471, R472) -/

/-- A reseed falls due before the next request. -/
def makeDue (d : Dev) : Dev := judgePool { d with ent.reseedDue := true }

/-- DRBG_RESEED_DUE: 1 s has passed since the last reseed. -/
def drbgReseedDueEff (d : Dev) : Dev := if d.bay.fabric && d.ent.seeded then makeDue d else d

/-- A write of ENT_CTRL. -/
def writeEntCtrl (w : Nat) (d : Dev) : Dev := if bit w 0 then makeDue d else d

/-- ENTROPY_WAIT_TIMEOUT (R472): a request has waited 10 ms. -/
def entropyWaitTimeoutEff (k : Nat) (d : Dev) : Dev :=
  if (ctxOf d k).code = csWaiting ∧ (ctxOf d k).wait = .entropy then refuse d k stEntropyFail else d

/-! ## Meanings -/

/-- CHECK_VALUE (R475). -/
def execCheckValue (k : Nat) (i : Inputs) (s : State) := s.onDev (execCard cardCheckValue k i)
/-- RANDOM (R476). -/
def execRandom (k : Nat) (i : Inputs) (s : State) := s.onDev (execCard cardRandom k i)
/-- NOISE_SOURCE_TEST_FAIL (R468). -/
def execNoiseSourceTestFail (src test : Nat) (s : State) := s.onDev (noiseSourceTestFailEff src test)
/-- NOISE_SOURCE_RETEST (R468). -/
def execNoiseSourceRetest (src : Nat) (passes : Bool) (s : State) := s.onDev (noiseSourceRetestEff src passes)
/-- DRBG_RESEED_DUE (R471). -/
def execDrbgReseedDue (s : State) := s.onDev drbgReseedDueEff
/-- ENTROPY_WAIT_TIMEOUT (R472). -/
def execEntropyWaitTimeout (k : Nat) (s : State) := s.onDev (entropyWaitTimeoutEff k)
/-- CVU_JOB_DONE (R464). -/
def execCvuJobDone (u : Nat) (data : Option Bytes) (s : State) := s.onDev (cvuJobDoneEff u data)

end Sys2Proof.Machine
end

