-- ==== Sys2Proof/Machine/LockMode.lean ====
section
/-! DEFINITION. Lock mode (08 R248 to R253, R538): requests, grants, releases and the 100 ms limit. -/

namespace Sys2Proof.Machine

/-! ## Requests (R248) -/

/-- A write of REQUEST 1 to VF_ENG_LOCK: FORCED and REFUSED are held until it (03 R81). -/
def writeLockRequest (n : Nat) (d : Dev) : Dev :=
  let t := tn d n
  if !t.lockAllowed || t.lockReq || t.grant.isSome then rejectVf d n
  else modTn { d with eng.lockQueue := d.eng.lockQueue ++ [n] } n fun t => { t with lockReq := true, forced := false, refused := false }

/-- A write of RELEASE 1: a waiting request is withdrawn without an event; a grant ends, and its waiting commands find none (R249, R251, R252). -/
def writeLockRelease (n : Nat) (d : Dev) : Dev :=
  let d1 := modTn { d with eng.lockQueue := d.eng.lockQueue.filter (· != n) } n fun t => { t with lockReq := false }
  if (tn d n).grant.isSome then wakeWhere (endGrant d1 n) fun c => isOf n c && c.wait == .engine && (match c.want with | some w => w.locked.isSome | none => false) else d1

/-! ## Grants (R249, R250) -/



/-- A key that step 5 of R158 permits for an operation of R251. -/
def lockPerm (r : Record) : Bool := isAes r.alg && (dataKey true r || dataKey false r)

/-- Steps 1 and 2 of R158 for a lock request, which names a class 4 key. -/
def lockNameOk (d : Dev) (n h : Nat) : Bool := hTenant h == n && hClass h == 4 && bit (tn d n).classMask 4

/-- Steps 3 to 6 on the records at hand. -/
def lockRecord (d : Dev) (l : List Record) (h : Nat) : Option Record :=
  match resolveIn l h with
  | none => none
  | some r => if d.vmp.st != 0xF0 && chainIntact l r && lockPerm r && timeOk d r then some r else none



/-- The grant made: the key loaded, GRANTED, LANE, REMAIN and LOCK_GRANTED; a grant on a transferred record is registered with PRIMARY by a NOTICE
(12 R364; log entry 31). -/
def grantLane (lane n : Nat) (r : Record) (recs : List Record) (d : Dev) : Dev :=
  let d1 := { d with eng.lockQueue := d.eng.lockQueue.filter (· != n),
                     eng.lanes := modifyAt d.eng.lanes lane fun l => { l with lockedBy := some n, key := some r.handle } }
  let d2 := modTn d1 n fun t =>
    { t with lockReq := false, grant := some { lane, handle := r.handle, grantedAt := now d, recs }, event := setBit t.event 0 }
  if recs.isEmpty then d2 else sendFrame d2 (mapOf d (bucketOf r.handle)).primary (.notice r.handle)

/-- The checks of a request with the records at hand, and the grant or the refusal. -/
def decideLock (lane n : Nat) (l : List Record) (own : Bool) (d : Dev) : Dev :=
  match lockRecord d l (tn d n).lockKey with
  | none => refuseLock d n
  | some r => grantLane lane n r (if own then [] else chainIn l r) d

/-- The oldest request served by a lane: its record here, asked of a holder, or waited for while a unit is under repair or no holder is eligible.
A locked module and one that drains have no grants (R538). -/
def serveLock (lane n : Nat) (d : Dev) : Dev :=
  let h := (tn d n).lockKey
  if d.glb.locked || draining d || !lockNameOk d n h then refuseLock d n
  else if holds d h then (if underRepair d false h || vmpHeld d then d else decideLock lane n (recsOfKey d (keyOf h)) true d)
  else if (mapOf d (bucketOf h)).st = 5 || !joined d then refuseLock d n
  else match chooseHolder d h false with
    | some m => sendFrame d m (.transfer true h (lockCtx n) [])
    | none => d

/-- LOCK_GRANT: an unlocked lane has fallen idle, fewer than 32 lanes are locked, and a request waits. -/
def lockGrantEff (lane : Nat) (d : Dev) : Dev :=
  match d.eng.lockQueue with
  | n :: _ => if d.bay.fabric && !d.glb.failStop && laneFree (d.eng.lanes.getD lane { online := false }) && decide (lockedLanes d < 32) then serveLock lane n d else d
  | [] => d
def execLockGrant (lane : Nat) (s : State) := s.onDev (lockGrantEff lane)

/-- The STATE of the version that a grant on a transferred record keeps, as a holder tells it (R250). -/
def refreshGrant (n handle : Nat) (recs : List Record) (d : Dev) : Dev :=
  match (tn d n).grant, recs.find? fun r => r.handle == handle && r.chainPos == 0 with
  | some g, some r =>
    if g.handle = handle then modTn d n fun t => { t with grant := some { g with recs := g.recs.map fun x =>
      if x.handle == handle && x.chainPos == 0 then { x with st := r.st } else x } }
    else d
  | _, _ => d

/-- Whether records that arrive are those for the oldest lock request: it is tenant n's and still names that key (R249). -/
def answersRequest (d : Dev) (n handle : Nat) : Bool :=
  (tn d n).lockReq && d.eng.lockQueue.head? == some n && (tn d n).lockKey == handle && lockNameOk d n handle

/-- The records for a lock request arrive: the lowest free lane takes it, with INVOCATIONS raised (R239); without a lane it waits for the next. -/
def lockRecordsArrive (n handle : Nat) (recs : List Record) (d0 : Dev) : Dev :=
  let d := refreshGrant n handle recs d0
  if !answersRequest d n handle then d
  else match findAt laneFree d.eng.lanes 0 with
    | some (lane, _) =>
      if lockedLanes d < 32 then decideLock lane n (recs.map fun r => { r with invocations := arrivalInvocations d r }) false d else d
    | none => d

/-- LOCK_EXPIRY (R252): 100 ms after the grant, REMAIN reaches 0. -/
def lockExpiryEff (n : Nat) (d : Dev) : Dev := forceRelease d n
def execLockExpiry (n : Nat) (s : State) := s.onDev (lockExpiryEff n)

end Sys2Proof.Machine
end

