-- ==== Sys2Proof/Machine/Sentinel.lean ====
section
/-! DEFINITION. The sentinel's scans and windowed sources (15 R431, R437 to R441, R455), module time (R433 to R436), re-masking of the keeper
key (06 R175), the event log's append and release (R451, R457). -/

namespace Sys2Proof.Machine

/-! ## Windowed sources (R440, R441, R455) -/

/-- The history of a source. -/
def histOf (d : Dev) (src : Nat) : Hist := tabGet {} d.sen.hist src
/-- The history of a source changed. -/
def modHist (d : Dev) (src : Nat) (f : Hist → Hist) : Dev := { d with sen.hist := tabPut {} d.sen.hist src (f (histOf d src)) }

/-- Events not logged separately, logged by one entry with FLAGS.SUMMARY and their count. -/
def flushSummary (d : Dev) (src : Nat) : Dev :=
  let h := histOf d src
  if h.summary = 0 then d
  else modHist (recordAlarm d src clsW (levelNo d.sen.response) h.summary h.last 4) src fun h => { h with summary := 0, loggedAt := some (now d) }

/-- Whether 100 ms have passed since an entry of the source. -/
def mayLog (d : Dev) (src : Nat) : Bool := match (histOf d src).loggedAt with | some t => decide (t + 100000 ≤ now d) | none => true

/-- The times of the last THRESHOLD events with the one that happens now. -/
def eventTimes (d : Dev) (src : Nat) : List Nat :=
  let l := (histOf d src).times ++ [now d]
  l.drop (l.length - d.sen.threshold)

/-- Whether an event escalates: it lies within WINDOW of the event THRESHOLD − 1 before it. -/
def escalates (d : Dev) (src : Nat) : Bool :=
  let l := eventTimes d src
  decide (d.sen.threshold ≤ l.length) && match l with | t :: _ => decide (now d ≤ t + 10000 * d.sen.window) | [] => false

/-- The class W alarm of one event: logged, or counted for a summary (count in an entry: log entry 47). -/
def eventAlarm (d : Dev) (src : Nat) (measured : Int) (always : Bool) : Dev :=
  let d1 := { d with sen.latched := setBit d.sen.latched src }
  if always || mayLog d1 src then
    modHist (recordAlarm (flushSummary d1 src) src clsW (levelNo d.sen.response) 1 measured 0) src fun h => { h with loggedAt := some (now d) }
  else modHist d1 src fun h => { h with summary := h.summary + 1, last := measured }

/-- The entry of an escalation, then the alarm of the escalation class. -/
def escalate (d : Dev) (src : Nat) : Dev :=
  let d1 := submit (modHist d src fun h => { h with times := [] }) 0x0002 d.sen.esc src 0xFFFE
    (natLe 1 d.sen.threshold ++ natLe 2 d.sen.window ++ natLe 1 d.sen.esc)
  respond d1 src d.sen.esc

/-- One event of a windowed source. -/
def windowEvent (d : Dev) (src : Nat) (measured : Int) : Dev :=
  let esc := escalates d src
  let d1 := eventAlarm (modHist d src fun h => { h with times := eventTimes d src }) src measured esc
  if esc then escalate d1 src else d1

/-- A windowed source found out of range, or in range; `settled`: in range for 1 ms. -/
def windowReading (d : Dev) (src : Nat) (out settled : Bool) (measured : Int) : Dev :=
  if out then
    let d1 := { d with sen.active := setBit d.sen.active src }
    if (histOf d src).out then d1 else windowEvent (modHist d1 src fun h => { h with out := true }) src measured
  else
    let d1 := { d with sen.active := clearBits d.sen.active (2 ^ src) }
    if settled then modHist d1 src fun h => { h with out := false } else d1

/-! ## Scans (R431, R437, R446, R447) -/

/-- Whether the keeper domain has power of any kind (R430). -/
def keeperPowered (d : Dev) : Bool := d.bay.auxPower || d.bay.p12v || d.bay.cell.seated || d.keeper.onHoldover

/-- Whether a source of numbers 0 to 9 is scanned (R437, R442; 02 R43). -/
def scanned (d : Dev) (src : Nat) : Bool :=
  !sourceDisabled d src && (decide (src < 6) || (d.bay.auxPower && d.bay.auxLogic && !d.bay.seatHigh && !d.bay.loopsMasked))

/-- One source of numbers 0 to 9 read: an alarm where it has just come into alarm. -/
def scanAlways (inAlarm : Nat) (d : Dev) (src : Nat) : Dev :=
  if scanned d src && bit inAlarm src then
    if bit d.sen.active src then d else alarm { d with sen.active := setBit d.sen.active src } src (sourceClass d src) 0 0
  else { d with sen.active := clearBits d.sen.active (2 ^ src) }

/-- One windowed source read; 14, the pace range, is read at the end of each gate window (01 R25). -/
def scanWindowed (x : ScanInput) (d : Dev) (src : Nat) : Dev :=
  windowReading d src (bit x.inAlarm src) (bit x.settled src) (x.measured.getD (src - 10) 0)

/-- Source 19: the external loops are masked (02 R43). -/
def scanMasked (d : Dev) : Dev :=
  if d.bay.loopsMasked then
    if bit d.sen.active 19 then d else alarm { d with sen.active := setBit d.sen.active 19 } 19 clsW 0 0
  else { d with sen.active := clearBits d.sen.active (2 ^ 19) }

/-- Summaries whose 100 ms have passed. -/
def dueSummaries (d : Dev) : Dev := [10, 11, 12, 13, 14, 15].foldl (fun d src => if mayLog d src then flushSummary d src else d) d

/-- SENTINEL_SCAN (R431): a pending commit takes effect, then every source is read in ascending order; without main power the keeper's alone. -/
def sentinelScanEff (x : ScanInput) (d : Dev) : Dev :=
  if !keeperPowered d then d
  else if d.bay.fabric then
    let d1 := (List.range 10).foldl (scanAlways x.inAlarm) (applySen (dueSummaries d))
    scanMasked ([10, 11, 12, 13, 15].foldl (scanWindowed x) d1)
  else (List.range 10).foldl (scanAlways x.inAlarm) d
def execSentinelScan (scan : ScanInput) (s : State) := s.onDev (sentinelScanEff scan)

/-- WINDOWED_SOURCE_SECOND (R440): the source has stayed out of range a further full second. -/
def windowedSourceSecondEff (src : Nat) (measured : Int) (d : Dev) : Dev :=
  if d.bay.fabric && decide (10 ≤ src) && decide (src ≤ 15) && bit d.sen.active src then windowEvent d src measured else d
def execWindowedSourceSecond (src : Nat) (measured : Int) (s : State) := s.onDev (windowedSourceSecondEff src measured)

/-! ## Module time (R433 to R436) -/

/-- SLEW while an adjustment remains. -/
def slewOf (adjust : Int) : Int := if 0 < adjust then 100 else if adjust < 0 then -100 else 0

/-- The adjustment after a tick: 100 units of 1/32,768 µs worked off. -/
def workAdjust (k : Keeper) : Keeper :=
  if k.adjust = 0 then k
  else
    let f := k.adjFrac + 100
    if f < 32768 then { k with adjFrac := f }
    else
      let a := if 0 < k.adjust then k.adjust - 1 else k.adjust + 1
      { k with adjust := a, adjFrac := if a = 0 then 0 else f - 32768 }

/-- One tick of the keeper clock. -/
def tick (k : Keeper) : Keeper :=
  let f := ((k.frac : Int) + 16960 + k.trim + slewOf k.adjust).toNat
  { workAdjust k with timeUs := k.timeUs + 30 + (if 32767 < f then 1 else 0), frac := f % 32768, usSinceTick := 0 }

/-- KEEPER_TICK (R433). -/
def keeperTickEff (d : Dev) : Dev :=
  if !keeperPowered d || !d.keeper.clockValid then d
  else
    let k := tick d.keeper
    { d with keeper := k, sen.event := if d.bay.fabric && d.keeper.adjust != 0 && k.adjust == 0 then setBit d.sen.event 5 else d.sen.event }
def execKeeperTick (s : State) := s.onDev keeperTickEff

/-- A time entry of the log: 0 trim, 1 adjustment, 2 set (R454 TYPE 0x0041). -/
def logTime (d : Dev) (kind : Nat) (data : Bytes) : Dev := submit d 0x0041 0 12 0xFFFF (natLe 1 kind ++ data)

/-- A write of SEN_TIME_ADJ (R434); in LOG_FULL it is rejected with CAUSE 0 (R456). -/
def writeTimeAdj (w : Nat) (d : Dev) : Dev :=
  let a := unsigned 32 w
  if 1000000 < a ∨ a < -1000000 then rejectPf d true 0x4024
  else if d.sen.full then rejectPf d false 0x4024
  else logTime { d with keeper.adjust := a, keeper.adjFrac := 0 } 1 (natLe 4 w)

/-- A write of SEN_RTC_TRIM (R433, R456). -/
def writeTrim (w : Nat) (d : Dev) : Dev :=
  let t := unsigned 9 (w % 512)
  if 200 < t ∨ t < -200 then rejectPf d true 0x4020
  else if d.sen.full then rejectPf d false 0x4020
  else logTime { d with keeper.trim := t } 0 (natLe 4 (signed 32 t))

/-- A write of SEN_TIME_SET (R436). -/
def writeTimeSet (v : Nat) (d : Dev) : Dev :=
  if !d.keeper.timeLost || decide (v ≤ now d) then rejectPf d true 0x4028
  else if d.sen.full then rejectPf d false 0x4028
  else logTime { d with keeper.timeUs := v, keeper.frac := 0, keeper.usSinceTick := 0, keeper.timeLost := false, sen.event := setBit d.sen.event 5 } 2
    (natLe 8 v)

/-! ## Re-masking (06 R175) -/

/-- One cell set of the keeper written or cleared. -/
def Keeper.setCells (k : Keeper) (set : Bool) (x : Option (Bytes × Bytes)) : Keeper := if set then { k with cells1 := x } else { k with cells0 := x }

/-- Steps 2 to 4 of a re-masking, one after another: the alternate set written, the pointer switched (with it the sense), the former set
cleared. After each of them the pair behind the pointer is complete. -/
def Keeper.remaskSteps (k : Keeper) (key mask : Bytes) : List Keeper :=
  let k1 := k.setCells (!k.cellSet) (some (xorBytes key mask, mask))
  let k2 := { k1 with cellSet := !k.cellSet, sense := !k.sense }
  [k1, k2, k2.setCells k.cellSet none]

/-- KEEPER_REMASK: new shares in the alternate cells with inverted sense; a missing share is a failed share check (R437 source 4). -/
def keeperRemaskEff (d : Dev) : Dev :=
  if !keeperPowered d || !d.keeper.answers || d.keeper.zeroised then d
  else match keeperKey d with
    | none => alarm d 4 clsZ 0 0
    | some key => { d with keeper := (d.keeper.remaskSteps key ((List.range 32).map (Config.keeperNoise d.keeper.timeUs))).getLastD d.keeper }
def execKeeperRemask (s : State) := s.onDev keeperRemaskEff

/-! ## The event log (R451, R457) -/

/-- LOG_APPEND (R451): the oldest submitted entry is appended. -/
def logAppendEff (d : Dev) : Dev :=
  if !logUp d then d
  else match d.sen.submitted with
    | [] => d
    | e :: rest => append { d with sen.submitted := rest } e
def execLogAppend (s : State) := s.onDev logAppendEff

/-- A write of SEN_LOG_RELEASE (R457); one accepted while a release runs widens it (log entry 48). -/
def writeLogRelease (seq : Nat) (d : Dev) : Dev :=
  if d.sen.readMax = 0xFFFFFFFFFFFFFFFF ∨ seq ≤ d.sen.oldest ∨ d.sen.readMax + 1 < seq then rejectPf d true 0x4058
  else { d with sen.releasing := some (max seq (d.sen.releasing.getD 0)) }

/-- CHAIN of the entry with a SEQ. -/
def chainAt (d : Dev) (seq : Nat) : Bytes := match d.sen.log.find? fun e => e.seq == seq with | some e => e.chain | none => d.sen.base

/-- LOG_RELEASE_DONE (R457): the entries below s are erased, SEN_LOG_BASE is set, and the release is logged. -/
def logReleaseDoneEff (d : Dev) : Dev :=
  match d.sen.releasing with
  | none => d
  | some s =>
    let base := chainAt d (s - 1)
    let d1 := { d with sen.log := d.sen.log.filter fun e => decide (s ≤ e.seq), sen.oldest := s, sen.base := base, sen.releasing := none }
    submit { d1 with sen.full := decide (1047552 ≤ logUsed d1) } 0x0042 0 12 0xFFFE (natLe 8 s ++ fitTo 16 base)
def execLogReleaseDone (s : State) := s.onDev logReleaseDoneEff

end Sys2Proof.Machine
end

