-- ==== Sys2Proof/Machine/Pace.lean ====
section
/-! DEFINITION. Pace and core voltage profiles (01 R23 to R30), fetch credit refilled (04 R106), stalls of clocked interfaces (01 R33). -/

namespace Sys2Proof.Machine

/-! ## Profiles (R28 to R30; 03 R78) -/

/-- The core rail set to a profile; a change slews (R29). -/
def setActive (p : Nat) (d : Dev) : Dev :=
  { d with glb.active := p, glb.slewing := d.glb.slewing || d.glb.active != p, glb.slewInWindow := d.glb.slewInWindow || d.glb.active != p }

/-- The die is above 105 °C (19 R520), in units of 1/16 °C. -/
def overLimit (t : Int) : Bool := decide (1680 < t)

/-- The module falls back to STEADY (R30). -/
def fallBack (d : Dev) : Dev :=
  logPower { setActive 1 d with glb.thermalFallback := true, glb.event := setBit d.glb.event 3 } 4 (natLe 2 (signed 16 d.bay.dieTemp))

/-- A write of GLB_PROFILE: 0b00 is ignored; any other clears the flag and applies, and a die still too hot falls back again. -/
def writeProfile (w : Nat) (d : Dev) : Dev :=
  let p := w % 4
  if p = 0 then d
  else
    let d1 := setActive p { d with glb.profile := p, glb.thermalFallback := false }
    if overLimit d1.bay.dieTemp then fallBack d1 else d1

/-- PROFILE_SLEW_DONE (R29): the new voltage has settled, within 500 µs of the write. -/
def profileSlewDoneEff (d : Dev) : Dev := { d with glb.slewing := false }
def execProfileSlewDone (s : State) := s.onDev profileSlewDoneEff

/-! ## A gate window closes (R23 to R27) -/

/-- The pace of each reference ring: its laps divided by 1,000 and truncated. -/
def pacesOf (laps : List Nat) : List Nat := laps.map (· / 1000)

/-- The lowest of a list; 0 for none. -/
def lowest : List Nat → Nat
  | [] => 0
  | [a] => a
  | a :: t => min a (lowest t)

/-- A pace outside 450 to 1,400 (R25). -/
def outOfRange (p : Nat) : Bool := decide (p < 450) || decide (1400 < p)

/-- Whether a tenant takes part in a refill (04 R106). -/
def takesCredit (d : Dev) (n : Nat) : Bool :=
  let t := tn d n
  admitted d n && (t.fetchedInWindow || (List.range t.qpCount).any fun q => let p := qpOf d (.vf n) q; p.enable && p.sqTail != p.sqHead)

/-- A tenant's refill. -/
def refillOf (budget weight total : Nat) : Nat := max 1 (budget * weight / total)

/-- One tenant's credit refilled. -/
def refillTenant (budget total burst : Nat) (d : Dev) (n : Nat) : Dev :=
  modTn d n fun t =>
    let r := refillOf budget t.weight total
    { t with refill := r, credit := min (t.credit + r) (r * burst : Nat) }

/-- CREDIT_REFILL (04 R106): nothing while PACE reads 0. -/
def creditRefill (d : Dev) : Dev :=
  let tenants := d.tenants.map Prod.fst
  let act := tenants.filter (takesCredit d)
  let total := (act.map fun n => (tn d n).weight).foldl (· + ·) 0
  let close := fun (refilled : Bool) (d : Dev) =>
    tenants.foldl (fun d n => modTn d n fun t => { t with active := if refilled then act.contains n else t.active, fetchedInWindow := false }) d
  if d.glb.pace = 0 then close false d
  else close true (act.foldl (refillTenant (d.host.rate * d.glb.pace / 1000) total d.host.burst) d)

/-- PACE_RANGE_EVENT (R25): the windowed source 14 read at the end of a window, the window itself being the 1 ms in range of 15 R440. -/
def paceRange (d : Dev) : Dev :=
  match d.glb.refs.find? outOfRange with
  | some p => windowReading { d with glb.event := setBit d.glb.event 6 } 14 true true p
  | none => windowReading d 14 false true d.glb.pace

/-- The figures of a closed window: the paces, the settling mark, the temperatures. -/
def closeWindow (laps : List Nat) (die : Int) (hubs : List (Option Int)) (d : Dev) : Dev :=
  let refs := pacesOf laps
  { d with
    glb.refs := refs, glb.pace := lowest refs, glb.settling := d.glb.slewing || d.glb.slewInWindow, glb.slewInWindow := d.glb.slewing
    glb.windowSeq := (d.glb.windowSeq + 1) % 256, bay.dieTemp := die
    bay.hubTemps := hubs.zipIdx.map fun p => if bit d.vmp.channels p.2 then p.1 else none
    host.rate := d.host.rateWritten, host.burst := d.host.burstWritten }

/-- PACE_WINDOW_CLOSE (R23). QM_CREDIT takes effect at the update (04 R110). -/
def paceWindowCloseEff (laps : List Nat) (die : Int) (hubs : List (Option Int)) (d : Dev) : Dev :=
  if !d.bay.fabric then d
  else
    let d1 := creditRefill (closeWindow laps die hubs d)
    let d2 := paceRange d1
    if overLimit die && !d2.glb.thermalFallback then fallBack d2 else d2
def execPaceWindowClose (laps : List Nat) (die : Int) (hubs : List (Option Int)) (s : State) := s.onDev (paceWindowCloseEff laps die hubs)

/-! ## Interface stalls (R33; 17 R477) -/

/-- The subsystem of a crossing for which 17 R477 names no scope: 6 the sentinel's clocks, 7 entropy sampling, 8 JTAG, 9 the service UART, 10 the
management SMBus (log entry 90). -/
def otherSubsystem (iface : Nat) : Nat := if iface = 7 then 16 else if iface = 8 ∨ iface = 9 then 11 else 12

/-- A stall of an interface: 0 PCIe, 1 SPI boot, 2 and 3 the ring ports, 4 a DDR5 channel, 5 a card slot, 6 to 10 the others; a crossing closed by
design raises none: JTAG after CAST_ON is reached, an inactive card slot, a channel without DIMM, a disabled port. -/
def interfaceStallEff (iface unit : Nat) (d : Dev) : Dev :=
  let stall := fun (scope subsystem object port : Nat) =>
    raiseFault { scope, cause := 5, subsystem, unit := port, object, detail := 0, inHandler := none } d
  if !d.bay.fabric then d
  else match iface with
    | 0 => stall 3 1 1 0xFF
    | 1 => stall 3 4 4 0xFF
    | 2 => if d.ring.east.lanes = 0 then d else stall 2 15 (memberNo d) 0
    | 3 => if d.ring.west.lanes = 0 then d else stall 2 15 (memberNo d) 1
    | 4 => channelDown unit d
    | 5 => match (d.lcd.cards.getD unit {}).exchange with
      | some k => stall 0 13 k unit
      | none => d
    | 8 => if d.lcd.st = 0x0F ∨ d.lcd.st = 0x33 then stall 3 11 11 0xFF else d
    | _ => stall 3 (otherSubsystem iface) (otherSubsystem iface) 0xFF
def execInterfaceStall (iface unit : Nat) (s : State) := s.onDev (interfaceStallEff iface unit)

end Sys2Proof.Machine
end

