-- ==== Sys2Proof/Machine/ConfigSpace.lean ====
section
/-! DEFINITION. The configuration space of the functions (03 R65, R68 to R70, R74): what each dword reads, and what a write of it does. The manual gives
the values and the places of the capability structures; where a field lies inside its structure is the PCI Express layout (log entry 85). -/

namespace Sys2Proof.Machine

/-! ## What is read -/

/-- The header of a capability in the first 256 bytes: its code and the offset of the next one. -/
def capHeader (code next : Nat) : Nat := code + 2 ^ 8 * next

/-- The header of an extended capability: its code, version 1 and the offset of the next one. -/
def extHeader (code next : Nat) : Nat := code + 2 ^ 16 + 2 ^ 20 * next

/-- The dwords that the PF and the VFs share: identity, class, capability list, power management, MSI-X, PCI Express and ARI (R65, R68, R69). -/
def sharedDword (d : Dev) (fn : Fn) (off : Nat) : Nat :=
  let c := fnCfg d fn
  let pf := fn == .pf
  match off with
  | 0x04 => flag (bmeOf d fn) 2 + 2 ^ 20
  | 0x08 => 0x10800001
  | 0x2C => 0x00011F4C
  | 0x34 => 0x40
  | 0x40 => capHeader 0x01 0x50
  | 0x44 => if c.d3hot then 3 else 0
  | 0x50 => capHeader 0x11 0x70 + 2 ^ 16 * (vectorCount fn - 1) + 2 ^ 31
  | 0x54 => if pf then 0x20000 else 0x2000
  | 0x58 => if pf then 0x21000 else 0x3000
  | 0x70 => capHeader 0x10 0 + 0x00020000
  | 0x74 => 2 + flag true 28
  | 0x78 => flag c.relaxed 4 + 2 ^ 5 * c.mps + 2 ^ 12 * c.mrrs
  | 0x7C => 5 + 2 ^ 4 * 16
  | 0x94 => 15 + flag true 16 + flag true 17
  | 0x98 => c.compTimeout + flag c.tags10 12
  | 0x160 => extHeader 0x0E (if pf then 0x170 else 0)
  | _ => 0

/-- A dword of the PF's configuration space. -/
def pfDword (d : Dev) (off : Nat) : Nat :=
  let c := d.host.pfCfg
  match off with
  | 0x00 => 0x40961F4C
  | 0x10 => c.bar % 2 ^ 32 + 4
  | 0x14 => c.bar / 2 ^ 32
  | 0x100 => extHeader 0x01 0x150
  | 0x118 => flag true 5 + flag c.ecrcGen 6 + flag true 7 + flag c.ecrcCheck 8
  | 0x150 => extHeader 0x03 0x160
  | 0x154 => d.otp.serial % 2 ^ 32
  | 0x158 => d.otp.serial / 2 ^ 32 % 2 ^ 32
  | 0x170 => extHeader 0x10 0x1B0
  | 0x178 => flag d.host.vfEnable 0
  | 0x17C => 4096 + 2 ^ 16 * 4096
  | 0x180 => d.host.numVFs
  | 0x184 => 1 + 2 ^ 16 * 1
  | 0x188 => 2 ^ 16 * 0x4097
  | 0x18C => 0x0000001F
  | 0x194 => c.vfBar % 2 ^ 32 + 4
  | 0x198 => c.vfBar / 2 ^ 32
  | 0x1B0 => extHeader 0x19 0x1D0
  | 0x1D0 => extHeader 0x26 0x200
  | 0x200 => extHeader 0x2A 0x240
  | 0x240 => extHeader 0x27 0
  | _ => sharedDword d .pf off

/-- A dword of a VF's configuration space: its Vendor and Device IDs stand in the SR-IOV capability. -/
def vfDword (d : Dev) (n off : Nat) : Nat :=
  match off with
  | 0x00 => 0xFFFFFFFF
  | 0x100 => 2 ^ 20 * 0x160
  | _ => sharedDword d (.vf n) off

/-- The dword of a function's configuration space that holds an offset. -/
def configRead (d : Dev) (fn : Fn) (off : Nat) : Nat :=
  match fn with
  | .pf => pfDword d (off / 4 * 4)
  | .vf n => vfDword d n (off / 4 * 4)

/-! ## What a write does -/

/-- Bus Master Enable as written (R73). -/
def writeCommand (fn : Fn) (w : Nat) (d : Dev) : Dev :=
  if bit w 2 = bmeOf d fn then d else if bit w 2 then busMasterEnableSetEff fn d else busMasterEnableClearEff fn d

/-- The power state as written: D0 and D3hot only, and a return from D3hot to D0 resets the function (R69). -/
def writePower (fn : Fn) (w : Nat) (d : Dev) : Dev :=
  if w % 4 = 3 then modCfg d fn fun c => { c with d3hot := true }
  else if w % 4 = 0 ∧ (fnCfg d fn).d3hot then d3hotReturnEff fn d
  else d

/-- Device Control as written: sizes, Relaxed Ordering, and the start of a function-level reset (R65, R85). -/
def writeDeviceControl (fn : Fn) (w : Nat) (d : Dev) : Dev :=
  if bit w 15 then (match fn with | .pf => flrPfEff d | .vf n => flrVfEff n d)
  else modCfg d fn fun c => { c with relaxed := bit w 4, mps := bits w 7 5, mrrs := bits w 14 12 }

/-- SR-IOV control as written: VF Enable (R70, R71, R82). -/
def writeSriov (w : Nat) (d : Dev) : Dev :=
  if bit w 0 = d.host.vfEnable then d else if bit w 0 then vfEnableSetEff d.host.numVFs d else vfEnableClearEff d

/-- The low or the high half of a 64-bit base address of an aligned size as written. -/
def baseLow (old size w : Nat) : Nat := old / 2 ^ 32 * 2 ^ 32 + w / size * size
def baseHigh (old w : Nat) : Nat := old % 2 ^ 32 + 2 ^ 32 * w

/-- A write of a dword that only the PF has. -/
def pfConfigWrite (off w : Nat) (d : Dev) : Dev :=
  match off with
  | 0x10 => modCfg d .pf fun c => { c with bar := baseLow c.bar 0x100000 w }
  | 0x14 => modCfg d .pf fun c => { c with bar := baseHigh c.bar w }
  | 0x118 => modCfg d .pf fun c => { c with ecrcGen := bit w 6, ecrcCheck := bit w 8 }
  | 0x178 => writeSriov w d
  | 0x180 => if d.host.vfEnable ∨ 4096 < w % 2 ^ 16 then d else { d with host.numVFs := w % 2 ^ 16 }
  | 0x194 => modCfg d .pf fun c => { c with vfBar := baseLow c.vfBar 0x10000 w }
  | 0x198 => modCfg d .pf fun c => { c with vfBar := baseHigh c.vfBar w }
  | _ => d

/-- A write of a dword of a function's configuration space. -/
def configWrite (fn : Fn) (off w : Nat) (d : Dev) : Dev :=
  match off / 4 * 4 with
  | 0x04 => writeCommand fn w d
  | 0x44 => writePower fn w d
  | 0x78 => writeDeviceControl fn w d
  | 0x98 => modCfg d fn fun c => { c with compTimeout := w % 16, tags10 := bit w 12 }
  | o => if fn = .pf then pfConfigWrite o w d else d

/-- A configuration request of the host: answered while the function is on the link; it passes no interconnect check. -/
def configAccess (fn : Fn) (write : Bool) (off v : Nat) (d : Dev) : Dev :=
  if !d.bay.fabric || !fnExists d fn then d
  else if write then configWrite fn off (v % 2 ^ 32) d
  else emit d (.readData fn (configRead d fn off))

end Sys2Proof.Machine
end

