-- ==== Sys2Proof/Machine/Ceremony.lean ====
section
/-! DEFINITION. KEY_REPLACE with its root form (06 R182, R170; 12 R368), the component session of KEY_COMPONENT (06 R163, R164, R183) and
COMPONENT_TRANSPORT (14 R415, R416, R429). -/

namespace Sys2Proof.Machine

/-! ### KEY_REPLACE (R182) -/

/-- Whether a KEY_REPLACE is of the root form. -/
def isRoot (c : Cmd) : Bool := c.b1 0 == 1

/-- The algorithm of a root slot that KEY_REPLACE replaces (R169). -/
def rootAlg (slot : Nat) : Nat := if slot = 1 ∨ slot = 3 then 0x49 else if slot = 2 then 0x31 else 0x12

/-- Whether a root slot is shared across the ring (12 R368). -/
def sharedSlot (slot : Nat) : Bool := slot == 0 || decide (0x1000 ≤ slot)

/-- New root material: its content, the check value, and the public key encoding of a pair. -/
def rootMaterial (d : Dev) (alg : Nat) : (Bytes × Bytes × Bytes) × Dev :=
  if alg = 0x12 then
    let r := draw d 32
    ((r.1, symKcv 0x12 1 r.1, []), r.2)
  else
    let pair := freshPair alg 0 0 d.ent.draws
    ((pair.1 ++ pair.2, pubKcv alg pair.2, pubEncoding alg pair.2), (draw d 32).2)

/-- The first writes of a replacement (R170): the bank chosen is WRITTEN at its new SEQ, with no material yet. -/
def writtenRoot (d : Dev) (slot : Nat) : Dev :=
  let s := rootSlot d slot
  setRoot d slot (setBank s (bankToWrite d s) { seq := nextBankSeq s, code := 0x33 })

/-- The SEQ of the bank a replacement writes: the one it gave the bank as its work began. -/
def replacedSeq (d : Dev) (k slot : Nat) : Nat :=
  let s := rootSlot d slot
  if (ctxOf d k).engineBegun then max s.a.seq s.b.seq else nextBankSeq s

/-- The root form: WRITTEN, then VERIFIED when check value and test pass, otherwise EMPTY (R170); a shared slot of a joined member goes to
every present member before the command completes (12 R368). -/
def replaceRootEff (c : Cmd) (d : Dev) : Dev × Fin :=
  let slot := c.b2 4
  let m := rootMaterial d (rootAlg slot)
  let content := m.1.1
  let kcv := m.1.2.1
  let seq := replacedSeq d c.k slot
  let inB := bankToWrite d (rootSlot d slot)
  let expected := slice c.p 0x20 5
  let fails := if expected.any (· != 0) && expected != kcv then stKeyCheckFail else if !c.i.testPasses then stKeyTestFail else stOk
  if fails != stOk then (logRoot (writeBank m.2 slot seq 0x0F content kcv) slot inB seq 1, failWith fails)
  else
    let d1 := logRoot (writeBank m.2 slot seq 0x55 content kcv) slot inB seq 0
    let d2 := if joined d && sharedSlot slot then { d1 with vmp.changes := [.root slot seq content kcv false] } else d1
    (d2, okData (natLe 8 seq ++ kcv) m.1.2.2)

/-- Parameters of KEY_REPLACE. -/
def replaceParamOk (c : Cmd) : Bool :=
  decide (c.b1 0 ≤ 1) && decide (c.b1 1 ≤ 1) && decide (c.b1 2 < 2) && zeros c.p 3 1 && zeros c.p 6 2 && zeros c.p 0x25 11 &&
    (if isRoot c then c.b1 1 == 0 && (decide (c.b2 4 ≤ 3) || (decide (0x1000 ≤ c.b2 4) && decide (c.b2 4 ≤ 0x1FFF))) && c.b8 8 == 0
     else c.b2 4 == 0) &&
    (c.b1 1 == 1 || c.b8 0x10 == 0)

/-- KEY_REPLACE, opcode 0x1004 (R182). -/
def cardKeyReplace : Card :=
  { Card.plain 0x1004 with
    tenant := true, group := some 0
    keyed := .onParams fun p => field p 0 1 == 0
    logs := .onParams fun p => field p 0 1 == 1
    lenOk := lens 48 0 9999 0
    lenLate := fun c =>
      (if c.b1 1 = 1 ∧ !isRoot c then decide (32 ≤ c.dlen) else decide (c.dlen = 0)) &&
        (!isRoot c || decide (3 < c.b2 4) || c.b2 4 == 0 || decide (encLen (rootAlg (c.b2 4)) ≤ c.cap))
    paramOk := replaceParamOk
    handles := fun c => if isRoot c then [] else if c.b1 1 = 1 then [c.b8 8, c.b8 0x10] else [c.b8 8]
    route := fun c => if isRoot c then none else some (c.b8 8)
    locks := fun c => if isRoot c then [] else [c.b8 8]
    busyOnHold := true
    unit := fun c => if isRoot c then .none else if hClass (c.b8 8) = 8 then .pk else .lane
    drbg := fun c => if c.b1 1 = 0 then 1 else 0
    preCheck := fun c d =>
      if isRoot c then firstFail [(c.fn != .pf, stNotPermitted), (!d.glb.rootOk, stNotReady)] else firstFail [(c.fn == .pf, stNotPermitted)]
    approval := fun c _ => if isRoot c then some (1, actionDigest c) else none
    check := fun c d => if isRoot c then none else replaceRecordCheck c d
    eff := fun c d => if isRoot c then replaceRootEff c d else replaceRecordEff c d }

/-! ### The component session (R163, R164, R183) -/

/-- The component session of the command's tenant. -/
def componentOf (c : Cmd) (d : Dev) : Option Component := (tn d c.tenant).component



/-- Parameters of KEY_COMPONENT. -/
def componentParamOk (c : Cmd) : Bool :=
  let op := c.b1 0
  let alg := c.b1 0x10
  decide (op ≤ 3) && zeros c.p 4 4 && zeros c.p 0x1B 5 && zeros c.p 0x30 8 &&
    (if op = 1 then decide (c.b1 1 ≤ 2) else c.b1 1 == 0) &&
    (if op = 0 then
      decide (2 ≤ c.b1 2) && decide (c.b1 2 ≤ 9) && decide (c.b1 3 < 2) && (isTdes alg || isAes alg) &&
        kcvMethodOk (hClass (c.b8 8)) alg (c.b1 0x11) && expoOk (c.b1 0x15) && decide (c.b8 0x20 < c.b8 0x28) &&
        (c.b1 3 == 1 || hVersion (c.b8 8) == 0)
     else zeros c.p 2 2 && zeros c.p 0x10 0x18)

/-- Checks of BEGIN: no session open, the tenant, the named key of a replacement, and attributes its class permits. -/
def componentBeginCheck (c : Cmd) (d : Dev) : Option Nat :=
  let h := c.b8 8
  orElse (firstFail [((componentOf c d).isSome, stBusy)])
    (orElse (tenantStep c d h)
      (orElse (if c.b1 3 = 1 then
          match activeNamed (storeOf d c.k h) h with
          | some v => firstFail [(!chainIntact (storeOf d c.k h) v || d.vmp.st == 0xF0, stKeyUnavailable)]
          | none => match readStep d c.k h with | .error st => some st | .ok _ => some stKeyNotFound
        else none)
        (firstFail [(!comboOk (hClass h) (c.b2 0x12) (c.b1 0x10) (c.b1 0x14), stKeyUsage)])))

/-- BEGIN: the session with its challenge and encapsulation key (14 R416). -/
def componentBegin (c : Cmd) (d : Dev) : Dev :=
  let r := draw d 32
  let priv := (freshPair 0x41 0 0 r.2.ent.draws).1
  let s : Component :=
    { handle := c.b8 8, count := c.b1 2, replace := c.b1 3 == 1, alg := c.b1 0x10, kcvMethod := c.b1 0x11, usage := c.b2 0x12, mode := c.b1 0x14,
      expo := c.b1 0x15, expected := slice c.p 0x16 5, notBefore := c.b8 0x20, notAfter := c.b8 0x28, given := [],
      partialXor := zeroBytes (symLen (c.b1 0x10)), openedAt := now d, challenge := r.1, kemPriv := priv }
  modTn (draw r.2 32).2 c.tenant fun t => { t with component := some s }

/-- ACTION_DIGEST of a component statement (14 R416). -/
def componentDigest (tenant : Nat) (s : Component) : Bytes := sha256 (natLe 2 tenant ++ natLe 8 s.handle ++ natLe 1 s.alg ++ natLe 1 s.count)

/-- What a component envelope comes to (14 R416). -/
inductive Envelope
  | badLength
  | refused
  | opened (custodian : Nat) (component : Bytes)
deriving DecidableEq, Repr

/-- A component envelope opened: layout, statement, the custodian's role and signature, then the seal. `remote` for one given as input data. -/
def openEnvelope (d : Dev) (tenant : Nat) (s : Component) (remote : Bool) (e : Bytes) : Envelope :=
  let l := symLen s.alg
  let sigLen := field e (0x4D0 + l) 2
  if e.length < 0x4D2 + l ∨ e.length ≠ 0x4D2 + l + sigLen then .badLength
  else
    let stmt := e.take 0x80
    let custodian := field e 0x11 1
    let sealed' := slice e 0x4C0 (l + 16)
    let secret := Config.kemDecaps 0x41 s.kemPriv (slice e 0x80 0x440)
    let formOk := stmt == statement d 2 0 0xFF custodian s.openedAt s.challenge (componentDigest tenant s)
    let signed := match enrolment d custodian with
      | some b => bit (enRoles b) 1 && enVerify b (e.take (0x4D2 + l)) (e.drop (0x4D2 + l)) && (!remote || d.lcd.remoteEn)
      | none => false
    if formOk && signed && !s.given.contains custodian &&
        gcmTag secret (zeroBytes 12) stmt (sealed'.take l) == sealed'.drop l then
      .opened custodian (gcmText secret (zeroBytes 12) (sealed'.take l))
    else .refused

/-- ADD. -/
def componentAdd (c : Cmd) (d : Dev) : Dev × Fin :=
  match componentOf c d with
  | none => (d, failWith stNotReady)
  | some s =>
    if s.count ≤ s.given.length then (d, failWith stNotReady)
    else
      let e := if c.b1 1 = 2 then c.data else match c.i.card with | .returned p => p | _ => []
      match openEnvelope d c.tenant s (c.b1 1 == 2) e with
      | .badLength => (d, failWith stBadParam)
      | .refused => (d, failWith stDualControl)
      | .opened j m =>
        let d1 := modTn d c.tenant fun t =>
          { t with component := some { s with given := insertNat s.given j, partialXor := xorBytes s.partialXor m } }
        (d1, ok (symKcv s.alg s.kcvMethod m ++ natLe 1 (s.given.length + 1)))

/-- The key a component session assembles. -/
def componentKey (s : Component) (handle : Nat) : NewKey :=
  { handle, alg := s.alg, usage := s.usage, mode := s.mode, expo := s.expo, kcvMethod := s.kcvMethod, params := zeroBytes 7,
    notBefore := s.notBefore, notAfter := s.notAfter, material := s.partialXor }

/-- FINISH as a creation. -/
def componentCreate (c : Cmd) (d : Dev) (s : Component) : Dev × Fin :=
  match createCheck c d s.handle true 1 with
  | some st => (d, failWith st)
  | none =>
    let n := componentKey s (newHandle d s.handle [hClass s.handle])
    match applyEdit d { puts := n.chain d.keys.floor 0x55 0, drops := [] } with
    | (d1, false) => (d1, failWith stBusy)
    | (d1, true) => (modTn d1 c.tenant fun t => { t with component := none }, ok (handleKcv n.handle n.kcv))

/-- FINISH as a replacement; the new version takes the attributes of BEGIN and the PARAMS of the version replaced. -/
def componentReplace (c : Cmd) (d : Dev) (s : Component) : Dev × Fin :=
  match replaceCheck c d s.handle false 1 with
  | some st => (d, failWith st)
  | none =>
    let l := storeOf d c.k s.handle
    let v := (activeNamed l s.handle).getD {}
    let n := { componentKey s (v.handle + 1) with params := v.params }
    let r := replaceRun d l v n 0 [] c.i.testPasses
    if r.2 = stOk then (modTn r.1 c.tenant fun t => { t with component := none }, ok (handleKcv n.handle n.kcv))
    else if r.2 = stKeyTestFail then (abortComponent r.1 c.tenant, failWith r.2)
    else (r.1, failWith r.2)

/-- FINISH. DESIGN CHOICE: EXPECTED_KCV is judged, and ends the session, before the refusals of the creation or replacement (log entry 94). -/
def componentFinish (c : Cmd) (d : Dev) : Dev × Fin :=
  match componentOf c d with
  | none => (d, failWith stNotReady)
  | some s =>
    if s.given.length < s.count then (d, failWith stDualControl)
    else if s.expected.any (· != 0) && s.expected != symKcv s.alg s.kcvMethod s.partialXor then
      (abortComponent d c.tenant, failWith stKeyCheckFail)
    else if s.replace then componentReplace c d s else componentCreate c d s

/-- Whether the session a command names is open on this module. -/
def namesSession (c : Cmd) (d : Dev) : Bool := match componentOf c d with | some s => s.handle == c.b8 8 | none => false

/-- The card's part of ADD, on the module that fetched the command (14 R415). -/
def componentOrigin (c : Cmd) (d : Dev) : Dev × Option Reply :=
  if c.b1 0 ≠ 1 ∨ c.b1 1 = 2 then (d, none)
  else
    let here := !joined d || holds d (c.b8 8)
    if here && !(namesSession c d && (match componentOf c d with | some s => decide (s.given.length < s.count) | none => false)) then (d, none)
    else
      let slot := c.b1 1
      match cardReason d slot with
      | some r => let x := cardFail d slot r; (x.1, some x.2)
      | none =>
        match cardEnrolment d (cardOf d slot).serial with
        | none => let x := cardFail d slot 6; (x.1, some x.2)
        | some _ =>
          match exchange c.i.card with
          | .error r => let x := cardFail d slot r; (x.1, some x.2)
          | .ok _ => (useCard d slot, none)

/-- KEY_COMPONENT, opcode 0x1005 (R183). -/
def cardKeyComponent : Card :=
  { tenantCard 0x1005 0 with
    lenOk := lens 56 0 16777216 0
    lenLate := fun c => (c.b1 0 == 1 && c.b1 1 == 2) || decide (c.dlen = 0)
    paramOk := componentParamOk
    handles := fun c => [c.b8 8]
    route := fun c => some (c.b8 8)
    locks := fun c => if c.b1 0 = 2 then [c.b8 8] else []
    busyOnHold := true
    unit := fun c => if c.b1 0 = 1 then .pk else .none
    drbg := fun c => if c.b1 0 = 0 then 1 else 0
    origin := componentOrigin
    check := fun c d =>
      if c.b1 0 = 0 then componentBeginCheck c d
      else firstFail [((componentOf c d).isNone, stNotReady), (!namesSession c d, stBadParam)]
    eff := fun c d =>
      match c.b1 0 with
      | 0 => if c.i.testPasses then (componentBegin c d, ok []) else ((draw d 32).2, failWith stKeyTestFail)
      | 1 => componentAdd c d
      | 2 => componentFinish c d
      | _ => (abortComponent d c.tenant, ok []) }

/-! ### COMPONENT_TRANSPORT (14 R429) -/

/-- COMPONENT_TRANSPORT, opcode 0x0232. -/
def cardComponentTransport : Card :=
  { Card.plain 0x0232 with
    pf := false, tenant := true, group := some 0, keyed := .always
    lenOk := lens 8 0 0 1216
    route := fun c => some (c.b8 0)
    check := fun c d => firstFail
      [(!(match componentOf c d with | some s => s.handle == c.b8 0 | none => false), stNotReady)]
    eff := fun c d =>
      match componentOf c d with
      | none => (d, failWith stNotReady)
      | some s => (d, okData [] (s.challenge ++ fitTo 1184 (pkPublicOf 0x41 s.kemPriv))) }

/-! ## Meanings -/

/-- KEY_REPLACE (06 R182). -/
def execKeyReplace (k : Nat) (i : Inputs) (s : State) := s.onDev (execCard cardKeyReplace k i)
/-- KEY_COMPONENT (06 R183). -/
def execKeyComponent (k : Nat) (i : Inputs) (s : State) := s.onDev (execCard cardKeyComponent k i)
/-- COMPONENT_TRANSPORT (14 R429). -/
def execComponentTransport (k : Nat) (i : Inputs) (s : State) := s.onDev (execCard cardComponentTransport k i)

/-- COMPONENT_SESSION_EXPIRY (06 R163): 600 s after BEGIN the session ends. -/
def execComponentSessionExpiry (n : Nat) (s : State) := s.onDev fun d => abortComponent d n

end Sys2Proof.Machine
end

