-- ==== Sys2Proof/Machine/VaultCmds.lean ====
section
/-! DEFINITION. The vault image and the 0x01xx commands (07 R188 to R190, R218 to R229, R537; in a ring 12 R369, R370). -/

namespace Sys2Proof.Machine

/-! ### Populations and formatting (R188 to R190, R195, R225) -/

/-- A population the vault can be built from: logical lines before mirroring, channels in use, DIMMs, and whether a third DIMM is left idle. -/
structure Population where
  lines : Nat
  channels : Nat
  count : Nat
  third : Bool
deriving DecidableEq, Repr

/-- Whether the DIMM of a bay passed the checks of 02 R56 and its channel is not offline. -/
def bayOk (d : Dev) (b : Nat) : Bool := d.bay.dimmOk.getD b false && !bit d.vmp.chanDown b

/-- The population of the fitted DIMMs; all that pass R56 have one capacity. -/
def population (d : Dev) : Option Population :=
  let lines := (d.bay.dimms.getD 0 {}).gigabytes * 2 ^ 24
  let others := flag (bayOk d 2) 0 + flag (bayOk d 3) 0
  if !(bayOk d 0 && bayOk d 1) then none
  else if bayOk d 2 && bayOk d 3 then some { lines := 4 * lines, channels := 15, count := 4, third := false }
  else some { lines := 2 * lines, channels := 3, count := 2, third := decide (0 < others) }

/-- A vault formatted afresh under a new memory key: LOADING, with nothing in it (R195, R225). Record keys that the start could not draw are drawn now. -/
def formatVault (d : Dev) (p : Population) (accept : Bool) : Dev :=
  let r := draw (emptyVault (if d.keys.maskKey.isNone then drawRecordKeys d else d)) 32
  let d1 := { r.2 with
    vmp.st := 0x55, vmp.memKey := some r.1, vmp.n := if d.vmp.mirrorCfg then p.lines / 2 else p.lines, vmp.mirrored := d.vmp.mirrorCfg
    vmp.channels := p.channels, vmp.dimmCount := p.count, vmp.acceptStale := accept, vmp.chanErr := [[], [], [], []] }
  if p.third then logVault d1 6 (natLe 1 (if bayOk d 2 then 2 else 3)) else d1

/-- VAULT_LOAD_BEGIN, opcode 0x0101 (R225; in a ring R369). -/
def cardVaultLoadBegin : Card :=
  { Card.plain 0x0101 with
    logs := .onParams fun p => bit (field p 0 1) 0
    lenOk := lens 8 0 0 0
    paramOk := fun c => decide (c.b1 0 < 2) && zeros c.p 1 7
    drbg := fun _ => 1
    approval := fun c _ => if bit (c.b1 0) 0 then some (2, actionDigest c) else none
    check := fun c d => firstFail
      [(!(d.vmp.st == 0x0F || (d.vmp.st == 0x33 && (ctxOf d c.k).engineBegun)) || !d.glb.rootOk, stNotReady), ((population d).isNone, stVaultPopulation)]
    eff := fun c d =>
      match population d with
      | none => (d, failWith stVaultPopulation)
      | some p =>
        let d1 := formatVault d p (bit (c.b1 0) 0)
        let d2 := if joined d1 then { d1 with vmp.changes := [.format (bit (c.b1 0) 0)] } else d1
        (d2, ok (natLe 4 (slotCount d1.vmp.n) ++ natLe 4 (groupCount d1.vmp.n) ++ natLe 1 (if d1.vmp.mirrored then 1 else 0))) }

/-! ### Sealed records (R218, R219) -/

/-- The image key of a bank of a tenant's storage key (R218). -/
def imageKeyOf (d : Dev) (b : Bank) : Bytes := kdf108 ((bankContent d b).getD []) (ascii [0x56, 0x41, 0x55, 0x4C, 0x54, 0x2D, 0x49, 0x4D, 0x41, 0x47, 0x45]) (natBe 8 b.seq) 32

/-- The image key that a KEY_SEQ names: of either bank that R171 allows. -/
def imageKey (d : Dev) (tenant keySeq : Nat) : Option Bytes :=
  let s := rootSlot d (0x1000 + tenant)
  if !d.glb.rootOk then none
  else if bankUsable d s.a && s.a.seq == keySeq then some (imageKeyOf d s.a)
  else if bankUsable d s.b && s.b.seq == keySeq then some (imageKeyOf d s.b)
  else none



/-- The record that bytes 0x00 to 0x77 hold. -/
def recordOf (p : Bytes) (changeSeq : Nat) : Record :=
  { handle := field p 0 8, alg := field p 8 1, usage := field p 0x0A 2, mode := field p 0x0C 1, expo := field p 0x0D 1, st := field p 0x0E 1,
    kcvMethod := field p 0x0F 1, retiring := field p 0x10 2, chainPos := field p 0x12 1, chainLen := field p 0x13 1, kcv := slice p 0x14 5,
    params := slice p 0x19 7, notBefore := field p 0x20 8, notAfter := field p 0x28 8, invocations := field p 0x30 8,
    material := slice p 0x38 (field p 9 1), changeSeq }

/-- A sealed record of 168 bytes (R219). -/
def sealRecord (d : Dev) (b : Bank) (r : Record) : Bytes :=
  natLe 8 r.handle ++ natLe 8 r.changeSeq ++ natLe 8 b.seq ++ zeroBytes 8 ++ keyWrap (imageKeyOf d b) (recordBytes r ++ natLe 8 r.changeSeq)

/-- A sealed record opened; none where R222 rejects it for its key, its wrap or its clear copies. -/
def unsealRecord (d : Dev) (s : Bytes) : Option Record :=
  match imageKey d (hTenant (field s 0 8)) (field s 0x10 8) with
  | none => none
  | some key =>
    match keyUnwrap key (slice s 0x20 136) with
    | none => none
    | some p => if slice p 0 8 == slice s 0 8 && slice p 0x78 8 == slice s 8 8 then some (recordOf p (field s 8 8)) else none

/-! ### Loading a record (R222, R226) -/

/-- What the treatment of one sealed record comes to. -/
inductive LoadResult
  | accepted (d : Dev)
  | rejected (d : Dev)
  | superseded
  | skipped
  | stopped (status : Nat)

/-- Whether a head handle stands in the poison report. -/
def reported (d : Dev) (h : Nat) : Bool := d.vmp.report.any fun p => p.1 == h

/-- The CHANGE_SEQ of the state the vault holds of a record, a tombstone of the load among them; none where it holds nothing. -/
def heldSeq (d : Dev) (r : Record) : Option Nat :=
  let live := (d.vmp.slots.find? fun p => p.2.handle == r.handle && p.2.chainPos == r.chainPos).map fun p => p.2.changeSeq
  let tomb := (d.vmp.loadTombs.filter fun t => t.handle == r.handle && t.chainPos == r.chainPos).foldl (fun m t => max m (t.changeSeq + 1)) 0
  match live with
  | some v => some (max v (tomb - 1))
  | none => if tomb = 0 then none else some (tomb - 1)

/-- A reloaded handle leaves the report once its chain is whole again (R226). -/
def afterReload (d : Dev) (h : Nat) : Dev :=
  let l := recsOfKey d (keyOf h)
  match l.find? fun r => r.handle == h && r.chainPos == 0 with
  | some r => if reported d h && chainIntact l r then unreport d h else d
  | none => d

/-- A tombstone that a load brings: it removes the record it names and is kept for the load (R222 step 2). -/
def loadTomb (d : Dev) (r : Record) : Dev :=
  let d1 := rememberIndex { d with vmp.loadTombs := d.vmp.loadTombs ++ [r] } r.handle
  let d2 := match slotOf d1 r.handle r.chainPos with
    | some s => freeAt d1 s
    | none => d1
  if r.chainPos = 0 then unreport d2 r.handle else d2

/-- A live record that a load brings written into its slot or a free one (R222 steps 3 and 4). DESIGN CHOICE: the floor of R157 raises INVOCATIONS of
every record, of the non-heads that R153 keeps at zero too (log entry 94). -/
def loadLive (d : Dev) (r : Record) : LoadResult :=
  let own := slotOf d r.handle r.chainPos
  if own.isNone && !roomFor d 1 (usedSlots d) then .stopped stVaultFull
  else
    let s := own.getD ((freeSlots d 1 (usedSlots d)).headD 0)
    if lineLost d (2 * s) then .stopped stKeyUnavailable
    else match writeSlots [s] (if own.isNone then [s] else []) d with
    | (_, false) => .stopped stBusy
    | (d1, true) => .accepted (afterReload (storeOne d1 (s, { r with invocations := max r.invocations d.keys.floor })) r.handle)

/-- A record at one holder of its bucket: superseded by an equal or higher CHANGE_SEQ, unless its handle is reported (R222, R226). -/
def loadHere (d : Dev) (r : Record) : LoadResult :=
  let old := !reported d r.handle && match heldSeq d r with | some v => decide (r.changeSeq ≤ v) | none => false
  if old then .superseded
  else if r.st = 0xF0 then .accepted (loadTomb d r)
  else loadLive d r



/-- One sealed record of a load; with RELOAD only reported handles and LOST buckets are loaded. In a ring it goes to its bucket's holders, which
judge it by CHANGE_SEQ (log entry 32). -/
def loadOne (reload : Bool) (d : Dev) (s : Bytes) : LoadResult :=
  let h := field s 0 8
  if reload && !reported d h && !(joined d && (mapOf d (bucketOf h)).st == 5) then .skipped
  else match unsealRecord d s with
    | none => .rejected d
    | some r =>
      if stateUndefined r then .rejected (invalidCode d 3 r.st clsL)
      else
        let d1 := raiseClock d (r.changeSeq / 16)
        let note := fun e : Dev => if joined e then { e with vmp.changes := e.vmp.changes ++ Change.put r :: newIndexes d1 [r] } else e
        if holds d1 r.handle then match loadHere d1 r with
          | .accepted d2 => .accepted (note d2)
          | x => x
        else .accepted (note (rememberIndex d1 r.handle))

/-- Counts of a load. -/
structure Counts where
  accepted : Nat := 0
  rejected : Nat := 0
  superseded : Nat := 0
  skipped : Nat := 0
deriving DecidableEq, Repr

/-- The inline result of VAULT_LOAD_RECORDS. -/
def Counts.bytes (n : Counts) : Bytes := natLe 4 n.accepted ++ natLe 4 n.rejected ++ natLe 4 n.superseded ++ natLe 4 n.skipped

/-- The records of a load one after another; it stops at the first that finds no room. -/
def loadAll (reload : Bool) : List Bytes → Counts → Dev → Dev × Counts × Nat
  | [], n, d => (d, n, stOk)
  | s :: t, n, d =>
    match loadOne reload d s with
    | .accepted d1 => loadAll reload t { n with accepted := n.accepted + 1 } d1
    | .rejected d1 => loadAll reload t { n with rejected := n.rejected + 1 } d1
    | .superseded => loadAll reload t { n with superseded := n.superseded + 1 } (raiseClock d (field s 8 8 / 16))
    | .skipped => loadAll reload t { n with skipped := n.skipped + 1 } d
    | .stopped st => (d, n, st)

/-- VAULT_LOAD_RECORDS, opcode 0x0102 (R226). -/
def cardVaultLoadRecords : Card :=
  { Card.plain 0x0102 with
    lenOk := fun e => lens 8 168 16777152 0 e && decide (eDataLen e % 168 = 0)
    paramOk := fun c => decide (c.b1 0 < 2) && zeros c.p 1 7
    check := fun c d => firstFail [(d.vmp.st != (if bit (c.b1 0) 0 then 0x96 else 0x55), stNotReady)]
    eff := fun c d =>
      let r := loadAll (bit (c.b1 0) 0) (chunks 168 c.data) {} d
      (r.1, .done { bare r.2.2 with result := r.2.1.bytes }) }

/-! ### The manifest (R221) -/

/-- Whether a record is live: not a tombstone. -/
def isLive (r : Record) : Bool := r.st != 0xF0

/-- DIGEST over live records. -/
def imageDigest (l : List Record) : Bytes :=
  l.foldl (fun acc r => xorBytes acc (sha256 (natLe 8 r.handle ++ natBe 8 r.changeSeq ++ natLe 1 r.chainPos))) (zeroBytes 32)

/-- The manifest key; none while the root store is not usable. -/
def manifestKey (d : Dev) : Option Bytes :=
  (rootContent d 0).map fun b => kdf108 b
    (ascii [0x56, 0x41, 0x55, 0x4C, 0x54, 0x2D, 0x4D, 0x41, 0x4E, 0x49, 0x46, 0x45, 0x53, 0x54]) [] 32

/-- Manifest bytes 0x00 to 0x6F. -/
def manifestBody (serial seq changeSeq time records : Nat) (digest : Bytes) : Bytes :=
  ascii [0x49, 0x57, 0x56, 0x4D] ++ natLe 1 1 ++ zeroBytes 3 ++ natLe 8 serial ++ natLe 8 seq ++ natLe 8 changeSeq ++ natLe 8 time ++
    natLe 8 records ++ digest ++ zeroBytes 32

/-- The current states among the states of records: of each record that of the highest CHANGE_SEQ (R220). -/
def currentOf (l : List Record) : List Record :=
  l.filter fun r => !l.any fun x => x.handle == r.handle && x.chainPos == r.chainPos && decide (r.changeSeq < x.changeSeq)

/-- The records and tombstones that a command about the whole vault sees: this vault's, or the ring's as gathered (R370); none while the gather
goes on. -/
def imageRecords (k : Nat) (d : Dev) : Dev × Option (List Record) :=
  if !joined d then (d, some (heldRecords d ++ d.vmp.tombs))
  else
    let d1 := if (gatherOwner d).isNone then gatherStart d k else d
    if gatherOwner d1 = some k ∧ d1.ring.gatherDone then (d1, some d1.ring.gathered) else (d1, none)

/-! ### VAULT_LOAD_END (R227) -/

/-- The checks of R227 in order, over the live records `l`. -/
def loadEndFail (c : Cmd) (d : Dev) (l : List Record) : Option Nat :=
  let m := c.data
  if bit (c.b1 0) 0 then
    firstFail [(decide (0 < d.vmp.manifestSeq) && !d.vmp.acceptStale, stImageStale), (!l.isEmpty, stImageMismatch)]
  else
    firstFail
      [ (match manifestKey d with | some key => aesCmac key (m.take 0x70) != slice m 0x70 16 | none => true, stMacMismatch),
        (decide (field m 0x10 8 < d.vmp.manifestSeq) && !d.vmp.acceptStale, stImageStale),
        (l.any (fun r => decide (field m 0x18 8 < r.changeSeq)) || l.length != field m 0x28 8 || imageDigest l != slice m 0x30 32, stImageMismatch) ]

/-- The records of chains that lack a member. -/
def brokenChains (l : List Record) : List Record :=
  l.filter fun r => !(l.any fun h => h.handle == r.handle && h.chainPos == 0 && (chainIn l h).map Record.chainPos == List.range h.chainLen)

/-- The vault READY after a load or a joiner's formatting: tombstones of the load dropped, the sweep period begun (R206, R227). -/
def vaultReady (d : Dev) : Dev :=
  { d with vmp.st := 0x96, vmp.loadTombs := [], vmp.sweepAt := some (now d), glb.vaultLoaded := true }

/-- Each chain dropped logged once, by its handle. -/
def logDropped (d : Dev) (l : List Record) : Dev := (l.map Record.handle).eraseDups.foldl (fun d h => logVault d 5 (natLe 8 h)) d

/-- The load ended: broken chains destroyed, the vault READY on every present member (R227, R369). -/
def loadEndEff (c : Cmd) (d : Dev) : Dev × Fin :=
  match imageRecords c.k d with
  | (d1, none) => (d1, .waits .saveGather)
  | (d1, some all) =>
    let d2 := if joined d then gatherEnd d1 else d1
    let l := all.filter isLive
    match loadEndFail c d2 l with
    | some st => (d2, failWith st)
    | none =>
      let gone := brokenChains l
      match applyEdit d2 { puts := [], drops := gone } with
      | (d3, false) => (d3, failWith stBusy)
      | (d3, true) =>
        let left := l.length - gone.length
        let d4 := logVault (vaultReady (logDropped d3 gone)) 1 (natLe 8 left)
        let d5 := if joined d4 then { d4 with vmp.changes := d4.vmp.changes ++ [.loadEnd] } else d4
        (d5, ok (natLe 8 left ++ natLe 4 ((gone.map Record.handle).eraseDups.length)))

/-- VAULT_LOAD_END, opcode 0x0103 (R227). -/
def cardVaultLoadEnd : Card :=
  { Card.plain 0x0103 with
    lenOk := lens 8 0 128 0
    lenLate := fun c => decide (c.dlen = if bit (c.b1 0) 0 then 0 else 128)
    paramOk := fun c => decide (c.b1 0 < 2) && zeros c.p 1 7
    check := fun _ d => firstFail [(d.vmp.st != 0x55, stNotReady)]
    eff := loadEndEff }

/-! ### VAULT_SAVE (R228, R537) -/

/-- A tenant's storage key generated and committed before its first seal (R537). -/
def fillStorageKey (d : Dev) (tenant : Nat) : Dev :=
  let slot := 0x1000 + tenant
  let r := draw d 32
  let kcv := symKcv 0x12 1 r.1
  let d1 := commitLogged r.2 slot r.1 kcv
  if joined d then { d1 with vmp.changes := d1.vmp.changes ++ [.root slot (rootSeq d1 slot) r.1 kcv false] } else d1

/-- The bank that seals a tenant's records: the one in force, the slot filled first where neither bank is VERIFIED; none where a VERIFIED bank
does not unwrap (R171, R218, R537). -/
def sealingBank (d : Dev) (tenant : Nat) : Dev × Option Bank :=
  let slot := 0x1000 + tenant
  let s := rootSlot d slot
  let fill := bankInForce d s == none && s.a.code != 0x55 && s.b.code != 0x55
  let d1 := if fill then fillStorageKey d tenant else d
  (d1, (bankInForce d1 (rootSlot d1 slot)).map fun inB => if inB then (rootSlot d1 slot).b else (rootSlot d1 slot).a)

/-- Records sealed in order, with the last CHANGE_SEQ among them and whether every one could be sealed. -/
def sealAll : List Record → (last : Nat) → Dev → Dev × Bytes × Nat × Nat × Bool
  | [], last, d => (d, [], 0, last, true)
  | r :: t, last, d =>
    match sealingBank d (hTenant r.handle) with
    | (d1, none) => (d1, [], 0, last, false)
    | (d1, some b) =>
      let x := sealAll t r.changeSeq d1
      (x.1, sealRecord d1 b r ++ x.2.1, x.2.2.1 + 1, x.2.2.2.1, x.2.2.2.2)

/-- Whether a record's tenant has no VERIFIED storage key yet. -/
def needsFill (d : Dev) (r : Record) : Bool :=
  let s := rootSlot d (0x1000 + hTenant r.handle)
  s.a.code != 0x55 && s.b.code != 0x55

/-- OP 0 and OP 2: sealed records in ascending CHANGE_SEQ. `horizon` bounds a ring's save. -/
def saveRecords (c : Cmd) (d : Dev) (all : List Record) (horizon : Nat) : Dev × Fin :=
  let from' := c.b8 8
  let tombs := all.filter fun r => !isLive r
  let stale := c.b1 0 == 0 && match sortBy Record.changeSeq tombs with | t :: _ => decide (from' < t.changeSeq) | [] => false
  let wanted := (currentOf all).filter fun r => decide (from' < r.changeSeq) && decide (r.changeSeq ≤ horizon) &&
    (c.b1 0 == 0 || isLive r && hTenant r.handle == c.b2 2)
  let l := sortBy Record.changeSeq wanted
  let n := min (c.b4 4) (c.cap / 168)
  let take := l.take n
  if stale then (d, failWith stImageStale)
  else
    let d1 := if take.any (needsFill d) then drbgBefore false d else d
    if take.any (needsFill d) && !drbgUp d1 then (d1, .waits .entropy)
    else
      let x := sealAll take from' d1
      let count := x.2.2.1
      let result := natLe 4 count ++ natLe 1 (if count < l.length then 1 else 0) ++ zeroBytes 3 ++ natLe 8 x.2.2.2.1
      (x.1, .done { status := if x.2.2.2.2 then stOk else stKeyUnavailable, result, data := x.2.1 })

/-- The highest CHANGE_SEQ of a list. -/
def highest (l : List Record) : Nat := l.foldl (fun m r => max m r.changeSeq) 0

/-- OP 1: a manifest at one CHANGE_SEQ; its number is the highest issued, told to every member (R221, R369, R370). -/
def saveManifest (d : Dev) (all : List Record) (changeSeq : Nat) : Dev × Fin :=
  match manifestKey d with
  | none => (d, failWith stNotReady)
  | some key =>
    let live := all.filter fun r => isLive r && decide (r.changeSeq ≤ changeSeq)
    let seq := d.vmp.manifestSeq + 1
    let body := manifestBody d.otp.serial seq changeSeq (now d) live.length (imageDigest live)
    let d1 := { d with vmp.manifestSeq := seq }
    (if joined d then { d1 with vmp.changes := [.manifest seq] } else d1,
      okData (natLe 8 seq ++ natLe 8 changeSeq) (body ++ aesCmac key body))

/-- The effect of VAULT_SAVE. -/
def saveEff (c : Cmd) (d : Dev) : Dev × Fin :=
  match imageRecords c.k d with
  | (d1, none) => (d1, .waits .saveGather)
  | (d1, some all) =>
    let horizon := if joined d then d1.ring.syncLow * 16 + 15 else highest all
    let x := if c.b1 0 = 1 then saveManifest d1 all horizon else saveRecords c d1 all horizon
    match x with
    | (d2, .waits w) => (d2, .waits w)
    | (d2, .done r) => (if joined d then gatherEnd d2 else d2, .done r)

/-- VAULT_SAVE, opcode 0x0104 (R228). -/
def cardVaultSave : Card :=
  { Card.plain 0x0104 with
    lenOk := lens 24 0 0 0
    lenLate := fun c => c.b1 0 != 1 || decide (128 ≤ c.cap)
    paramOk := fun c => decide (c.b1 0 ≤ 2) && zeros c.p 1 1 && zeros c.p 0x10 8 &&
      (if c.b1 0 = 2 then decide (c.b2 2 < 4096) else c.b2 2 == 0) &&
      (if c.b1 0 = 1 then c.b4 4 == 0 && c.b8 8 == 0 else decide (1 ≤ c.b4 4) && decide (c.b4 4 ≤ 99864))
    check := fun _ d => firstFail [(d.vmp.st != 0x96, stNotReady)]
    eff := saveEff }

/-! ### VAULT_POISON_REPORT (R229) -/

/-- VAULT_POISON_REPORT, opcode 0x0105 (R229). -/
def cardVaultPoisonReport : Card :=
  { Card.plain 0x0105 with
    lenOk := lens 8 0 0 0
    paramOk := fun c => decide (1 ≤ c.b4 4) && decide (c.b4 4 ≤ 8192)
    check := fun _ d => firstFail [(d.vmp.st != 0x96, stNotReady)]
    eff := fun c d =>
      let l := ((d.vmp.report.map Prod.fst).drop (c.b4 0)).take (min (c.b4 4) (c.cap / 8))
      (d, okData (natLe 4 l.length ++ natLe 4 d.vmp.report.length) (l.flatMap (natLe 8))) }

/-! ## Meanings -/

/-- VAULT_LOAD_BEGIN (07 R225). -/
def execVaultLoadBegin (k : Nat) (i : Inputs) (s : State) := s.onDev (execCard cardVaultLoadBegin k i)
/-- VAULT_LOAD_RECORDS (07 R226). -/
def execVaultLoadRecords (k : Nat) (i : Inputs) (s : State) := s.onDev (execCard cardVaultLoadRecords k i)
/-- VAULT_LOAD_END (07 R227). -/
def execVaultLoadEnd (k : Nat) (i : Inputs) (s : State) := s.onDev (execCard cardVaultLoadEnd k i)
/-- VAULT_SAVE (07 R228). -/
def execVaultSave (k : Nat) (i : Inputs) (s : State) := s.onDev (execCard cardVaultSave k i)
/-- VAULT_POISON_REPORT (07 R229). -/
def execVaultPoisonReport (k : Nat) (i : Inputs) (s : State) := s.onDev (execCard cardVaultPoisonReport k i)

end Sys2Proof.Machine
end

