-- ==== Sys2Proof/Machine/Mgmt.lean ====
section
/-! DEFINITION. The management commands 0x00xx (04 R114 to R120): IDENTIFY, GET_STATUS, SET_TENANT_CONFIG, GET_TENANT_CONFIG, RESET_TENANT
with the end of its drain, LOG_READ. -/

namespace Sys2Proof.Machine

/-- A command's function is a tenant. -/
def Cmd.isTenant (c : Cmd) : Bool := c.fn != .pf

/-! ### IDENTIFY (R115) -/

/-- "IW-TSR4096-A" padded to 16 bytes. -/
def partNumber : Bytes := fitTo 16 (ascii [0x49, 0x57, 0x2D, 0x54, 0x53, 0x52, 0x34, 0x30, 0x39, 0x36, 0x2D, 0x41])

/-- The record capacity of the vault as populated: as built, or while EMPTY as the fitted DIMMs would give it (log entry 33). -/
def vaultRecords (d : Dev) : Nat :=
  if d.vmp.st != 0x0F then capacity d
  else match population d with
    | some p => slotCount (if d.vmp.mirrorCfg then p.lines / 2 else p.lines)
    | none => 0

/-- The reply of IDENTIFY. -/
def identifyReply (c : Cmd) (d : Dev) : Bytes :=
  let im := d.mnt.running.getD {}
  let t := tn d c.tenant
  natLe 8 d.otp.serial ++ partNumber ++ natLe 1 d.otp.hwStep ++ natLe 1 d.lcd.st ++ natLe 1 im.major ++ natLe 1 im.minor ++
    natLe 1 (if d.mnt.runningB then 1 else 0) ++ natLe 1 (ringMemberByte d) ++ natLe 2 (fnCode c.fn) ++ natLe 2 (genOf d c.fn) ++
    natLe 2 (if c.isTenant then t.qpCount else 1) ++ natLe 2 (if c.isTenant then t.contextCap else 64) ++
    natLe 1 (if c.isTenant then t.maxPrio else 1) ++ zeroBytes 1 ++ natLe 4 16384 ++
    natLe 4 (if c.isTenant then 0 else vaultRecords d) ++ zeroBytes 16

/-- IDENTIFY, opcode 0x0001. -/
def cardIdentify : Card :=
  { Card.plain 0x0001 with
    tenant := true
    lenOk := lens 0 0 0 64
    eff := fun c d => (d, okData (natLe 8 d.otp.serial ++ natLe 2 (fnCode c.fn) ++ natLe 2 (genOf d c.fn)) (identifyReply c d)) }

/-! ### GET_STATUS (R116) -/

/-- GLB_STATUS for the PF, VF_STATUS for a tenant. -/
def statusWord (c : Cmd) (d : Dev) : Nat := if c.isTenant then vfStatus d c.tenant else glbStatus d

/-- Commands of a function fetched by this module and in flight. -/
def inflightOf (d : Dev) (fn : Fn) : Nat := countCtx d fun c => ctxHeld c && c.origin.isNone && c.fn == fn

/-- The maintenance slot: the occupant's activity code and 256 times the companion's; 0 for none (18 R503). -/
def maintCode (d : Dev) : Nat :=
  (match d.mnt.occupant with | some a => a.code | none => 0) + 256 * (match d.mnt.companion with | some a => a.code | none => 0)

/-- The reply of GET_STATUS. -/
def statusReply (c : Cmd) (d : Dev) : Bytes :=
  let t := tn d c.tenant
  let pf := fun v : Nat => if c.isTenant then 0 else v
  natLe 4 (statusWord c d) ++ natLe 1 (readiness d) ++ natLe 1 d.glb.active ++ natLe 2 d.glb.pace ++ natLe 8 (now d) ++
    natLe 2 (signed 16 d.bay.dieTemp) ++ natLe 2 (pf (maintCode d)) ++ natLe 4 (pf (logUsed d)) ++ natLe 8 (pf d.sen.nextSeq) ++
    natLe 4 (inflightOf d c.fn) ++ natLe 4 (if c.isTenant then signed 32 t.credit else 0) ++
    natLe 8 (d.vmp.slots.filter fun p => !c.isTenant || hTenant p.2.handle == c.tenant).length ++
    natLe 8 (if c.isTenant then t.discards else d.host.discardTotal) ++ zeroBytes 8

/-- GET_STATUS, opcode 0x0002. -/
def cardGetStatus : Card :=
  { Card.plain 0x0002 with
    tenant := true
    lenOk := lens 0 0 0 64
    eff := fun c d =>
      (d, okData (natLe 4 (statusWord c d) ++ natLe 1 (readiness d) ++ zeroBytes 1 ++ natLe 2 d.glb.pace ++ natLe 8 (now d)) (statusReply c d)) }

/-! ### SET_TENANT_CONFIG and GET_TENANT_CONFIG (R117, R118) -/

/-- A tenant entry of the log: 0 policy sealed, 1 reset (15 R454 TYPE 0x0030; packing: log entry 16). -/
def logTenant (d : Dev) (event n : Nat) (data : Bytes) : Dev := submit d 0x0030 0 2 n (natLe 1 event ++ data)

/-- The policy of a tenant in the layout of SET_TENANT_CONFIG's first 12 parameter bytes. -/
def policyBytes (n : Nat) (t : Tenant) : Bytes :=
  natLe 2 n ++ natLe 1 t.maxPrio ++ zeroBytes 1 ++ natLe 2 t.contextCap ++ natLe 2 t.classMask ++ natLe 4 t.groupMask

/-- A tenant with the policy that parameters give: in force with the completion write, so at once while that is not held (03 R73). -/
def withPolicy (c : Cmd) (bme : Bool) (t : Tenant) : Tenant :=
  let t1 := { t with policyDue := some { maxPrio := c.b1 2, contextCap := c.b2 4, classMask := c.b2 6, groupMask := c.b4 8 } }
  if bme then takePolicy t1 else t1

/-- SET_TENANT_CONFIG, opcode 0x0010: sealed and logged before it completes. -/
def cardSetTenantConfig : Card :=
  { Card.plain 0x0010 with
    logs := .always
    lenOk := lens 16 0 0 0
    paramOk := fun c => decide (c.b2 0 < 4096) && decide (2 ≤ c.b1 2) && decide (c.b1 2 ≤ 7) && zeros c.p 3 1 && decide (1 ≤ c.b2 4) &&
      decide (c.b2 4 ≤ 3584) && c.b2 6 &&& 0xF001 == 0 && decide (c.b4 8 < 256) && zeros c.p 12 4
    eff := fun c d =>
      (drainLog (logTenant (modTn d (c.b2 0) (withPolicy c (bmeOf d .pf))) 0 (c.b2 0) (slice c.p 2 10)), ok (natLe 8 (now d))) }

/-- GET_TENANT_CONFIG, opcode 0x0012. -/
def cardGetTenantConfig : Card :=
  { Card.plain 0x0012 with
    tenant := true
    lenOk := lens 4 0 0 0
    paramOk := fun c => decide (c.b2 0 < 4096) && zeros c.p 2 2
    check := fun c _ => firstFail [(c.isTenant && c.b2 0 != c.tenant, stNotPermitted)]
    eff := fun c d => (d, ok (policyBytes (c.b2 0) (tn d (c.b2 0)))) }

/-! ### RESET_TENANT (R119) -/



/-- Whether no command of tenant n stamped with a generation is in flight, on this module or on the ring. -/
def drained (d : Dev) (n gen : Nat) : Bool := (ctxsWhere d fun c => isOf n c && c.gen == gen).isEmpty

/-- The inline result of a RESET_TENANT. -/
def resetResult (oldGen newGen ended resets : Nat) : Bytes := natLe 2 oldGen ++ natLe 2 newGen ++ natLe 4 ended ++ natLe 1 resets



/-- The reset of a RESET_TENANT and its drain record. -/
def beginReset (d : Dev) (k n : Nat) (drain : Bool) : Dev :=
  let old := (tn d n).gen
  let d1 := modTn d n fun t =>
    { t with drain := if drain then some { ctx := k, oldGen := old, newGen := newGen d (.vf n), ended := 0, resets := (t.resetCount + 1) % 256 } else none }
  logTenant (resetTenantFn d1 n) 1 n (natLe 2 old ++ natLe 2 (newGen d (.vf n)))

/-- The effect of RESET_TENANT: its turn awaited, the reset, and with DRAIN the end of every old-stamped command awaited. -/
def resetTenantEff (c : Cmd) (d : Dev) : Dev × Fin :=
  let n := c.b2 0
  if resetWaits d n (ctxOf d c.k).fetchNo then (d, .waits (.resetTurn n))
  else
    let old := (tn d n).gen
    let d1 := beginReset d c.k n (bit (c.b1 2) 0)
    match (tn d1 n).drain with
    | none => (d1, ok (resetResult old (tn d1 n).gen 0 (tn d1 n).resetCount))
    | some x =>
      if drained d1 n old then
        (modTn d1 n fun t => { t with drain := none }, ok (resetResult x.oldGen x.newGen x.ended x.resets))
      else (d1, .waits (.tenantDrain n))

/-- RESET_TENANT, opcode 0x0011. -/
def cardResetTenant : Card :=
  { Card.plain 0x0011 with
    logs := .always
    lenOk := lens 4 0 0 0
    paramOk := fun c => decide (c.b2 0 < 4096) && decide (c.b1 2 < 2) && zeros c.p 3 1
    eff := resetTenantEff }

/-- RESET_TENANT_DRAIN_END: no command stamped with the old generation is left, and the command completes. -/
def resetTenantDrainEndEff (k : Nat) (d : Dev) : Dev :=
  match (ctxOf d k).wait with
  | .tenantDrain n =>
    match drainOf d n with
    | some x =>
      if x.ctx = k ∧ (ctxOf d k).code = csWaiting ∧ drained d n x.oldGen then
        let d1 := modTn d n fun t => { t with drain := none }
        finishWith d1 k { bare stOk with result := fitTo 16 (resetResult x.oldGen x.newGen x.ended x.resets) } true false
      else d
    | none => d
  | _ => d

/-! ### LOG_READ (R120) -/

/-- The entries a LOG_READ returns. -/
def logSlice (c : Cmd) (d : Dev) : List LogEntry :=
  (d.sen.log.filter fun e => decide (c.b8 0 ≤ e.seq)).take (min (c.b4 8) (eReplyUnits c.entry))

/-- LOG_READ, opcode 0x0020. With no entry returned the number of the first is not stated: a free value (log entry 4). -/
def cardLogRead : Card :=
  { Card.plain 0x0020 with
    lenOk := lens 16 0 0 0
    paramOk := fun c => decide (1 ≤ c.b4 8) && decide (c.b4 8 ≤ 4096) && zeros c.p 12 4
    eff := fun c d =>
      let l := logSlice c d
      let first := match l with | e :: _ => e.seq | [] => Config.freeNat 4 (c.b8 0) % 2 ^ 64
      let top := match l.getLast? with
        | some e => if d.sen.readMax = 0xFFFFFFFFFFFFFFFF then e.seq else max d.sen.readMax e.seq
        | none => d.sen.readMax
      ({ d with sen.readMax := top }, okData (natLe 8 first ++ natLe 4 l.length) (l.flatMap logBytes)) }

/-! ## Meanings -/

/-- IDENTIFY (04 R115). -/
def execIdentify (k : Nat) (i : Inputs) (s : State) := s.onDev (execCard cardIdentify k i)
/-- GET_STATUS (04 R116). -/
def execGetStatus (k : Nat) (i : Inputs) (s : State) := s.onDev (execCard cardGetStatus k i)
/-- SET_TENANT_CONFIG (04 R117). -/
def execSetTenantConfig (k : Nat) (i : Inputs) (s : State) := s.onDev (execCard cardSetTenantConfig k i)
/-- GET_TENANT_CONFIG (04 R118). -/
def execGetTenantConfig (k : Nat) (i : Inputs) (s : State) := s.onDev (execCard cardGetTenantConfig k i)
/-- RESET_TENANT (04 R119). -/
def execResetTenant (k : Nat) (i : Inputs) (s : State) := s.onDev (execCard cardResetTenant k i)
/-- RESET_TENANT_DRAIN_END (04 R119). -/
def execResetTenantDrainEnd (k : Nat) (s : State) := s.onDev (resetTenantDrainEndEff k)
/-- LOG_READ (04 R120). -/
def execLogRead (k : Nat) (i : Inputs) (s : State) := s.onDev (execCard cardLogRead k i)

end Sys2Proof.Machine
end

