-- ==== Sys2Proof/Machine/RegRead.lean ====
section
/-! DEFINITION. What a register reads: the GLB, QM, SCH, CVU, SEN, RING, VMP, LCD, ENT and VFCFG blocks of PF BAR0, the blocks of a VF BAR0,
and the MSI-X tables (03 R74 to R81; 04 R92, R110; 05 R133; 07 R223; 12 R371; 14 R418; 15 R460; 16 R466, R473). A 64-bit register is given by its
offset, any other by its own 32-bit word; an offset given by neither is unassigned and reads zero (03 R75). -/

namespace Sys2Proof.Machine

/-- The layout every X_COMMIT register shares (05 R144). -/
def commitWord (block : Nat) (d : Dev) : Nat := flag (blockPending block d) 1 + 2 ^ 8 * blockCount block d

/-- A queue's CFG word (03 R78; 04 R92). -/
def cfgWord (p : Qp) (fetchErr : Bool) : Nat :=
  flag p.enable 0 + flag p.irqEn 1 + flag (fetchErr && p.fetchErr) 2 + 2 ^ 4 * p.vector + 2 ^ 8 * p.sqSize + 2 ^ 12 * p.cqSize

/-! ## GLB (03 R78) -/

/-- A vault bay's temperature byte: 0x80 when absent. -/
def hubByte (d : Dev) (j : Nat) : Nat := match d.bay.hubTemps.getD j none with | some t => signed 8 t | none => 0x80

/-- GLB_TEMP. -/
def glbTemp (d : Dev) : Nat :=
  signed 16 d.bay.dieTemp + 2 ^ 16 * hubByte d 0 + 2 ^ 24 * hubByte d 1 + 2 ^ 32 * hubByte d 2 + 2 ^ 40 * hubByte d 3

/-- 64-bit registers of GLB. -/
def glb64 (d : Dev) : Nat → Option Nat
  | 0x00 => some d.otp.serial
  | 0x20 => some (glbTemp d)
  | 0x28 => some (now d)
  | 0x40 => some d.glb.admin.sqBase
  | 0x48 => some d.glb.admin.cqBase
  | _ => none

/-- 32-bit registers of GLB. -/
def glb32 (d : Dev) : Nat → Nat
  | 0x08 => glbVersion d
  | 0x0C => glbStatus d
  | 0x10 => d.glb.pace + flag d.glb.settling 16 + 2 ^ 24 * d.glb.windowSeq
  | 0x14 => d.glb.refs.getD 0 0 + 2 ^ 16 * d.glb.refs.getD 1 0
  | 0x18 => d.glb.refs.getD 2 0 + 2 ^ 16 * d.glb.refs.getD 3 0
  | 0x1C => d.glb.profile + 2 ^ 4 * d.glb.active + flag d.glb.thermalFallback 8
  | 0x30 => d.glb.event
  | 0x34 => d.glb.eventEn
  | 0x38 => flag d.glb.cfgReject 0 + flag d.glb.cfgCause 1 + 2 ^ 8 * d.glb.cfgOffset
  | 0x3C => d.glb.pfGen
  | 0x50 => cfgWord d.glb.admin true
  | 0x60 => flag d.glb.vfCommitPending 17
  | _ => 0

/-! ## QM (04 R110) -/

/-- The sum of QP_COUNT over all 4,096 entries. -/
def qpAllocated (d : Dev) : Nat := (d.tenants.map fun p => p.2.qpCount).foldl (· + ·) (2 * (4096 - d.tenants.length))

/-- Contexts of tenants' commands in use, with those set aside for reads under way. -/
def tenantContexts (d : Dev) : Nat := countCtx d isTenant + setAside d (· != .pf)

def qm64 (d : Dev) : Nat → Option Nat
  | 0x20 => some d.host.discardTotal
  | 0x28 => some d.host.fetchTotal
  | _ => none

def qm32 (d : Dev) : Nat → Nat
  | 0x00 => (4096 - countCtx d ctxHeld) + flag (decide (3584 ≤ tenantContexts d)) 16 + 2 ^ 17 * qpAllocated d
  | 0x04 => d.host.rateWritten + 2 ^ 16 * d.host.burstWritten
  | 0x08 => d.host.tenantSel
  | 0x0C =>
    let n := d.host.tenantSel
    let t := tn d n
    inflightOf d (.vf n) + flag t.active 16 + flag (t.credited && decide (t.credit < 1)) 17 + flag (decide (t.contextCap ≤ countCtx d (isOf n))) 18
  | 0x10 => signed 32 (tn d d.host.tenantSel).credit
  | 0x14 => if (tn d d.host.tenantSel).active then (tn d d.host.tenantSel).refill else 0
  | 0x18 => (tn d d.host.tenantSel).discards
  | _ => 0

/-! ## SCH (05 R133) -/

/-- Whether the five handler slots have work (05 R122): the sentinel, then the four scopes (log entry 87). -/
def handlerWork (d : Dev) : List Bool := d.sen.busy :: d.flt.scopes.map fun s => s.current.isSome

/-- Length of a level's ready list; the work of handler slots waits at level 0 (05 R122, R124). -/
def readyLen (d : Dev) (l : Nat) : Nat := (d.sch.ready.getD l []).length + if l = 0 then ((handlerWork d).filter (·)).length else 0

/-- Contexts in a state. -/
def inState (d : Dev) (code : Nat) (p : Ctx → Bool) : Nat := countCtx d fun c => c.code == code && p c

/-- A bit for each core that a test accepts. -/
def coreMask (d : Dev) (p : Core → Bool) : Nat := (d.sch.cores.zipIdx.filter fun x => p x.1).foldl (fun m x => setBit m x.2) 0

def sch64 (d : Dev) : Nat → Option Nat
  | 0x20 => some d.sch.dispatchTotal
  | 0x28 => some d.sch.preemptTotal
  | _ => none

def sch32 (d : Dev) : Nat → Nat
  | 0x00 => inState d csReady (fun _ => true) + 2 ^ 16 * inState d csWaiting fun _ => true
  | 0x04 => coreMask d Core.online
  | 0x08 => coreMask d fun c => c.running.isSome
  | 0x0C => d.sch.mgmtShadow + 2 ^ 16 * d.sch.runLimit
  | 0x10 => readyLen d 0 + 2 ^ 16 * readyLen d 1
  | 0x14 => readyLen d 2 + 2 ^ 16 * readyLen d 3
  | 0x18 => readyLen d 4 + 2 ^ 16 * readyLen d 5
  | 0x1C => readyLen d 6 + 2 ^ 16 * readyLen d 7
  | 0x30 => d.sch.flagOverrun
  | 0x34 => d.sch.stray
  | 0x38 => d.sch.runLimitHits
  | 0x40 => d.sch.tenantSel
  | 0x44 => (tn d d.sch.tenantSel).maxPrio
  | 0x48 => inState d csReady (fun c => c.fn == .vf d.sch.tenantSel) + 2 ^ 16 * inState d csWaiting fun c => c.fn == .vf d.sch.tenantSel
  | 0xFF8 => commitWord 2 d
  | _ => 0

/-! ## CVU (16 R466) -/

def cvu64 (u : Cvu) : Nat → Option Nat
  | 0x08 => some u.polyS
  | 0x10 => some u.initS
  | 0x18 => some u.xoroutS
  | 0x20 => some u.addr
  | 0x38 => some u.result
  | _ => none

def cvu32 (u : Cvu) : Nat → Nat
  | 0x00 => u.widthS + flag u.refinS 8 + flag u.refoutS 9 + flag u.rawS 10
  | 0x28 => u.len
  | 0x2C => flag u.pend 0 + flag u.owner 1 + flag u.irqEn 2
  | 0x30 => flag u.busy 0 + flag u.isDone 1 + flag u.error 2 + 2 ^ 4 * u.err + 2 ^ 8 * u.jobs
  | _ => 0

/-! ## SEN (15 R460) -/

/-- FUSED: the bezel switch and the external loops. -/
def fusedMask (d : Dev) : Nat := (List.range 5).foldl (fun m j => if sourceDisabled d (5 + j) then setBit m j else m) 0

/-- The three fields of SEN_UNLOCK. -/
def unlockWord (d : Dev) : Nat :=
  (match d.lcd.unlockSession with | some j => (sessionOf d j).code + 2 ^ 8 * j | none => 0x0F) + 2 ^ 12 * d.lcd.refuseCause

def sen64 (d : Dev) : Nat → Option Nat
  | 0x18 => some ((d.bay.attach.map Attach.cellFitted).getD 0)
  | 0x28 => some 0
  | 0x40 => some d.sen.nextSeq
  | 0x48 => some d.sen.oldest
  | 0x50 => some d.sen.readMax
  | 0x58 => some 0
  | 0x60 => some (field d.sen.base 0 8)
  | 0x68 => some (field d.sen.base 8 8)
  | _ => none

/-- Fields of two bits each. -/
def pairsOf (l : List Nat) : Nat := l.zipIdx.foldl (fun v p => v + 4 ^ p.2 * p.1) 0

def sen32 (d : Dev) : Nat → Nat
  | 0x00 => d.sen.response + flag d.sen.busy 8 + flag d.glb.locked 9 + flag d.keeper.zeroised 10 + flag d.keeper.latch 11 + flag d.sen.full 12 +
      flag d.keeper.timeLost 13 + flag d.sen.releasing.isSome 14 + 2 ^ 16 * fusedMask d + 2 ^ 24 * d.sen.lockCause
  | 0x04 => d.sen.active
  | 0x08 => d.sen.latched
  | 0x0C => pairsOf d.sen.clsShadow
  | 0x10 => d.sen.thresholdShadow + 2 ^ 8 * d.sen.windowShadow + 2 ^ 24 * d.sen.escShadow
  | 0x14 => d.bay.cell.millivolts + 2 ^ 16 * d.bay.cellState
  | 0x20 => signed 9 d.keeper.trim
  | 0x24 => signed 32 d.keeper.adjust
  | 0x30 => unlockWord d
  | 0x34 => logUsed d
  | 0x38 => d.sen.lost
  | 0x70 => d.sen.event
  | 0x74 => d.sen.eventEn
  | 0xFF8 => commitWord 4 d
  | _ => 0

/-! ## RING (12 R371) -/

/-- One port's half of RING_PORT. -/
def portBits (p : Port) : Nat := flag (decide (0 < p.lanes)) 0 + flag p.auth 1 + flag p.failed 2 + 2 ^ 4 * p.lanes + 2 ^ 8 * p.neighbour

/-- Listed buckets that a test accepts. -/
def countMap (d : Dev) (p : MapEntry → Bool) : Nat := (d.ring.map.filter fun x => p x.2).length

/-- LOST buckets; an entry the table does not list is LOST without holders. -/
def lostCount (d : Dev) : Nat := if d.ring.map.isEmpty then 0 else 4096 - countMap d fun e => e.st != 5

/-- RING_PEER of the member selected. -/
def peerWord (d : Dev) : Nat :=
  let m := d.ring.peerSel
  let p := peerOf d m
  let age := match p.beatAt with | some t => holdAt 32 (now d - t) | none => 0xFFFFFFFF
  p.pace + 2 ^ 16 * min 31 (outstandingAt d m) + 2 ^ 24 * (if bit d.ring.present m then hopsTo d m else 0) + flag (bit d.ring.present m) 28 +
    flag p.pairKey.isSome 29 + 2 ^ 32 * age

def ring64 (d : Dev) : Nat → Option Nat
  | 0x20 => some d.ring.forwarded
  | 0x38 => some (peerWord d)
  | _ => none

def ring32 (d : Dev) : Nat → Nat
  | 0x00 => d.ring.st + 2 ^ 8 * memberNo d + 2 ^ 12 * d.ring.acting + 2 ^ 16 * (membersOf d.ring.present).length + flag (isAnchor d) 21 +
      flag (joined d && standbyOf d d.ring.present == some (memberNo d)) 22 + flag (ringDual d) 23 + flag d.ring.config.isSome 24
  | 0x04 => d.ring.present
  | 0x08 => d.ring.epoch
  | 0x0C => d.ring.mapSeq
  | 0x10 => flag d.ring.joinEn 0 + 2 ^ 8 * d.ring.replShadow + 2 ^ 16 * d.ring.formWait
  | 0x14 => portBits d.ring.east + 2 ^ 16 * portBits d.ring.west
  | 0x18 => countMap d (fun e => e.primary == memberNo d || e.secondary == memberNo d) + 2 ^ 16 * countMap d fun e => e.primary == memberNo d
  | 0x1C => countMap d (fun e => decide (1 ≤ e.st) && decide (e.st ≤ 4)) + 2 ^ 16 * lostCount d
  | 0x28 => d.ring.reissues
  | 0x2C => d.ring.losses
  | 0x30 => d.ring.resends + 2 ^ 16 * d.ring.integrity
  | 0x34 => d.ring.peerSel
  | 0x40 => d.ring.event
  | 0x44 => d.ring.eventEn
  | 0xFF8 => commitWord 5 d
  | _ => 0

/-! ## VMP (07 R223) -/

/-- VMP_POISON_LOG of the entry selected. -/
def poisonWord (d : Dev) : Nat :=
  let e := tabGet {} d.vmp.poison d.vmp.poisonSel
  e.first + 2 ^ 32 * e.level + 2 ^ 36 * e.cause + 2 ^ 40 * e.outcome + 2 ^ 48 * holdAt 16 e.handles

/-- VMP_ECC_CE. -/
def eccWord (d : Dev) : Nat := d.vmp.ecc.getD 0 0 + 2 ^ 16 * d.vmp.ecc.getD 1 0 + 2 ^ 32 * d.vmp.ecc.getD 2 0 + 2 ^ 48 * d.vmp.ecc.getD 3 0

def vmp64 (d : Dev) : Nat → Option Nat
  | 0x18 => some d.vmp.sweepTime
  | 0x20 => some (eccWord d)
  | 0x30 => some d.vmp.minorRolls
  | 0x50 => some (poisonWord d)
  | _ => none

def vmp32 (d : Dev) : Nat → Nat
  | 0x00 => d.vmp.st + 2 ^ 8 * frogState d + flag d.vmp.mirrored 16 + flag d.vmp.degraded 17 + 2 ^ 20 * clearBits d.vmp.channels d.vmp.chanDown +
      2 ^ 24 * poisonOpenCount d
  | 0x04 => flag d.vmp.mirrorCfg 0 + 2 ^ 8 * d.vmp.frogRate + 2 ^ 16 * d.vmp.frogPeriodShadow
  | 0x08 => groupCount d.vmp.n
  | 0x0C => slotCount d.vmp.n
  | 0x10 => d.vmp.slots.length
  | 0x14 => if d.vmp.frog = 0x33 ∨ d.vmp.frog = 0x55 ∨ d.vmp.frog = 0x96 then d.vmp.row else 0xFFFFFFFF
  | 0x28 => d.vmp.ue
  | 0x2C => d.vmp.tagFail
  | 0x38 => d.vmp.frozenCount
  | 0x3C => d.vmp.sweeps
  | 0x40 => d.vmp.event
  | 0x44 => d.vmp.eventEn
  | 0x48 => d.vmp.poisonSel
  | 0xFF8 => commitWord 6 d
  | _ => 0

/-! ## LCD (14 R418) -/

/-- One slot's byte of LCD_CARD. -/
def cardBits (d : Dev) (j : Nat) : Nat :=
  let c := cardOf d j
  flag c.present 0 + flag c.opened 1 + flag c.classB 2 + flag (c.present && (cardEnrolment d c.serial).isSome) 3 + 2 ^ 4 * c.lastFail

/-- LCD_CUSTODY. -/
def custodyWord (d : Dev) : Nat :=
  (inForce d).length + 2 ^ 4 * approvers d + 2 ^ 8 * quorum d + flag (rootContent d 4).isSome 12 + 2 ^ 16 * enrolMask d

/-- LCD_SESSION of the session selected. -/
def sessionWord (d : Dev) : Nat :=
  let s := sessionOf d d.lcd.sessionSel
  let left := if s.code = 0x0F then 0 else (1000000 * s.ttl + s.openedAt - now d + 999999) / 1000000
  s.code + 2 ^ 8 * (counted d s).length + 2 ^ 16 * s.action + 2 ^ 32 * left + 2 ^ 48 * maskOf s.approvedBy

/-- The serial of a seated card; 0 when empty. -/
def cardSerial (d : Dev) (j : Nat) : Nat := if (cardOf d j).present then (cardOf d j).serial else 0

def lcd64 (d : Dev) : Nat → Option Nat
  | 0x08 => some (d.otp.lcWord % 2 ^ 64)
  | 0x20 => some (cardSerial d 0)
  | 0x28 => some (cardSerial d 1)
  | 0x38 => some (sessionWord d)
  | _ => none

def lcd32 (d : Dev) : Nat → Nat
  | 0x00 => d.lcd.st + 2 ^ 8 * d.lcd.pendingTarget + flag (d.otp.jtagFuse != 0) 16 + flag d.lcd.token.isSome 17 + 2 ^ 20 * d.lcd.tokenFails +
      flag d.lcd.rolledForward 24 + flag d.lcd.rootInit.isSome 25
  | 0x10 => d.otp.lcWord / 2 ^ 64 % 2 ^ 16
  | 0x14 => custodyWord d
  | 0x18 => cardBits d 0 + 2 ^ 8 * cardBits d 1
  | 0x30 => d.lcd.sessionSel
  | 0x40 => d.lcd.ttlShadow + flag d.lcd.remoteShadow 16 + flag d.lcd.uartStatus 17
  | 0x44 => d.lcd.event
  | 0x48 => d.lcd.eventEn
  | 0xFF8 => commitWord 7 d
  | _ => 0

/-! ## ENT (16 R473) -/

def ent64 (d : Dev) : Nat → Option Nat
  | 0x10 => some d.ent.reseeds
  | 0x18 => some d.ent.lastReseed
  | _ => none

def ent32 (d : Dev) : Nat → Nat
  | 0x00 => d.ent.online + 2 ^ 4 * d.ent.retired + flag d.ent.poolFailed 8 + flag d.ent.drbgFailed 9 + 2 ^ 12 * min d.ent.requests (2 ^ 20 - 1)
  | 0x04 => d.ent.minShadow
  | 0x0C => d.ent.fails.getD 0 0 + 2 ^ 8 * d.ent.fails.getD 1 0 + 2 ^ 16 * d.ent.fails.getD 2 0 + 2 ^ 24 * d.ent.fails.getD 3 0
  | 0x20 => d.ent.event
  | 0x24 => d.ent.eventEn
  | 0xFF8 => commitWord 8 d
  | _ => 0

/-! ## VFCFG (03 R79) and MSI-X (03 R77; layout of PCIe: log entry 3) -/

/-- STATE of a tenant. -/
def tenantState (d : Dev) (n : Nat) : Nat := if 2 ≤ (tn d n).st then (tn d n).st else if admitted d n then 1 else 0

/-- A word of tenant n's entry. -/
def vfcfg32 (d : Dev) (n : Nat) : Nat → Nat
  | 0x0 => flag (tn d n).enableShadow 0 + flag (tn d n).lockAllowedShadow 1 + 2 ^ 4 * (tn d n).qpCount + 2 ^ 16 * (tn d n).gen
  | 0x4 => (tn d n).weightShadow
  | 0x8 => tenantState d n + flag (dirty (tn d n)) 2 + 2 ^ 8 * (tn d n).resetCount
  | _ => 0

/-- A vector's message address, data and control. -/
def msix64 (x : Vector') : Nat → Option Nat
  | 0x0 => some x.addr
  | _ => none

def msix32 (x : Vector') : Nat → Nat
  | 0x8 => x.data
  | 0xC => flag x.masked 0
  | _ => 0

/-- The pending bit array of a function. -/
def pendingBits (d : Dev) (fn : Fn) (count : Nat) : Nat :=
  (List.range count).foldl (fun m v => if (vectorOf d fn v).pending then setBit m v else m) 0

/-! ## A function's registers (03 R74) -/

/-- The 64-bit register of PF BAR0 at an offset. -/
def pf64 (d : Dev) (off : Nat) : Option Nat :=
  let o := off % 0x1000
  match off / 0x1000 with
  | 0x00 => glb64 d o
  | 0x01 => qm64 d o
  | 0x02 => sch64 d o
  | 0x03 => if o < 0x400 then cvu64 (d.cvu.units.getD (o / 0x100) {}) (o % 0x100) else none
  | 0x04 => sen64 d o
  | 0x05 => ring64 d o
  | 0x06 => vmp64 d o
  | 0x07 => lcd64 d o
  | 0x08 => ent64 d o
  | 0x20 => if o < 0x400 then msix64 (vectorOf d .pf (o / 16)) (o % 16) else none
  | 0x21 => if o = 0 then some (pendingBits d .pf 64) else none
  | _ => none

/-- The 32-bit word of PF BAR0 at an offset that no 64-bit register covers. -/
def pf32 (d : Dev) (off : Nat) : Nat :=
  let o := off % 0x1000
  if 0x10000 ≤ off ∧ off < 0x20000 then vfcfg32 d ((off - 0x10000) / 16) (off % 16)
  else match off / 0x1000 with
    | 0x00 => glb32 d o
    | 0x01 => qm32 d o
    | 0x02 => sch32 d o
    | 0x03 => if o < 0x400 then cvu32 (d.cvu.units.getD (o / 0x100) {}) (o % 0x100) else if o = 0xFF8 then commitWord 3 d else 0
    | 0x04 => sen32 d o
    | 0x05 => ring32 d o
    | 0x06 => vmp32 d o
    | 0x07 => lcd32 d o
    | 0x08 => ent32 d o
    | 0x20 => if o < 0x400 then msix32 (vectorOf d .pf (o / 16)) (o % 16) else 0
    | _ => 0

/-- REMAIN of a grant (03 R81). -/
def remainOf (d : Dev) (n : Nat) : Nat := match (tn d n).grant with | some g => (g.grantedAt + 100000 - now d) / 10 | none => 0

/-- VF_ENG_LOCK (03 R81). -/
def lockWord (d : Dev) (n : Nat) : Nat :=
  let t := tn d n
  flag t.lockReq 0 + flag t.grant.isSome 2 + flag t.forced 3 + flag t.refused 4 + 2 ^ 8 * ((t.grant.map Grant.lane).getD 0) + 2 ^ 16 * remainOf d n

/-- The status block of VF n (03 R81). -/
def vfStatus64 (d : Dev) (n : Nat) : Nat → Option Nat
  | 0x10 => some d.otp.serial
  | 0x18 => some (now d)
  | 0x20 => some (tn d n).lockKey
  | _ => none

def vfStatus32 (d : Dev) (n : Nat) : Nat → Nat
  | 0x00 => vfStatus d n
  | 0x04 => (tn d n).gen
  | 0x08 => n
  | 0x28 => lockWord d n
  | 0x30 => (tn d n).event
  | 0x34 => (tn d n).eventEn + 2 ^ 16 * (tn d n).eventVector
  | _ => 0

/-- A queue pair's registers (04 R92). -/
def qp64 (p : Qp) : Nat → Option Nat
  | 0x00 => some p.sqBase
  | 0x08 => some p.cqBase
  | _ => none

def qp32 (p : Qp) : Nat → Nat
  | 0x10 => cfgWord p false
  | 0x14 => p.count + 2 ^ 8 * p.time
  | 0x20 => p.sqHead + flag p.phase 16 + flag (p.inflight == 0) 17 + flag p.doorbellErr 18 + flag p.fetchErr 19 + 2 ^ 20 * p.inflight
  | _ => 0

/-- The 64-bit register of VF n's BAR0 at an offset. -/
def vf64 (d : Dev) (n off : Nat) : Option Nat :=
  let o := off % 0x1000
  match off / 0x1000 with
  | 0 => vfStatus64 d n o
  | 1 => if o / 0x100 < (tn d n).qpCount then qp64 (qpOf d (.vf n) (o / 0x100)) (o % 0x100) else none
  | 2 => if o < 0x40 then msix64 (vectorOf d (.vf n) (o / 16)) (o % 16) else none
  | 3 => if o = 0 then some (pendingBits d (.vf n) 4) else none
  | _ => none

/-- The 32-bit word of VF n's BAR0 at an offset that no 64-bit register covers. -/
def vf32 (d : Dev) (n off : Nat) : Nat :=
  let o := off % 0x1000
  match off / 0x1000 with
  | 0 => vfStatus32 d n o
  | 1 => if o / 0x100 < (tn d n).qpCount then qp32 (qpOf d (.vf n) (o / 0x100)) (o % 0x100) else 0
  | 2 => if o < 0x40 then msix32 (vectorOf d (.vf n) (o / 16)) (o % 16) else 0
  | _ => 0

/-- The 64-bit register of a function at an offset. -/
def reg64 (d : Dev) (fn : Fn) (off : Nat) : Option Nat := match fn with | .pf => pf64 d off | .vf n => vf64 d n off

/-- The upper half of a function's time that a 32-bit read of the lower half latched (03 R75, R78). -/
def latchOf (d : Dev) : Fn → Nat
  | .pf => d.glb.timeLatch
  | .vf n => (tn d n).timeLatch

/-- Offset of GLB_TIME, or of VF_TIME. -/
def timeOffset : Fn → Nat
  | .pf => 0x28
  | .vf _ => 0x18

/-- A 32-bit read at a 4-byte aligned offset: half of a 64-bit register, or a register of its own. -/
def readWord (d : Dev) (fn : Fn) (off : Nat) : Nat :=
  if off = timeOffset fn + 4 then latchOf d fn
  else match reg64 d fn (off / 8 * 8) with
    | some v => if off % 8 = 0 then v % 2 ^ 32 else v / 2 ^ 32 % 2 ^ 32
    | none => match fn with | .pf => pf32 d off | .vf n => vf32 d n off

/-- A 64-bit read at an 8-byte aligned offset. -/
def readPair (d : Dev) (fn : Fn) (off : Nat) : Nat :=
  match reg64 d fn off with
  | some v => v
  | none => readWord d fn off + 2 ^ 32 * readWord d fn (off + 4)

end Sys2Proof.Machine
end

