-- ==== Sys2Proof/Machine/RingMap.lean ====
section
/-! DEFINITION. Membership and placement (12 R348 to R356, R365, R366): the map as the acting anchor plans it and every member applies it,
views issued and adopted, losses, the minority, orderly leaves, joiners admitted, configurations adopted. -/

namespace Sys2Proof.Machine

/-! ## The log and this member's identity -/

/-- A ring entry of the log: 0 view, 1 join, 2 leave, 3 configuration adopted, 4 configuration refused, 5 join failed or refused, 6 leave not
confirmed, 7 lane lost, 8 chassis not named (15 R454 TYPE 0x0032; packing: log entry 16). -/
def logRing (d : Dev) (event : Nat) (data : Bytes) : Dev := submit d 0x0032 0 15 0xFFFE (natLe 1 event ++ data)

/-- The encoding of the public key in a root-store pair: ML-DSA-65 in slot 1, P-384 in slot 2. -/
def identityPublic (d : Dev) (slot : Nat) : Bytes :=
  match rootContent d slot with
  | some b => if slot = 1 then b.drop (privLen 0x49 0) else pubEncoding 0x31 (b.drop (privLen 0x31 0))
  | none => []

/-- The identity digest of two public keys (R346). -/
def identityDigest (mldsa p384 : Bytes) : Bytes := sha256 (mldsa ++ p384)

/-- Both identity keys usable (R48). -/
def identityOk (d : Dev) : Bool := (rootContent d 1).isSome && (rootContent d 2).isSome

/-- Two signatures over a message with both identity keys (09 R269), and the state after the randomness they take. -/
def signBoth (d : Dev) (msg : Bytes) : Bytes × Bytes × Dev :=
  let a := pkSign 0x30 0x49 3309 ((rootPrivate d 1 0x49).getD []) msg 0 [] d.ent.draws
  let d1 := (draw d 32).2
  let b := pkSign 0x11 0x31 96 ((rootPrivate d 2 0x31).getD []) msg 0 [] d1.ent.draws
  (a, b, (draw d1 32).2)

/-- Whether both signatures over a message verify under two identity keys. -/
def verifyBoth (mldsa p384 msg sigM sigP : Bytes) : Bool :=
  pkVerify 0x30 0x49 mldsa msg 0 [] sigM && pkVerify 0x11 0x31 (pubMaterial 0x31 p384) msg 0 [] sigP

/-! ## Load and the choice of members (R356) -/

/-- Members present in the view in force, in ascending number. -/
def presentMembers (d : Dev) : List Nat := membersOf d.ring.present

/-- Whether a map entry names a member as holder. -/
def entryHolds (e : MapEntry) (m : Nat) : Bool := e.primary == m || e.secondary == m

/-- Buckets 0 to 4,095. -/
def allBuckets : List Nat := List.range 4096

/-- The load of a member: its holdings, with those it is filling or taking over (log entry 30). -/
def loadOf (d : Dev) (m : Nat) : Nat := (d.ring.map.filter fun p => entryHolds p.2 m || p.2.incoming == m).length

/-- The least-loaded of a list of members, the lowest number on a tie. -/
def leastLoaded (d : Dev) (l : List Nat) : Option Nat :=
  l.foldl (fun best m => match best with | none => some m | some x => if loadOf d m < loadOf d x then some m else some x) none

/-- The most-loaded of a list of members, the lowest number on a tie. -/
def mostLoaded (d : Dev) (l : List Nat) : Option Nat :=
  l.foldl (fun best m => match best with | none => some m | some x => if loadOf d x < loadOf d m then some m else some x) none

/-! ## Plans of the acting anchor (R356, R366) -/

/-- A SINGLE bucket that another present member can fill begins to fill. -/
def fillBucket (d : Dev) (b : Nat) : Dev :=
  let e := mapOf d b
  if e.st = 1 then match leastLoaded d ((presentMembers d).filter (· != e.primary)) with
    | some n => setMap d b { e with incoming := n, st := 2, prior := 1 }
    | none => d
  else d

/-- A LOST bucket's new holders, with an empty vault (R366). -/
def newHolders (d : Dev) (b : Nat) : Dev :=
  match leastLoaded d (presentMembers d) with
  | none => setMap d b { primary := 255, secondary := 255, incoming := 255, st := 5, prior := 5 }
  | some p =>
    let s := leastLoaded d ((presentMembers d).filter (· != p))
    setMap d b { primary := p, secondary := s.getD 255, incoming := 255, st := 5, prior := 5 }

/-- One bucket at the loss of member m. -/
def loseBucket (m : Nat) (d : Dev) (b : Nat) : Dev :=
  let e := mapOf d b
  if e.incoming = m then fillBucket (setMap d b { e with incoming := 255, st := e.prior }) b
  else if entryHolds e m then
    let h := if e.primary = m then e.secondary else e.primary
    if h = 255 then newHolders (setMap d b {}) b
    else fillBucket (setMap d b { primary := h, secondary := 255, incoming := 255, st := 1, prior := 1 }) b
  else d

/-- The map after the loss of member m. -/
def planLoss (d : Dev) (m : Nat) : Dev := allBuckets.foldl (loseBucket m) d

/-- The move of a bucket from holder x to another member. -/
def moveBucket (d : Dev) (b x dest : Nat) : Dev :=
  let e := mapOf d b
  setMap d b { e with incoming := dest, st := if e.primary = x then 3 else 4, prior := e.st }

/-- Moves to a joiner until the loads are even; `fuel` bounds the moves. -/
def planMoves (j : Nat) : (fuel : Nat) → Dev → Dev
  | 0, d => d
  | f + 1, d =>
    match mostLoaded d (presentMembers d) with
    | none => d
    | some x =>
      match allBuckets.find? fun b => entryHolds (mapOf d b) x && !entryHolds (mapOf d b) j && (mapOf d b).st == 0 with
      | none => d
      | some b => if loadOf d x < loadOf d j + 1 then d else planMoves j f (moveBucket d b x j)

/-- The map when member j joins: SINGLE buckets fill first (log entry 30), then the loads are evened. -/
def planJoin (d : Dev) (j : Nat) : Dev := planMoves j 8192 (allBuckets.foldl fillBucket d)

/-- The moves of a leaver's DUAL buckets. -/
def planLeave (d : Dev) (m : Nat) : Dev :=
  allBuckets.foldl (fun d b =>
    let e := mapOf d b
    if entryHolds e m && e.st == 0 then
      match leastLoaded d ((presentMembers d).filter fun n => n != m && !entryHolds e n && !d.ring.leavers.contains n) with
      | some n => moveBucket d b m n
      | none => d
    else d) d

/-- The map of a ring of one member. -/
def planAlone (d : Dev) : Dev :=
  let me := memberNo d
  { d with ring.map := allBuckets.map fun b => (b, { primary := me, secondary := 255, incoming := 255, st := 1, prior := 1 }) }

/-- The change of a bucket whose INCOMING has the last record. -/
def moveDone (e : MapEntry) : MapEntry :=
  if e.st = 3 then { primary := e.secondary, secondary := e.incoming, incoming := 255, st := 0, prior := 0 }
  else { primary := e.primary, secondary := e.incoming, incoming := 255, st := 0, prior := 0 }

/-! ## The map applied (R355, R356, R359) -/

/-- A list cut into runs of 64 records. -/
def runs64 : (fuel : Nat) → List Record → List (List Record)
  | 0, _ => []
  | f + 1, l => if l.isEmpty then [] else l.take 64 :: runs64 f (l.drop 64)

/-- A bucket's records and tombstones sent to INCOMING in COPY frames, the last marked. -/
def sendCopy (d : Dev) (b dest : Nat) : Dev :=
  let l := (heldRecords d ++ d.vmp.tombs).filter fun r => bucketOf r.handle == b
  let parts := runs64 l.length l
  let body := if parts.isEmpty then [[]] else parts
  (body.zipIdx).foldl (fun d p => sendFrame d dest (.copy b p.1 (decide (p.2 + 1 = body.length))))
    { d with ring.copying := insertNat d.ring.copying b }

/-- The high-water marks of records that this module stops holding (08 R239). -/
def keepMarks (d : Dev) (p : Record → Bool) : Dev :=
  (d.vmp.slots.filter fun x => x.2.chainPos == 0 && p x.2).foldl (fun d x =>
    noteMark d x.2.handle x.2.invocations) d

/-- Grants on records of a bucket that this module stops holding keep the version they were given, as a transferred one (08 R239, R250). -/
def keepGrants (d : Dev) (b : Nat) : Dev :=
  (d.tenants.map Prod.fst).foldl (fun d n => match (tn d n).grant with
    | some g =>
      if bucketOf g.handle == b && g.recs.isEmpty then
        let l := recsOfKey d (keyOf g.handle)
        modTn d n fun t => { t with grant := some { g with recs := (resolveIn l g.handle).elim [] (chainIn l) } }
      else d
    | none => d) d

/-- The records of a bucket destroyed from this module's vault, its cache with them. -/
def dropBucket (d0 : Dev) (b : Nat) : Dev :=
  let d := keepMarks (keepGrants d0 b) fun r => bucketOf r.handle == b
  let gone := (d.vmp.slots.filter fun p => bucketOf p.2.handle == b).map Prod.fst
  { gone.foldl freeAt d with vmp.tombs := d.vmp.tombs.filter fun r => bucketOf r.handle != b }

/-- One entry of a map applied: copying begins at PRIMARY, a bucket no longer held is dropped, a LOST bucket raises its event. -/
def applyEntry (d : Dev) (p : Nat × MapEntry) : Dev :=
  let me := memberNo d
  let old := mapOf d p.1
  let e := p.2
  let d1 := setMap { d with ring.copying := d.ring.copying.filter (· != p.1) } p.1 e
  let d2 := if e.primary = me ∧ e.incoming ≠ 255 ∧ e.incoming ≠ me ∧ (old.incoming ≠ e.incoming ∨ old.primary ≠ me) then sendCopy d1 p.1 e.incoming
    else if e.incoming ≠ 255 ∧ d.ring.copying.contains p.1 then { d1 with ring.copying := insertNat d1.ring.copying p.1 } else d1
  let d3 := if entryHolds old me && !entryHolds e me && e.incoming != me then dropBucket d2 p.1 else d2
  if e.st = 5 ∧ old.st ≠ 5 then { d3 with ring.event := setBit d3.ring.event 4 } else d3

/-- What waits on the map goes on: commands without a holder, and lock requests whose PRIMARY changed; locks of keys this member no longer orders
go (log entry 31). -/
def afterMap (d : Dev) : Dev :=
  let d1 := { d with ring.locks := d.ring.locks.filter fun l => primaryOf d l.key == memberNo d }
  wakeWhere d1 fun c => match c.wait with
    | .holder => true
    | .changeLock key => !(d1.ring.locks.any fun l => l.key == key)
    | _ => false

/-- Whether a tenant's grant was on a record that this module held. -/
def grantWasOwn (d : Dev) (n : Nat) : Bool := match (tn d n).grant with | some g => g.recs.isEmpty | none => false

/-- Grants on transferred records registered with a new PRIMARY of their bucket, and those on records that this module held until now with its PRIMARY
(R364; log entry 31). -/
def registerGrants (old d : Dev) : Dev :=
  d.tenants.foldl (fun d p => match p.2.grant with
    | some g =>
      let m := (mapOf d (bucketOf g.handle)).primary
      let told := m == (mapOf old (bucketOf g.handle)).primary && !grantWasOwn old p.1
      if g.recs.isEmpty || told || m == memberNo d || m == 255 then d else sendFrame d m (.notice g.handle)
    | none => d) d

/-- Map entries applied as version `seq` of an epoch. -/
def applyMap (d : Dev) (epoch seq : Nat) (entries : List (Nat × MapEntry)) : Dev :=
  afterMap (registerGrants d (entries.foldl applyEntry { d with ring.mapEpoch := epoch, ring.mapSeq := seq }))

/-- The entries in which a planned map differs from the map in force. -/
def changedEntries (d planned : Dev) : List (Nat × MapEntry) :=
  (allBuckets.map fun b => (b, mapOf planned b)).filter fun p => p.2 != mapOf d p.1

/-- A planned map numbered, sent to every member and applied here; `all` sends every entry. -/
def publish (d planned : Dev) (all : Bool) : Dev :=
  let l := changedEntries d planned
  let sent := if all then allBuckets.map fun b => (b, mapOf planned b) else l
  if sent.isEmpty then d
  else
    let seq := if d.ring.mapEpoch = d.ring.epoch then d.ring.mapSeq + 1 else 1
    applyMap (sendFrame d 255 (.map seq sent)) d.ring.epoch seq l

/-! ## Views (R353, R348) -/

/-- The message a view's signatures cover. -/
def viewMessage (epoch present : Nat) : Bytes := ascii [0x49, 0x57, 0x52, 0x56] ++ natLe 4 epoch ++ natLe 2 present

/-- Members of a mask that another lacks. -/
def gone (old new : Nat) : List Nat := (membersOf old).filter fun m => !bit new m

/-- The change locks that remain when members have gone: a lost holder's lock passes on, lost waiters leave. -/
def locksAfter (d : Dev) : Dev :=
  let still := fun w : Nat × Nat => bit d.ring.present w.1
  let d1 := { d with ring.locks := d.ring.locks.map fun l : ChangeLock => { l with waiters := l.waiters.filter still } }
  (d1.ring.locks.filter fun l : ChangeLock => !still l.holder).foldl (fun d l => releaseLock d l.key) d1

/-- Acknowledgements no longer awaited from members that have gone. -/
def acksAfter (d : Dev) : Dev :=
  d.ring.waitAcks.foldl (fun d w => (w.2.filter fun m => !bit d.ring.present m).foldl (fun d m => acked d w.1 m) d) d

/-- The neighbours a view gives: the nearest present members east and west (log entry 31). -/
def neighbours (d : Dev) : Dev :=
  let me := memberNo d
  let find := fun east : Bool => ((List.range 15).find? fun i => bit d.ring.present ((if east then me + 1 + i else me + 31 - i) % 16)).map
    fun i => (if east then me + 1 + i else me + 31 - i) % 16
  { d with ring.east.neighbour := (find true).getD me, ring.east.auth := true, ring.west.neighbour := (find false).getD me, ring.west.auth := true }

/-- A view in force on this member with its ring key (R353). A member absent from it leaves the ring and tries again 1 s later. -/
def adoptView (d : Dev) (epoch mask : Nat) (key : Bytes) : Dev :=
  let me := memberNo d
  if !bit mask me then
    { leaveRing (logRing d 2 (natLe 4 epoch)) with ring.retry := d.ring.st != 0x96 }
  else
    let left := gone d.ring.present mask
    let came := gone mask d.ring.present
    let d1 := { d with
      ring.epoch := epoch, ring.present := mask, ring.acting := (actingOf d mask).getD me, ring.frameCount := 0
      ring.prevKey := d.ring.ringKey, ring.ringKey := some key, ring.nextKey := none
      ring.suspects := d.ring.suspects.filter (bit mask), ring.joiners := d.ring.joiners.filter fun j => !bit mask j
      ring.leavers := d.ring.leavers.filter (bit mask), ring.loopProof := false, ring.proofHeld := false
      ring.event := d.ring.event ||| 1 ||| flag (!came.isEmpty) 2 }
    let d2 := left.foldl (fun d m => modPeer d m fun p => { p with pairKey := none, beatAt := none }) d1
    let d3 := came.foldl (fun d m => modPeer d m fun p => { p with beatAt := some (now d) }) d2
    let d4 := came.foldl (fun d m => logRing d 1 (natLe 1 m)) (logRing d3 0 (natLe 4 epoch ++ natLe 2 mask))
    gatherRestart (acksAfter (locksAfter (neighbours d4)))

/-- A view issued by this member for a set of members: signed, with a new ring key sent to each (R348, R353). An EPOCH beyond its field is a
ring-scope fault, and the ring forms again (17 R494). -/
def issueView (d : Dev) (mask : Nat) : Dev :=
  if 0xFFFFFFFF ≤ d.ring.epoch then { leaveRing (ringFault 9 (memberNo d) d) with ring.retry := true }
  else
    let d0 := drbgBefore false d
    if !drbgUp d0 then d0
    else
      let me := memberNo d0
      let r := draw d0 32
      let epoch := d0.ring.epoch + 1
      let s := signBoth r.2 (viewMessage epoch mask)
      let before := s.2.2
      let d1 := adoptView before epoch mask r.1
      let others := (membersOf mask).filter (· != me)
      let d2 := others.foldl (fun d m => sendFrame d m (.keys epoch r.1)) d1
      if others.isEmpty then d2
      else sendFrame d2 255 (.view { epoch, present := mask, signer := me, sigMldsa := s.1, sigP384 := s.2.1 })

/-- A view without lost members, and the map after their loss. -/
def issueLoss (d : Dev) (mask : Nat) : Dev :=
  let left := gone d.ring.present mask
  let d1 := issueView d mask
  if d1.ring.present = mask then publish d1 (left.foldl planLoss d1) false else d1

/-! ## Losses and the minority (R352, R354, R365) -/

/-- Members present and not suspected lost. -/
def reachable (d : Dev) : Nat := (membersOf d.ring.present).foldl (fun m i => if d.ring.suspects.contains i then m else setBit m i) 0

/-- A command outstanding at a lost member sent to the other holder of its bucket, or ended where none remains (R365, R366). -/
def reissue (m : Nat) (d : Dev) (k : Nat) : Dev :=
  let c := ctxOf d k
  let e := mapOf d (bucketOf (c.routeH.getD 0))
  let h := if e.primary = m then e.secondary else e.primary
  let d1 := modCtx d k fun c => { c with sentTo := none }
  if h = memberNo d then wake d1 k
  else if h = 255 ∨ !bit d.ring.present h ∨ d.ring.suspects.contains h then endWith d1 k stKeyUnavailable
  else if 28 ≤ outstandingAt d h then modCtx d1 k fun c => { c with wait := .holder }
  else
    let f := forwardTo { d1 with ring.reissues := holdAt 32 (d1.ring.reissues + 1) } k h (c.inputs.getD {})
    { f with ring.forwarded := d.ring.forwarded }

/-- A request for a record outstanding at a lost member asked again (R363). -/
def reask (m : Nat) (d : Dev) (k : Nat) : Dev :=
  match (ctxOf d k).wait with
  | .transfer h => if (ctxOf d k).askedAt = m then wake (modCtx d k fun c => { c with asked := c.asked.erase h }) k else d
  | _ => d

/-- This member finds itself in the minority (R354). -/
def enterParted (d : Dev) : Dev :=
  let d1 := (ctxsWhere d fun c => ctxHeld c && c.origin.isNone && c.sentTo.isSome).foldl (fun d k => endWith d k stKeyUnavailable) d
  { d1 with ring.st := 0xF0, ring.loopProof := false, ring.event := setBit d1.ring.event 6 }

/-- Who issues the view after losses: the acting anchor if it is reachable; at once also the standby that succeeds it (R353). -/
def majorityView (d : Dev) : Dev :=
  let mask := reachable d
  let me := memberNo d
  if actingOf d mask = some me ∧ (actingOf d d.ring.present = some me ∨ standbyOf d d.ring.present = some me) then issueLoss d mask else d

/-- What a member does once it has detected losses (R354). -/
def judgeLoss (d : Dev) : Dev :=
  let n := (presentMembers d).length
  let r := (membersOf (reachable d)).length
  if n < 2 * r ∨ (n = 2 * r ∧ (match actingOf d d.ring.present with | some a => bit (reachable d) a | none => false) = true) then majorityView d
  else if n = 2 * r then sendFrame { d with ring.loopProof := true, ring.proofHeld := false } (memberNo d) (.beat d.glb.pace)
  else enterParted d

/-! ## Joiners (R349, R351) -/

/-- The number under which a joiner's acknowledgement is awaited: no command has it (log entry 31). -/
def joinKey (j : Nat) : Nat := 2 ^ 63 + j

/-- The shared root slots: 0x0000 and the tenants' storage keys (R368). -/
def sharedSlots (d : Dev) : List Nat := (d.keys.root.map Prod.fst).filter fun s => s == 0 || (decide (0x1000 ≤ s) && decide (s ≤ 0x1FFF))

/-- Both banks of every shared slot, as changes. -/
def rootChanges (d : Dev) : List Change :=
  (sharedSlots d).flatMap fun s =>
    let x := rootSlot d s
    let l := [x.a, x.b].filterMap fun b => (bankContent d b).map fun content => (b, content)
    l.zipIdx.map fun p => Change.root s p.1.1.seq p.1.2 p.1.1.kcv (p.2 == 0)

/-- Every index known to have held a record, as changes (06 R150; log entry 92). -/
def usedIndexes (d : Dev) : List Change :=
  d.keys.everUsed.flatMap fun p => p.2.map fun i => Change.used (mkHandle (p.1 / 16) (p.1 % 16) i 0)

/-- What a joiner is sent once it is in the view: the shared root slots, the manifest number, the indexes used, and the order to format where the vault
is READY. -/
def welcome (d : Dev) (j : Nat) : Dev :=
  let l := rootChanges d ++ [Change.manifest d.vmp.manifestSeq] ++ usedIndexes d ++ (if d.vmp.st = 0x96 then [Change.format false] else [])
  let d1 := sendFrame d j (.replicate false (memberNo d) (joinKey j) l (bare stOk))
  { d1 with ring.waitAcks := (d1.ring.waitAcks.filter (·.1 != joinKey j)) ++ [(joinKey j, [j])] }

/-- The message a configuration's signatures cover. -/
def configMessage (cfg : Bytes) : Bytes := ascii [0x49, 0x57, 0x52, 0x43, 0x46] ++ cfg

/-- The configuration held sent to a member, or to all (255), with both signatures (R347). -/
def sendConfig (d : Dev) (dst : Nat) : Dev :=
  match d.ring.config with
  | none => d
  | some c =>
    let s := signBoth d (configMessage c)
    sendFrame s.2.2 dst (.config c s.1 s.2.1)

/-- One waiting joiner admitted by the acting anchor (R349 steps 5 and 6). -/
def admitJoiner (d : Dev) (j : Nat) : Dev :=
  if bit d.ring.present j then { d with ring.joiners := d.ring.joiners.filter (· != j) }
  else
    let mask := setBit d.ring.present j
    let d1 := issueView d mask
    if d1.ring.present = mask then
      let d2 := publish (welcome d1 j) (welcome d1 j) true
      if (peerOf d2 j).cfgSeq < (match d2.ring.config with | some c => cfgSeq c | none => 0) then sendConfig d2 j else d2
    else d1

/-- Every joiner that waits admitted in ascending number. -/
def admitAll (d : Dev) : Dev := d.ring.joiners.foldl admitJoiner d

/-- A joiner that has formatted its vault, or needed no formatting, receives its buckets, unless a load goes on (R356, R369). -/
def placeJoiner (d : Dev) (j : Nat) : Dev := if isAnchor d && d.vmp.st != 0x55 then publish d (planJoin d j) false else d

/-- This member forms the ring alone: view 1, every bucket its own (R351). -/
def formAlone (d : Dev) : Dev :=
  let d1 := issueView { d with ring.epoch := 0, ring.present := 0 } (2 ^ memberNo d)
  if d1.ring.present = 0 then d1
  else
    let d2 := { d1 with ring.st := 0x55 }
    admitAll (publish d2 (planAlone d2) true)

/-- Members that answered this member's JOIN and hold a pairwise key with it, while no ring is known. -/
def metMembers (d : Dev) : List Nat := (List.range 16).filter fun m => m != memberNo d && (peerOf d m).pairKey.isSome

/-- Whether no member met stands ahead of this one in the order of succession (R351). -/
def firstInLine (d : Dev) : Bool :=
  actingOf d ((metMembers d).foldl setBit (2 ^ memberNo d)) == some (memberNo d)

/-! ## Orderly leaves (R350) -/

/-- Whether no bucket names a member and no command forwarded to it is outstanding here (log entry 31). -/
def leaverClear (d : Dev) (m : Nat) : Bool :=
  !(d.ring.map.any fun p => entryHolds p.2 m || p.2.incoming == m) && outstandingAt d m == 0

/-- A leave confirmed: the leaver is told, and a view without it issued. -/
def confirmLeave (d : Dev) (m : Nat) : Dev :=
  let d1 := sendFrame d m (.leave true m)
  let mask := clearBits d1.ring.present (2 ^ m)
  logRing (issueView { d1 with ring.leavers := d1.ring.leavers.filter (· != m) } mask) 2 (natLe 1 m)

/-- The leaves that can be confirmed now, by the acting anchor, or for it by the standby; an acting anchor whose buckets have gone asks the standby. -/
def checkLeaves (d : Dev) : Dev :=
  let me := memberNo d
  let ready := d.ring.leavers.filter (leaverClear d)
  ready.foldl (fun d m =>
    if m = me then match standbyOf d d.ring.present with
      | some s => sendFrame { d with ring.leavers := d.ring.leavers.filter (· != me) } s (.leave false me)
      | none => d
    else confirmLeave d m) d

/-- A member's leave taken up by the acting anchor, or by the standby for the acting anchor. -/
def acceptLeave (d : Dev) (m : Nat) : Dev :=
  if bit d.ring.present m && !d.ring.leavers.contains m then
    let d1 := { d with ring.leavers := insertNat d.ring.leavers m }
    checkLeaves (if isAnchor d1 then publish d1 (planLeave d1 m) false else d1)
  else d

/-- This member begins an orderly leave; alone in its ring, it is out at once; a joiner just stops (R350). -/
def startLeave (d : Dev) : Dev :=
  let me := memberNo d
  if d.ring.st = 0x55 then
    if (presentMembers d).length ≤ 1 then leaveRing (logRing d 2 (natLe 1 me))
    else
      let d1 := { d with ring.st := 0x96 }
      if isAnchor d1 then acceptLeave d1 me else sendFrame d1 d1.ring.acting (.leave false me)
  else if d.ring.st = 0x96 then d
  else leaveRing d

/-! ## Configurations (R345 to R347) -/

/-- A configuration is well formed (R345). -/
def configForm (c : Bytes) : Bool :=
  let used := (List.range 16).filter fun i => field c (0x20 + 64 * i) 1 == i
  let serials := used.map (cfgSerial c)
  c.length == 1056 && c.take 4 == ascii [0x49, 0x57, 0x52, 0x43] && field c 4 1 == 1 && zeros c 7 1 && zeros c 0x18 8 &&
    cfgRingId c != 0 && cfgSeq c != 0 && cfgAnchor c != cfgStandby c && used.contains (cfgAnchor c) && used.contains (cfgStandby c) &&
    decide (2 ≤ used.length) && decide (serials.eraseDups.length = serials.length) &&
    (List.range 16).all fun i =>
      if field c (0x20 + 64 * i) 1 = i then zeros c (0x20 + 64 * i + 1) 7 else field c (0x20 + 64 * i) 1 == 0xFF && zeros c (0x20 + 64 * i + 1) 63

/-- Whether one entry names this module's serial, its bound chassis serial and its identity digest (R347). -/
def configNames (d : Dev) (c : Bytes) : Bool :=
  match d.bay.attach, cfgMemberOf c d.otp.serial with
  | some a, some i => cfgChassis c i == fitTo 16 a.chassis && cfgDigest c i == identityDigest (identityPublic d 1) (identityPublic d 2)
  | _, _ => false

/-- Whether the configuration held names this module: its serial, the chassis serial bound in its attachment record and its identity digest
(02 R48, R60; R347). -/
def configNamesBay (d : Dev) : Bool := match d.ring.config with | some c => configNames d c | none => false

/-- A configuration adopted; a member it no longer names leaves under its old number first (R347). -/
def adoptConfig (d : Dev) (c : Bytes) : Dev :=
  let d1 := logRing { d with ring.config := some c, ring.event := setBit d.ring.event 7 } 3 (natLe 8 (cfgSeq c))
  if (joined d || d.bay.ringJoin) && !configNames d1 c then startLeave { d1 with ring.config := d.ring.config, ring.nextConfig := some c } else d1

/-- A configuration refused. -/
def refuseConfig (d : Dev) (seq : Nat) : Dev := logRing { d with ring.event := setBit d.ring.event 7 } 4 (natLe 8 seq)

end Sys2Proof.Machine
end

