-- ==== Sys2Proof/Machine/RegWrite.lean ====
section
/-! DEFINITION. What a register write does: fields by their access codes and change classes (00 R12 to R14; 05 R141 to R144), with the rejections of
R142, for the blocks of PF BAR0 and of a VF BAR0. Reserved bits are ignored; a register not listed ignores writes. -/

namespace Sys2Proof.Machine

/-! ## The shapes of R142 -/

/-- A PF register write accepted, or rejected whole: busy first, then range (R142). -/
def accept (off : Nat) (busy outside : Bool) (f : Dev → Dev) (d : Dev) : Dev :=
  if busy then rejectPf d false off else if outside then rejectPf d true off else f d

/-- A field's value lies outside a range. -/
def outside (v lo hi : Nat) : Bool := decide (v < lo) || decide (hi < v)

/-! ## GLB (03 R78) -/

/-- A write of GLB_EVENT: bits cleared; ATTACH_CHANGE acknowledges the attention (02 R56). -/
def writeGlbEvent (w : Nat) (d : Dev) : Dev :=
  { d with glb.event := clearBits d.glb.event w, bay.attachAttention := d.bay.attachAttention && !bit w 2 }

/-- A write of GLB_CFG_REJECT: the record of the first rejection goes with it. -/
def writeGlbReject (w : Nat) (d : Dev) : Dev :=
  if bit w 0 then { d with glb.cfgReject := false, glb.cfgCause := false, glb.cfgOffset := 0 } else d

/-- A base of the admin queue pair: quiesce-only, 4 KiB aligned. `off` is the offset written, which a rejection records (R75, R78). -/
def writeAdminBase (off : Nat) (old v : Nat) (f : Qp → Nat → Qp) (d : Dev) : Dev :=
  let b := v / 4096 * 4096
  accept off (adminBusy d && b != old) false (fun d => modQp d .pf 0 fun p => f p b) d

def writeGlb (o w : Nat) (d : Dev) : Dev :=
  match o with
  | 0x1C => writeProfile w d
  | 0x30 => writeGlbEvent w d
  | 0x34 => { d with glb.eventEn := w % 2 ^ 8 }
  | 0x38 => writeGlbReject w d
  | 0x50 => writeAdminCfg w d
  | 0x54 => writeSqTail .pf 0 (w % 2 ^ 16) d
  | 0x58 => writeCqHead .pf 0 (w % 2 ^ 16) d
  | 0x60 => writeVfcfgCommit w d
  | _ => d

def writeGlb64 (o off v : Nat) (d : Dev) : Dev :=
  match o with
  | 0x40 => writeAdminBase off d.glb.admin.sqBase v (fun p b => { p with sqBase := b }) d
  | 0x48 => writeAdminBase off d.glb.admin.cqBase v (fun p b => { p with cqBase := b }) d
  | _ => d

/-! ## QM and SCH (04 R110; 05 R133) -/

def writeQm (o w : Nat) (d : Dev) : Dev :=
  match o with
  | 0x04 => accept 0x1004 false (decide (w % 2 ^ 16 < 1000) || bits w 19 16 == 0) (fun d => { d with host.rateWritten := w % 2 ^ 16, host.burstWritten := bits w 19 16 }) d
  | 0x08 => { d with host.tenantSel := w % 4096 }
  | _ => d

def writeSch (o w : Nat) (d : Dev) : Dev :=
  match o with
  | 0x0C =>
    let r := w % 8
    accept 0x200C (d.sch.pending && r != d.sch.mgmtShadow) (outside r 0 4 || outside (bits w 31 16) 20 10000)
      (fun d => { d with sch.mgmtShadow := r, sch.runLimit := bits w 31 16 }) d
  | 0x40 => { d with sch.tenantSel := w % 4096 }
  | 0xFF8 => writeCommit 2 w d
  | _ => d

/-! ## CVU (16 R466) -/

/-- A shadowed change of a unit: rejected while a commit waits. -/
def writeCvuShadow (off u : Nat) (out : Bool) (f : Cvu → Cvu) (d : Dev) : Dev :=
  accept off (d.cvu.pending && f (cvuOf d u) != cvuOf d u) out (fun d => modCvu d u f) d

/-- A quiesce-only change of a unit: rejected while a job runs. -/
def writeCvuQuiet (off u : Nat) (f : Cvu → Cvu) (d : Dev) : Dev :=
  accept off ((cvuOf d u).busy && f (cvuOf d u) != cvuOf d u) false (fun d => modCvu d u f) d

/-- A write of CVU_STATUS: DONE and ERROR cleared. -/
def clearCvu (w : Nat) (c : Cvu) : Cvu := { c with isDone := c.isDone && !bit w 1, error := c.error && !bit w 2 }

def writeCvu (u o w : Nat) (d : Dev) : Dev :=
  let off := 0x3000 + 0x100 * u + o
  match o with
  | 0x00 => writeCvuShadow off u (outside (w % 128) 1 64) (fun c => { c with widthS := w % 128, refinS := bit w 8, refoutS := bit w 9, rawS := bit w 10 }) d
  | 0x28 => writeCvuQuiet off u (fun c => { c with len := w }) d
  | 0x2C => writeCvuCtrl u w d
  | 0x30 => modCvu d u (clearCvu w)
  | _ => d

def writeCvu64 (u o off v : Nat) (d : Dev) : Dev :=
  match o with
  | 0x08 => writeCvuShadow off u false (fun c => { c with polyS := v }) d
  | 0x10 => writeCvuShadow off u false (fun c => { c with initS := v }) d
  | 0x18 => writeCvuShadow off u false (fun c => { c with xoroutS := v }) d
  | 0x20 => writeCvuQuiet off u (fun c => { c with addr := v }) d
  | _ => d

/-! ## SEN (15 R460) -/

/-- The five class fields of SEN_CLASS. -/
def classFields (w : Nat) : List Nat := (List.range 5).map fun j => bits w (2 * j + 1) (2 * j)

/-- A class field outside its range: the bezel switch L or Z, a loop W, L or Z. -/
def classOutside (l : List Nat) : Bool := decide (l.getD 0 0 < 2) || l.any (· == 0)

/-- A write of SEN_WINDOW. -/
def writeWindow (w : Nat) (d : Dev) : Dev :=
  let t := w % 256
  let n := bits w 23 8
  let e := bits w 25 24
  accept 0x4010 (d.sen.pending && (t != d.sen.thresholdShadow || n != d.sen.windowShadow || e != d.sen.escShadow))
    (outside t 2 255 || outside n 10 6000 || decide (e < 2))
    (fun d => { d with sen.thresholdShadow := t, sen.windowShadow := n, sen.escShadow := e }) d

def writeSen (o w : Nat) (d : Dev) : Dev :=
  match o with
  | 0x0C => accept 0x400C (d.sen.pending && classFields w != d.sen.clsShadow) (classOutside (classFields w)) (fun d => { d with sen.clsShadow := classFields w }) d
  | 0x10 => writeWindow w d
  | 0x20 => writeTrim w d
  | 0x24 => writeTimeAdj w d
  | 0x70 => { d with sen.event := clearBits d.sen.event w }
  | 0x74 => { d with sen.eventEn := w % 2 ^ 8 }
  | 0xFF8 => writeCommit 4 w d
  | _ => d

def writeSen64 (o v : Nat) (d : Dev) : Dev :=
  match o with
  | 0x28 => writeTimeSet v d
  | 0x58 => writeLogRelease v d
  | _ => d

/-! ## RING, VMP, LCD, ENT (12 R371; 07 R223; 14 R418; 16 R473) -/

/-- A write of RING_CFG: JOIN_EN 0 makes a joined member leave. -/
def writeRingCfg (w : Nat) (d : Dev) : Dev :=
  let r := bits w 12 8
  let f := bits w 23 16
  accept 0x5010 ((d.ring.pending && r != d.ring.replShadow) || (d.bay.ringJoin && f != d.ring.formWait)) (outside r 1 16 || outside f 1 255)
    (fun d =>
      let d1 := { d with ring.joinEn := bit w 0, ring.replShadow := r, ring.formWait := f }
      if !bit w 0 && d1.ring.st != 0x0F then startLeave d1 else d1) d

def writeRing (o w : Nat) (d : Dev) : Dev :=
  match o with
  | 0x10 => writeRingCfg w d
  | 0x34 => { d with ring.peerSel := w % 16 }
  | 0x40 => { d with ring.event := clearBits d.ring.event w }
  | 0x44 => { d with ring.eventEn := w % 2 ^ 8 }
  | 0xFF8 => writeCommit 5 w d
  | _ => d

/-- A write of VMP_CFG: MIRROR only while the vault is EMPTY (07 R190); a sweep that host software does not run takes the new rate. -/
def writeVmpCfg (w : Nat) (d : Dev) : Dev :=
  let r := bits w 12 8
  let p := bits w 31 16
  accept 0x6004 ((d.vmp.st != 0x0F && bit w 0 != d.vmp.mirrorCfg) || (d.vmp.pending && p != d.vmp.frogPeriodShadow)) (outside r 1 16 || outside p 0 8760)
    (fun d => { d with vmp.mirrorCfg := bit w 0, vmp.frogRate := r, vmp.sweepRate := if d.vmp.sweepHosted then d.vmp.sweepRate else r,
                       vmp.frogPeriodShadow := p }) d

def writeVmp (o w : Nat) (d : Dev) : Dev :=
  match o with
  | 0x04 => writeVmpCfg w d
  | 0x40 => { d with vmp.event := clearBits d.vmp.event w }
  | 0x44 => { d with vmp.eventEn := w % 2 ^ 7 }
  | 0x48 => { d with vmp.poisonSel := w % 128 }
  | 0xFF8 => writeCommit 6 w d
  | _ => d

/-- A write of LCD_CFG. -/
def writeLcdCfg (w : Nat) (d : Dev) : Dev :=
  let t := w % 2 ^ 16
  accept 0x7040 (d.lcd.pending && (t != d.lcd.ttlShadow || bit w 16 != d.lcd.remoteShadow)) (outside t 60 3600)
    (fun d => { d with lcd.ttlShadow := t, lcd.remoteShadow := bit w 16, lcd.uartStatus := bit w 17 }) d

def writeLcd (o w : Nat) (d : Dev) : Dev :=
  match o with
  | 0x30 => { d with lcd.sessionSel := w % 8 }
  | 0x40 => writeLcdCfg w d
  | 0x44 => { d with lcd.event := clearBits d.lcd.event w }
  | 0x48 => { d with lcd.eventEn := w % 2 ^ 5 }
  | 0xFF8 => writeCommit 7 w d
  | _ => d

def writeEnt (o w : Nat) (d : Dev) : Dev :=
  match o with
  | 0x04 => accept 0x8004 (d.ent.pending && w % 8 != d.ent.minShadow) (outside (w % 8) 2 4) (fun d => { d with ent.minShadow := w % 8 }) d
  | 0x08 => writeEntCtrl w d
  | 0x20 => { d with ent.event := clearBits d.ent.event w }
  | 0x24 => { d with ent.eventEn := w % 2 ^ 3 }
  | 0xFF8 => writeCommit 8 w d
  | _ => d

/-! ## VFCFG (03 R79, R80) -/

/-- Whether QP_COUNT of a tenant is busy: an enabled queue pair, or a command in flight. -/
def qpCountBusy (d : Dev) (n : Nat) : Bool := (tn d n).qps.any (fun p => p.2.enable) || decide (0 < inflightOf d (.vf n))

/-- A write of the first word of tenant n's entry. -/
def writeVfcfg0 (n w : Nat) (d : Dev) : Dev :=
  let t := tn d n
  let q := bits w 7 4
  accept (0x10000 + 16 * n)
    ((d.glb.vfCommitPending && (bit w 0 != t.enableShadow || bit w 1 != t.lockAllowedShadow)) || (q != t.qpCount && qpCountBusy d n))
    (outside q 2 8 || decide (16384 < qpAllocated d - t.qpCount + q))
    (fun d => modTn d n fun t => { t with enableShadow := bit w 0, lockAllowedShadow := bit w 1, qpCount := q }) d

/-- A write of CREDIT_WEIGHT, 1 to 65,535. -/
def writeVfcfg4 (n w : Nat) (d : Dev) : Dev :=
  accept (0x10000 + 16 * n + 4) (d.glb.vfCommitPending && w % 2 ^ 16 != (tn d n).weightShadow) (w % 2 ^ 16 == 0)
    (fun d => modTn d n fun t => { t with weightShadow := w % 2 ^ 16 }) d

def writeVfcfg (n o w : Nat) (d : Dev) : Dev :=
  match o with
  | 0x0 => writeVfcfg0 n w d
  | 0x4 => writeVfcfg4 n w d
  | _ => d

/-! ## MSI-X tables (03 R77) -/

def writeMsix (fn : Fn) (v o w : Nat) (d : Dev) : Dev :=
  match o with
  | 0x8 => setVector d fn v { vectorOf d fn v with data := w }
  | 0xC => releaseVector (setVector d fn v { vectorOf d fn v with masked := bit w 0 }) fn v
  | _ => d

def writeMsix64 (fn : Fn) (v o x : Nat) (d : Dev) : Dev := if o = 0 then setVector d fn v { vectorOf d fn v with addr := x / 4 * 4 } else d

/-! ## A VF's registers (03 R81; 04 R92) -/

/-- A VF register write accepted, or rejected whole. -/
def acceptVf (n : Nat) (bad : Bool) (f : Dev → Dev) (d : Dev) : Dev := if bad then rejectVf d n else f d

/-- A write of VF_ENG_LOCK. -/
def writeLock (n w : Nat) (d : Dev) : Dev :=
  let d1 := if bit w 0 then writeLockRequest n d else d
  if bit w 1 then writeLockRelease n d1 else d1

def writeVfBlock (n o w : Nat) (d : Dev) : Dev :=
  match o with
  | 0x28 => writeLock n w d
  | 0x30 => modTn d n fun t => { t with event := clearBits t.event w }
  | 0x34 => modTn d n fun t => { t with eventEn := w % 2 ^ 6, eventVector := bits w 17 16 }
  | _ => d

/-- A write of VF_ENG_LOCK_KEY, busy from a REQUEST until the lock ends. -/
def writeVfBlock64 (n o v : Nat) (d : Dev) : Dev :=
  if o = 0x20 then
    acceptVf n (((tn d n).lockReq || (tn d n).grant.isSome) && v != (tn d n).lockKey) (fun d => modTn d n fun t => { t with lockKey := v }) d
  else d

/-- A base of a queue pair. -/
def writeQpBase (n q old v : Nat) (f : Qp → Nat → Qp) (d : Dev) : Dev :=
  let b := v / 4096 * 4096
  acceptVf n (qpBusy (qpOf d (.vf n) q) && b != old) (fun d => modQp d (.vf n) q fun p => f p b) d

def writeQp (n q o w : Nat) (d : Dev) : Dev :=
  match o with
  | 0x10 => writeQpCfg n q w d
  | 0x14 => modQp d (.vf n) q fun p => { p with count := w % 2 ^ 8, time := bits w 23 8 }
  | 0x18 => writeSqTail (.vf n) q (w % 2 ^ 16) d
  | 0x1C => writeCqHead (.vf n) q (w % 2 ^ 16) d
  | 0x20 => modQp d (.vf n) q fun p => { p with doorbellErr := p.doorbellErr && !bit w 18, fetchErr := p.fetchErr && !bit w 19 }
  | _ => d

def writeQp64 (n q o v : Nat) (d : Dev) : Dev :=
  match o with
  | 0x00 => writeQpBase n q (qpOf d (.vf n) q).sqBase v (fun p b => { p with sqBase := b }) d
  | 0x08 => writeQpBase n q (qpOf d (.vf n) q).cqBase v (fun p b => { p with cqBase := b }) d
  | _ => d

/-! ## A function's registers -/

/-- A write of a 32-bit register of PF BAR0. -/
def writePf32 (off w : Nat) (d : Dev) : Dev :=
  let o := off % 0x1000
  if 0x10000 ≤ off ∧ off < 0x20000 then writeVfcfg ((off - 0x10000) / 16) (off % 16) w d
  else match off / 0x1000 with
    | 0x00 => writeGlb o w d
    | 0x01 => writeQm o w d
    | 0x02 => writeSch o w d
    | 0x03 => if o < 0x400 then writeCvu (o / 0x100) (o % 0x100) w d else if o = 0xFF8 then writeCommit 3 w d else d
    | 0x04 => writeSen o w d
    | 0x05 => writeRing o w d
    | 0x06 => writeVmp o w d
    | 0x07 => writeLcd o w d
    | 0x08 => writeEnt o w d
    | 0x20 => if o < 0x400 then writeMsix .pf (o / 16) (o % 16) w d else d
    | _ => d

/-- A write of a 64-bit register of PF BAR0, by an access at `at'`. -/
def writePf64 (off at' v : Nat) (d : Dev) : Dev :=
  let o := off % 0x1000
  match off / 0x1000 with
  | 0x00 => writeGlb64 o at' v d
  | 0x03 => if o < 0x400 then writeCvu64 (o / 0x100) (o % 0x100) at' v d else d
  | 0x04 => writeSen64 o v d
  | 0x20 => if o < 0x400 then writeMsix64 .pf (o / 16) (o % 16) v d else d
  | _ => d

/-- A write of a 32-bit register of VF n's BAR0. -/
def writeVf32 (n off w : Nat) (d : Dev) : Dev :=
  let o := off % 0x1000
  match off / 0x1000 with
  | 0 => writeVfBlock n o w d
  | 1 => if qpExists d (.vf n) (o / 0x100) then writeQp n (o / 0x100) (o % 0x100) w d else d
  | 2 => if o < 0x40 then writeMsix (.vf n) (o / 16) (o % 16) w d else d
  | _ => d

/-- A write of a 64-bit register of VF n's BAR0. -/
def writeVf64 (n off v : Nat) (d : Dev) : Dev :=
  let o := off % 0x1000
  match off / 0x1000 with
  | 0 => writeVfBlock64 n o v d
  | 1 => if qpExists d (.vf n) (o / 0x100) then writeQp64 n (o / 0x100) (o % 0x100) v d else d
  | 2 => if o < 0x40 then writeMsix64 (.vf n) (o / 16) (o % 16) v d else d
  | _ => d

/-- A write of a 64-bit register whole, by an access at `at'`. -/
def writeReg64 (fn : Fn) (off at' v : Nat) (d : Dev) : Dev := match fn with | .pf => writePf64 off at' v d | .vf n => writeVf64 n off v d

/-- A 32-bit write at a 4-byte aligned offset: one half of a 64-bit register, the other as it reads, or a register of its own (03 R75). -/
def writeWord (fn : Fn) (off w : Nat) (d : Dev) : Dev :=
  match reg64 d fn (off / 8 * 8) with
  | some v => if off % 8 = 0 then writeReg64 fn off off (v / 2 ^ 32 * 2 ^ 32 + w) d else writeReg64 fn (off - 4) off (2 ^ 32 * w + v % 2 ^ 32) d
  | none => match fn with | .pf => writePf32 off w d | .vf n => writeVf32 n off w d

/-- A 64-bit write at an 8-byte aligned offset: one register, or two in order (03 R75). -/
def writePair (fn : Fn) (off v : Nat) (d : Dev) : Dev :=
  match reg64 d fn off with
  | some _ => writeReg64 fn off off v d
  | none => writeWord fn (off + 4) (v / 2 ^ 32 % 2 ^ 32) (writeWord fn off (v % 2 ^ 32) d)

end Sys2Proof.Machine
end

