-- ==== Sys2Proof/Machine/AccessTable.lean ====
section
/-! DEFINITION. The interconnect access table (13): each access decided by class, address and kind, denials, the register image and the table's own
registers behind it, the claim, updates, and the host's and the internal initiators' register accesses (03 R75). -/

namespace Sys2Proof.Machine

/-! ## Entries as 128-bit words (R380) -/

/-- An entry's 128 bits. -/
def entryBits (e : ActEntry) : Nat :=
  e.base + 2 ^ 34 * e.last + 2 ^ 68 * e.mask + flag e.r 84 + flag e.w 85 + flag e.x 86 + flag e.valid 87 + flag e.lock 88 + flag e.prot 89 + 2 ^ 90 * e.resv

/-- The entry of 128 bits. -/
def entryOfBits (v : Nat) : ActEntry :=
  { base := v % 2 ^ 34, last := v / 2 ^ 34 % 2 ^ 34, mask := v / 2 ^ 68 % 2 ^ 16, r := bit v 84, w := bit v 85, x := bit v 86, valid := bit v 87,
    lock := bit v 88, prot := bit v 89, resv := v / 2 ^ 90 % 2 ^ 38 }

/-! ## The pieces of a request (R384) -/

/-- The first bytes of the pieces of a request; `fuel` bounds them. -/
def pieces : (fuel : Nat) → (addr left : Nat) → List Nat
  | 0, _, _ => []
  | f + 1, addr, left => if left = 0 then [] else
    let n := min left (64 - addr % 64)
    addr :: pieces f (addr + n) (left - n)

/-- The first piece of a request that is denied, with whether a PROTECTED entry decided it. -/
def deniedPiece (d : Dev) (cls addr bytes : Nat) (kind : Access) : Option (Nat × Bool) :=
  ((pieces (bytes + 1) addr (max 1 bytes)).find? fun a => !(decideAccess d cls a kind).1).map fun a => (a, (decideAccess d cls a kind).2)

/-! ## Denials (R386, R387) -/

/-- A kind of access as log entries number it. -/
def kindNo : Access → Nat
  | .read => 0
  | .write => 1
  | .fetch => 2

/-- A denial entry (15 R454 TYPE 0x0033; packing: log entry 16). -/
def logDenial (d : Dev) (cls addr : Nat) (kind : Access) (fn omitted : Nat) : Dev :=
  submit d 0x0033 0 10 fn (natLe 1 cls ++ natLe 8 addr ++ natLe 1 (kindNo kind) ++ natLe 4 omitted)

/-- The time of a function's last logged denial on unprotected addresses and the count omitted since. -/
def hostDeny (d : Dev) : Fn → Option Nat × Nat
  | .pf => (d.host.hostDenyAt, d.host.hostDenyOmitted)
  | .vf n => ((tn d n).hostDenyAt, (tn d n).hostDenyOmitted)

/-- That record replaced. -/
def setHostDeny (d : Dev) (fn : Fn) (at' : Option Nat) (omitted : Nat) : Dev :=
  match fn with
  | .pf => { d with host.hostDenyAt := at', host.hostDenyOmitted := omitted }
  | .vf n => modTn d n fun t => { t with hostDenyAt := at', hostDenyOmitted := omitted }

/-- A HOST denial on an unprotected address: logged at most once per millisecond for each function. -/
def logHostDenial (d : Dev) (fn : Fn) (addr : Nat) (kind : Access) : Dev :=
  let r := hostDeny d fn
  let again := match r.1 with | some t => decide (now d < t + 1000) | none => false
  if again then setHostDeny d fn r.1 (holdAt 32 (r.2 + 1))
  else logDenial (setHostDeny d fn (some (now d)) 0) 4 addr kind (fnCode fn) r.2

/-- A denial counted, logged and reported to the sentinel. -/
def denial (d : Dev) (cls addr : Nat) (kind : Access) (fn : Fn) (prot : Bool) : Dev :=
  let d1 := { d with act.denyCount := d.act.denyCount + 1 }
  let d2 := if cls = 4 ∧ !prot then logHostDenial d1 fn addr kind
    else logDenial d1 cls addr kind (if cls = 4 then fnCode fn else match fn with | .vf n => n | .pf => 0xFFFE) 0
  if cls = 11 ∨ prot then alarm d2 17 clsL 0 0 else d2

/-- The error response to an internal initiator, and its containment: the task's command, or a module-scope fault of the initiator, with the denied address (17 R486). -/
def contain (d : Dev) (cls ctx addr : Nat) : Dev :=
  let sub := if cls = 7 then 5 else if cls = 8 then 8 else if cls = 9 then 15 else if cls = 10 then 12 else 4
  if cls = 4 ∨ cls = 11 then d
  else
    let d1 := emit d (.errorResponse cls)
    if cls = 2 ∨ cls = 3 then raiseFault { scope := 0, cause := 3, subsystem := 10, unit := 0xFF, object := ctx, detail := addr, inHandler := none } d1
    else if cls = 5 ∨ cls = 6 then
      if ctxHeld (ctxOf d ctx) then raiseFault { scope := 0, cause := 3, subsystem := if cls = 5 then 2 else 14, unit := 0xFF, object := ctx, detail := addr, inHandler := none } d1 else d1
    else raiseFault { scope := 3, cause := 3, subsystem := sub, unit := 0xFF, object := sub, detail := addr, inHandler := if cls = 1 then some ctx else none } d1

/-! ## The claim (R388, R389) -/

/-- The staged copy equal to the entries in force, and the claim free. -/
def freeClaim (d : Dev) : Dev := { d with act.claim := none, act.stage := d.act.entries }

/-- A task reads ACT_CLAIM: it takes a free claim. -/
def readClaim (k : Nat) (d : Dev) : Nat × Dev :=
  match d.act.claim with
  | some h => (2 ^ 8 * h, d)
  | none => (1 + 2 ^ 8 * k, { d with act.claim := some k })

/-- Whether a staged entry may not be installed. -/
def stageBad (e : ActEntry) : Bool := decide (e.last < e.base) || e.resv != 0 || e.lock

/-- The staged entries 32 to 255 are accepted as a whole. -/
def stageOk (d : Dev) : Bool := d.act.stage.all fun p => decide (p.1 < 32) || !stageBad p.2

/-- A refusal under R386 of a write by a task that may not make it. -/
def claimError (k o : Nat) (d : Dev) : Dev := contain d 2 k (0x44000000 + o)

/-- GO by task k: rejected, or the table CLOSED (R390). -/
def updateGo (k : Nat) (d : Dev) : Dev :=
  if d.act.claim ≠ some k then claimError k 8 d
  else if d.act.st ≠ 0x0F then d
  else if stageOk d then { d with act.st := 0x33 }
  else freeClaim { d with act.result := 2 }

/-- ABANDON by task k. -/
def updateAbandon (k : Nat) (d : Dev) : Dev :=
  if d.act.claim ≠ some k then claimError k 8 d else if d.act.st ≠ 0x0F then d else freeClaim d

/-! ## The table's own registers (R388) -/

/-- A 32-bit word of an entry. -/
def entryWord (e : ActEntry) (o : Nat) : Nat := entryBits e / 2 ^ (8 * o) % 2 ^ 32

/-- What a register of the table reads, ACT_CLAIM apart. -/
def actRead (d : Dev) (o : Nat) : Nat :=
  if o = 0 then d.act.st
  else if o = 8 then 2 ^ 8 * d.act.result
  else if o = 0x10 then d.act.denyCount % 2 ^ 32
  else if o = 0x14 then d.act.denyCount / 2 ^ 32 % 2 ^ 32
  else if 0x1000 ≤ o ∧ o < 0x2000 then entryWord (actEntry d ((o - 0x1000) / 16)) (o % 16)
  else if 0x2000 ≤ o ∧ o < 0x3000 then entryWord (actStage d ((o - 0x2000) / 16)) (o % 16)
  else 0

/-- A word of a staged entry written by task k. -/
def writeStage (k e o w : Nat) (d : Dev) : Dev :=
  if d.act.claim ≠ some k ∨ e < 32 then claimError k (0x2000 + 16 * e + o) d
  else
    let v := entryBits (actStage d e)
    let x := v - v / 2 ^ (8 * o) % 2 ^ 32 * 2 ^ (8 * o) + w * 2 ^ (8 * o)
    { d with act.stage := tabPut {} d.act.stage e (entryOfBits x) }

/-- A write of a register of the table by task k. -/
def actWrite (k o w : Nat) (d : Dev) : Dev :=
  if o = 8 then
    if bit w 0 then updateGo k d else if bit w 1 then updateAbandon k d else d
  else if 0x2000 ≤ o ∧ o < 0x3000 then writeStage k ((o - 0x2000) / 16) (o % 16) w d
  else d

/-! ## Targets -/

/-- The register image an internal address lies in: PF BAR0, or a VF's (R377, R378). -/
def imageOf (addr : Nat) : Option (Fn × Nat) :=
  if 0x10000000 ≤ addr ∧ addr < 0x10100000 then some (.pf, addr - 0x10000000)
  else if 0x20000000 ≤ addr ∧ addr < 0x30000000 then some (.vf ((addr - 0x20000000) / 0x10000), addr % 0x10000)
  else none

/-- The internal address of a host access (R377, R378). -/
def imageAddr (fn : Fn) (off : Nat) : Nat :=
  match fn with
  | .pf => 0x10000000 + off
  | .vf n => 0x20000000 + 0x10000 * n + off

/-- A naturally aligned access of a register's size (03 R75). -/
def regShape (off bytes : Nat) : Bool := (bytes == 4 || bytes == 8) && off % bytes == 0

/-- The upper half of a function's time latched by a 32-bit read of the lower half. -/
def latchTime (fn : Fn) (off bytes : Nat) (d : Dev) : Dev :=
  if bytes = 4 ∧ off = timeOffset fn then
    match fn with
    | .pf => { d with glb.timeLatch := now d / 2 ^ 32 }
    | .vf n => modTn d n fun t => { t with timeLatch := now d / 2 ^ 32 }
  else d

/-- Undefined codes that a read of VMP_STATUS meets in FROG_STATE and STATE (07 R208, R223; 15 R450). -/
def meetCodes (fn : Fn) (off : Nat) (d : Dev) : Dev :=
  if fn = .pf ∧ off = 0x6000 then
    let d1 := if frogKnown d.vmp.frog then d else invalidCode d 5 d.vmp.frog clsL
    if vaultKnown d1.vmp.st then d1 else invalidCode d1 6 d1.vmp.st clsL
  else d

/-- A register read of a function's image. -/
def readImage (fn : Fn) (off bytes : Nat) (d : Dev) : Nat × Dev :=
  if regShape off bytes then (if bytes = 8 then readPair d fn off else readWord d fn off, meetCodes fn off (latchTime fn off bytes d)) else (0, d)

/-- A register write of a function's image. -/
def writeImage (fn : Fn) (off bytes v : Nat) (d : Dev) : Dev :=
  if regShape off bytes then (if bytes = 8 then writePair fn off v d else writeWord fn off (v % 2 ^ 32) d) else d

/-- A read of the table's registers by a task. -/
def readTable (k o bytes : Nat) (d : Dev) : Nat × Dev :=
  if !regShape o bytes then (0, d)
  else if o = 4 ∧ bytes = 4 then readClaim k d
  else if o = 0 ∧ bytes = 8 then
    let r := readClaim k d
    (actRead d 0 + 2 ^ 32 * r.1, r.2)
  else (actRead d o + if bytes = 8 then 2 ^ 32 * actRead d (o + 4) else 0, d)

/-- A write of the table's registers by a task. -/
def writeTable (k o bytes v : Nat) (d : Dev) : Dev :=
  if !regShape o bytes then d
  else if bytes = 8 then actWrite k (o + 4) (v / 2 ^ 32 % 2 ^ 32) (actWrite k o (v % 2 ^ 32) d)
  else actWrite k o (v % 2 ^ 32) d

/-- A permitted internal access: the register image, the table's registers, or a memory whose contents the model does not hold, which reads a
free value and takes no write (log entry 4). -/
def performInternal (cls ctx addr bytes : Nat) (kind : Access) (v : Nat) (d : Dev) : Dev :=
  match kind with
  | .fetch => d
  | .read =>
    let r := match imageOf addr with
      | some x => readImage x.1 x.2 bytes d
      | none => if 0x44000000 ≤ addr ∧ addr < 0x44010000 then readTable ctx (addr - 0x44000000) bytes d else (Config.freeNat 12 addr % 2 ^ (8 * bytes), d)
    emit r.2 (.internalData cls r.1)
  | .write =>
    match imageOf addr with
    | some x => writeImage x.1 x.2 bytes v d
    | none => if 0x44000000 ≤ addr ∧ addr < 0x44010000 then writeTable ctx (addr - 0x44000000) bytes v d else d

/-! ## Accesses -/

/-- Whether a host access finds its function: the link is up, the function exists, and the register window holds the offset. -/
def hostReaches (d : Dev) (fn : Fn) (off : Nat) : Bool :=
  fnExists d fn && match fn with | .pf => decide (off < 0x100000) | .vf _ => decide (off < 0x10000)

/-- A host access checked and performed; a read always completes. -/
def hostAccess (fn : Fn) (write : Bool) (off bytes v : Nat) (en : Bool) (d : Dev) : Dev :=
  let kind : Access := if write then .write else .read
  match deniedPiece d 4 (imageAddr fn off) bytes kind with
  | some p =>
    let d1 := denial d 4 p.1 kind fn p.2
    if write then d1 else emit d1 (.readData fn 0)
  | none =>
    if write then (if en then writeImage fn off bytes v d else d)
    else
      let r := if en then readImage fn off bytes d else (0, d)
      emit r.2 (.readData fn r.1)

/-- The function whose command an internal initiator serves. -/
def fnOfClass (d : Dev) (cls ctx : Nat) : Fn := if cls = 2 ∨ cls = 3 then (ctxOf d ctx).fn else .pf

/-- An internal access checked and performed. -/
def internalAccess (cls ctx addr bytes : Nat) (kind : Access) (v : Nat) (d : Dev) : Dev :=
  match deniedPiece d cls addr bytes kind with
  | some p =>
    let d1 := contain (denial d cls p.1 kind (fnOfClass d cls ctx) p.2) cls ctx p.1
    if cls = 11 ∧ kind = .read then emit d1 (.internalData 11 0) else d1
  | none => performInternal cls ctx addr bytes kind v d

/-- Whether the initiator of an internal access exists: a class some port carries; for a task its context, running at the class's level. -/
def initiatorUp (d : Dev) (cls ctx : Nat) : Bool :=
  let c := ctxOf d ctx
  if cls = 2 then c.code == csRunning && decide (c.level ≤ 1) else if cls = 3 then c.code == csRunning && decide (2 ≤ c.level) else decide (cls < 12)

/-- An access made now. -/
def performAccess (a : RegAccess) (d : Dev) : Dev :=
  match a with
  | .host fn write off bytes v en => if hostReaches d fn off then hostAccess fn write off bytes v en d else d
  | .internal cls ctx addr bytes kind v => if initiatorUp d cls ctx then internalAccess cls ctx addr bytes kind v d else d
  | .config fn write off v => configAccess fn write off v d

/-- The waiting accesses made in order of arrival. -/
def serveWaiting (d : Dev) : Dev := d.act.waiting.foldl (fun d a => performAccess a d) { d with act.waiting := [] }

/-- An access that arrives: it waits while the table is CLOSED (R390); those that waited when the module fail-stopped come before it (R392). -/
def arriveAccess (a : RegAccess) (d : Dev) : Dev :=
  if !d.bay.fabric then d
  else if d.act.st = 0x33 then { d with act.waiting := d.act.waiting ++ [a] }
  else performAccess a (serveWaiting d)

/-- The module's waiting host-memory accesses checked again, in order. -/
def serveDma (d : Dev) : Dev :=
  let ok := d.act.dma.filter fun p => (decideAccess d p.1 hostWindow (match p.2 with | .hostRead .. => .read | _ => .write)).1
  { d with out := d.out ++ ok.map Prod.snd, act.dma := [] }

/-- The table OPEN again: the waiting accesses made under it. -/
def reopen (d : Dev) : Dev := serveWaiting (serveDma { d with act.st := 0x0F })

/-! ## Meanings -/

/-- REGISTER_WRITE (05 R142; 03 R75; 13 R381 to R387): an access of the host or of an internal initiator; or a configuration request, which the
access table does not see (03 R68 to R70). -/
def registerWriteEff (a : RegAccess) (d : Dev) : Dev :=
  match a with
  | .config fn write off v => configAccess fn write off v d
  | _ => arriveAccess a d
def execRegisterWrite (a : RegAccess) (s : State) := s.onDev (registerWriteEff a)

/-- GLB_TIME_LOW_READ (03 R75, R78): a 32-bit read of the lower half of GLB_TIME or VF_TIME. -/
def glbTimeLowReadEff (fn : Fn) (d : Dev) : Dev := arriveAccess (.host fn false (timeOffset fn) 4 0 true) d
def execGlbTimeLowRead (fn : Fn) (s : State) := s.onDev (glbTimeLowReadEff fn)

/-- ACT_CLAIM_READ (R388): a read of ACT_CLAIM by the task of context k. -/
def actClaimReadEff (k : Nat) (d : Dev) : Dev := arriveAccess (.internal (if (ctxOf d k).level ≤ 1 then 2 else 3) k 0x44000004 4 .read 0) d
def execActClaimRead (k : Nat) (s : State) := s.onDev (actClaimReadEff k)

/-- ACT_UPDATE_GO (R389, R390): a write of GO by the task of context k. -/
def actUpdateGoEff (k : Nat) (d : Dev) : Dev := arriveAccess (.internal (if (ctxOf d k).level ≤ 1 then 2 else 3) k 0x44000008 4 .write 1) d
def execActUpdateGo (k : Nat) (s : State) := s.onDev (actUpdateGoEff k)

/-- ACT_UPDATE_ABANDON (R389): a write of ABANDON by the task of context k. -/
def actUpdateAbandonEff (k : Nat) (d : Dev) : Dev := arriveAccess (.internal (if (ctxOf d k).level ≤ 1 then 2 else 3) k 0x44000008 4 .write 2) d
def execActUpdateAbandon (k : Nat) (s : State) := s.onDev (actUpdateAbandonEff k)

/-- ACT_DRAIN_DONE (R390): the staged entries take force in one step, and the waiting accesses are checked under them. -/
def actDrainDoneEff (d : Dev) : Dev :=
  if d.act.st = 0x33 then reopen { d with act.entries := d.act.stage, act.result := 1, act.claim := none } else d
def execActDrainDone (s : State) := s.onDev actDrainDoneEff

/-- ACT_DRAIN_TIMEOUT (R391): the update abandoned and logged, the access that did not complete an interface stall. -/
def actDrainTimeoutEff (d : Dev) : Dev :=
  if d.act.st = 0x33 then
    let d1 := logDenial { d with act.result := 3, act.claim := none, act.stage := d.act.entries } 0xFF 0 .write 0xFFFE 0
    raiseFault { scope := 3, cause := 5, subsystem := 10, unit := 0xFF, object := 10, detail := 0, inHandler := none } (reopen d1)
  else d
def execActDrainTimeout (s : State) := s.onDev actDrainTimeoutEff

end Sys2Proof.Machine
end

