-- ==== Sys2Proof/Machine/Start.lean ====
section
/-! DEFINITION. The life-cycle word and its wipes (14 R395 to R398), and a start of the fabric (18 R499): reset values, roll-forward, entropy,
the keeper buffer's move, the root store, the choice of an image (05 R137 to R140), the firmware's start-up work. -/

namespace Sys2Proof.Machine

/-! ### The life-cycle word (R395 to R397) -/

/-- The INTENT and DONE groups of transition t. -/
def lcIntent (w t : Nat) : Nat := bits w (16 * t + 7) (16 * t)
def lcDone (w t : Nat) : Nat := bits w (16 * t + 15) (16 * t + 8)

/-- Whether the word is invalid (R397). -/
def lcInvalid (w : Nat) : Bool :=
  (List.range 5).any (fun t => lcDone w t != 0 && lcIntent w t == 0) ||
    [1, 2, 3].any (fun t => lcIntent w t != 0 && lcDone w (t - 1) != 255) ||
    decide (2 ≤ ((List.range 4).filter fun t => lcIntent w t != 0 && lcDone w t != 255).length)

/-- The transition that a start completes (R396). -/
def lcPending (w : Nat) : Option Nat := [4, 0, 1, 2, 3].find? fun t => lcIntent w t != 0 && lcDone w t != 255

/-- The state code a transition leads to (R393). -/
def lcTarget (t : Nat) : Nat := [0x33, 0x55, 0x96, 0x3C, 0xF0].getD t 0x0F

/-- The state that a word fixes: the target of its highest full transition. -/
def lcStateOf (w : Nat) : Nat := match [4, 3, 2, 1, 0].find? (fun t => lcDone w t == 255) with | some t => lcTarget t | none => 0x0F

/-- The word with INTENT, or DONE, of transition t programmed full. -/
def setIntent (w t : Nat) : Nat := w ||| 0xFF * 2 ^ (16 * t)
def setDone (w t : Nat) : Nat := w ||| 0xFF * 2 ^ (16 * t + 8)

/-! ### Wipes (R398) -/

/-- The root store erased. -/
def eraseRoot (d : Dev) : Dev := { d with keys.root := [], keys.floor := 0, keys.floorSpent := false, glb.rootOk := false }

/-- What the journal flash keeps beside the firmware slots and the event log, erased: the sealed tenant configuration with what lies under
the same seal, the attachment record, and the configurations as first set. -/
def eraseJournal (d : Dev) : Dev :=
  { d with
    tenants := [], keys.stash := none, keys.everUsed := [], bay.attach := none, keeper.trim := 0
    vmp.mirrorCfg := false, vmp.frogRate := 8, vmp.frogPeriod := 24, vmp.frogPeriodShadow := 24, vmp.manifestSeq := 0
    ring.config := none, ring.joinEn := true, ring.replRate := 4, ring.replShadow := 4, ring.formWait := 10, ring.clockFloor := 0
    lcd.ttl := 600, lcd.ttlShadow := 600, lcd.remoteEn := false, lcd.remoteShadow := false, lcd.uartStatus := true
    sen.cls := [2, 2, 2, 2, 2], sen.clsShadow := [2, 2, 2, 2, 2], sen.threshold := 8, sen.window := 1000, sen.esc := 2
    sen.thresholdShadow := 8, sen.windowShadow := 1000, sen.escShadow := 2, ent.minSources := 2, ent.minShadow := 2
    mnt.activeB := false, mnt.trial := false, mnt.tried := false }

/-- The event log erased. -/
def eraseLog (d : Dev) : Dev :=
  { d with sen.log := [], sen.nextSeq := 0, sen.oldest := 0, sen.lastChain := zeroBytes 16, sen.base := zeroBytes 16, sen.lost := 0,
           sen.full := false }

/-- The firmware slots erased. -/
def eraseSlots (d : Dev) : Dev := { d with mnt.slotA := none, mnt.slotB := none }

/-- The wipe of transition t (R398). -/
def wipe (t : Nat) (d : Dev) : Dev :=
  match t with
  | 0 => eraseSlots (eraseLog (eraseJournal (eraseRoot d)))
  | 1 => eraseLog (eraseJournal (eraseRoot (zeroiseKeeper { d with otp.jtagFuse := 0xFF, otp.fieldsLocked := true })))
  | 3 => eraseJournal (eraseRoot (zeroiseKeeper d))
  | 4 => { eraseSlots (eraseLog (eraseJournal (eraseRoot (zeroiseKeeper d)))) with otp.trimDestroyed := true }
  | _ => d

/-- A life-cycle entry of the log: transition, target, rolled forward (15 R454 TYPE 0x0020). -/
def logLifeCycle (d : Dev) (t : Nat) (rolled : Bool) : Dev :=
  submit d 0x0020 0 11 0xFFFE (natLe 1 t ++ natLe 1 (lcTarget t) ++ natLe 1 (if rolled then 1 else 0))

/-- Transition t completed: INTENT full, wipe, DONE full (R396, R401). -/
def completeTransition (t : Nat) (d : Dev) : Dev :=
  let d1 := wipe t { d with otp.lcWord := setIntent d.otp.lcWord t }
  { d1 with otp.lcWord := setDone d1.otp.lcWord t }

/-! ### The fabric in reset: what a start or a loss of main power leaves -/

/-- A tenant as the sealed configuration keeps it (03 R80, 04 R117). -/
def keptTenant (t0 : Tenant) : Tenant :=
  let t := takePolicy t0
  { enable := t.enable, enableShadow := t.enable, lockAllowed := t.lockAllowed, lockAllowedShadow := t.lockAllowed, weight := t.weight,
    weightShadow := t.weight, qpCount := t.qpCount, policySet := t.policySet, maxPrio := t.maxPrio, contextCap := t.contextCap,
    classMask := t.classMask, groupMask := t.groupMask }

/-- Every tenant as kept. -/
def keptTenants (l : Tab Tenant) : Tab Tenant := l.foldl (fun tab p => tabPut {} tab p.1 (keptTenant p.2)) []

/-- Every block of the fabric at its reset values; OTP, the keeper, the root store, journal flash and the bay keep theirs (01, table of where things live). -/
def coldState (d : Dev) : Dev :=
  { d with
    glb := resetGlb, host := resetHost, tenants := keptTenants d.tenants, sch := resetSch, eng := resetEng, act := resetAct, cvu := resetCvu
    flt := resetFlt
    keys := { resetKeys with root := d.keys.root, everUsed := d.keys.everUsed, stash := d.keys.stash }
    vmp := { resetVmp with mirrorCfg := d.vmp.mirrorCfg, frogRate := d.vmp.frogRate, sweepRate := d.vmp.frogRate, frogPeriod := d.vmp.frogPeriod,
                           frogPeriodShadow := d.vmp.frogPeriod, manifestSeq := d.vmp.manifestSeq }
    ring := { resetRing with config := if d.ring.nextConfig.isSome then d.ring.nextConfig else d.ring.config, joinEn := d.ring.joinEn, replRate := d.ring.replRate, replShadow := d.ring.replRate,
                             formWait := d.ring.formWait, clockFloor := d.ring.clockFloor }
    lcd := { resetLcd with st := d.lcd.st, ttl := d.lcd.ttl, ttlShadow := d.lcd.ttl, remoteEn := d.lcd.remoteEn, remoteShadow := d.lcd.remoteEn,
                           uartStatus := d.lcd.uartStatus,
                           cards := d.lcd.cards.map fun c => { present := c.present, serial := c.serial, classB := c.classB } }
    sen := { resetSen with cls := d.sen.cls, clsShadow := d.sen.cls, threshold := d.sen.threshold, window := d.sen.window, esc := d.sen.esc,
                           thresholdShadow := d.sen.threshold, windowShadow := d.sen.window, escShadow := d.sen.esc, log := d.sen.log,
                           nextSeq := d.sen.nextSeq, oldest := d.sen.oldest, lastChain := d.sen.lastChain, base := d.sen.base, lost := d.sen.lost,
                           full := decide (1047552 ≤ logUsed d) }
    ent := { resetEnt with draws := d.ent.draws, minSources := d.ent.minSources, minShadow := d.ent.minSources }
    mnt := { resetMnt with slotA := d.mnt.slotA, slotB := d.mnt.slotB, activeB := d.mnt.activeB, trial := d.mnt.trial, tried := d.mnt.tried }
    bay.ringJoin := false, bay.removal := .idle, bay.removalPending := false, bay.safeToRemove := false, bay.drainKind := 0, bay.drainFrom := 0
    bay.shutdownCtxs := [], bay.refreshDouble := [false, false, false, false], bay.dieTemp := 0, bay.hubTemps := [none, none, none, none]
    bay.dimms := [], bay.dimmOk := [false, false, false, false] }

/-! ### Life cycle and entropy at a start (R396; 16 R467, R470) -/

/-- What the life-cycle word comes to at a start. -/
inductive LcBoot
  | invalid
  | steady
  | rolled (t : Nat)
deriving DecidableEq, Repr

/-- The life-cycle state fixed from OTP, a transition rolled forward first. -/
def bootLifeCycle (d : Dev) : Dev × LcBoot :=
  if lcInvalid d.otp.lcWord then ({ d with lcd.st := 0x5A }, .invalid)
  else match lcPending d.otp.lcWord with
    | none => ({ d with lcd.st := lcStateOf d.otp.lcWord }, .steady)
    | some t =>
      let d1 := completeTransition t d
      ({ d1 with lcd.st := lcStateOf d1.otp.lcWord, lcd.rolledForward := true }, .rolled t)

/-- What the life-cycle word adds to the log: a class L alarm of an invalid word, or the entry of a roll-forward. -/
def logBoot (d : Dev) (r : LcBoot) : Dev :=
  match r with
  | .invalid => invalidCode d 1 (d.otp.lcWord % 256) clsL
  | .steady => d
  | .rolled t => logLifeCycle d t true

/-- The start-up tests of the noise sources, the pool, and the DRBG's test and instantiation. -/
def bootEntropy (d : Dev) (sources : Nat) (drbgPass : Bool) : Dev :=
  let online := sources % 16
  let bad := (List.range 4).filter fun n => !bit online n
  let pool := decide (ones4 online < d.ent.minSources)
  let failed := !drbgPass || pool
  let d1 := { d with
    ent.online := online, ent.inRow := (List.range 4).map fun n => if bit online n then 0 else 1
    ent.fails := (List.range 4).map fun n => if bit online n then 0 else 1
    ent.poolFailed := pool, ent.kat := drbgPass, ent.drbgFailed := failed, ent.seeded := !failed, ent.reseedDue := false
    ent.event := flag (!bad.isEmpty) 0 ||| flag pool 1 ||| flag failed 2 }
  let d2 := bad.foldl (fun d n => logEntropy d 0 (natLe 1 n ++ natLe 1 0)) d1
  let d3 := if pool then logEntropy d2 2 [] else d2
  if failed then logEntropy d3 4 [] else d3

/-! ### The keeper at a start (15 R432, R436, R449) -/

/-- What the keeper check finds (R432). -/
def keeperFinding (d : Dev) : Nat :=
  if !d.keeper.answers then 3 else if d.keeper.zeroised || (keeperKey d).isNone then 2 else if d.keeper.latch then 1 else 0

/-- The entry a keeper buffer record becomes (R454). -/
def keeperEntry (d : Dev) (r : KeeperRec) : LogEntry :=
  let base : LogEntry := { time := r.time, type := 0x0010, cls := r.cls, flags := 2 + (if d.keeper.timeLost then 8 else 0), source := 12 }
  if r.kind = 0 then { base with type := 0x0001, source := r.source, data := fitTo 24 (natLe 1 (levelNo (raiseLevel 0x0F r.cls))) }
  else if r.kind = 1 then { base with type := 0x0011, data := fitTo 24 (natLe 1 0) }
  else if r.kind = 2 then { base with type := 0x0011, data := fitTo 24 (natLe 1 1) }
  else if r.kind = 3 then { base with data := fitTo 24 (natLe 1 5) }
  else if r.kind = 4 then { base with data := fitTo 24 (natLe 1 6) }
  else { base with type := 0x0012, data := fitTo 24 (natLe 1 3) }

/-- The first alarm of class L or Z among the buffer's records. -/
def firstAlarm (l : List KeeperRec) : Option Nat := (l.find? fun r => r.kind == 0 && decide (clsL ≤ r.cls)).map (·.source)

/-- A change of the straps logged (02 R40). -/
def logStraps (d : Dev) (x : Nat × Nat) : Dev := logAttach d 7 0 (natLe 1 x.1 ++ natLe 1 x.2)

/-- The changes of the straps that the log could not take when they were seen (log entry 86). -/
def flushStraps (d : Dev) : Dev := d.bay.strapSeen.foldl logStraps { d with bay.strapSeen := [] }

/-- The power entry of a start after auxiliary power came up, then the buffer moved into the log and emptied (R449). -/
def moveBuffer (d : Dev) : Dev :=
  let a := logPower { d with keeper.auxFresh := false } 1 (natLe 1 d.bay.keeperState)
  let a1 := if d.bay.ringBan then logAttach a 8 1 (natLe 1 (field (d.bay.record.getD []) 5 1) ++ natLe 1 d.bay.bayPos) else a
  let d0 := if d.keeper.auxFresh then a1 else d
  if d0.keeper.buffer.isEmpty then d0
  else
    let d1 := { d0 with sen.submitted := d0.sen.submitted ++ d0.keeper.buffer.map (keeperEntry d0) }
    let d2 := if d0.keeper.overwritten = 0 then d1 else submit d1 0x0006 0 12 0xFFFE (natLe 3 d0.keeper.overwritten)
    { d2 with keeper.buffer := [], keeper.overwritten := 0, sen.event := setBit d2.sen.event 7 }

/-- Module time resumed where the keeper clock is invalid (R436). -/
def resumeTime (d : Dev) : Dev :=
  if d.keeper.clockValid then d
  else
    let newest := match d.sen.log.getLast? with | some e => e.time | none => 0
    { d with keeper.clockValid := true, keeper.timeLost := true, keeper.timeUs := newest + 1000000, keeper.usSinceTick := 0, keeper.frac := 0 }

/-- A start with KEEPER_STATE other than 0b00 is LOCKED, where the state permits (R432, R449). -/
def lockAtStart (d : Dev) (moved : Option Nat) : Dev :=
  if d.bay.keeperState = 0 ∨ neverLocked d then d
  else
    let cause := moved.getD d.keeper.latchCause
    let d1 := if d.keeper.latch then d else latchWith d cause
    { d1 with glb.locked := true, sen.lockCause := cause }

/-! ### The root store at a start (06 R157, R171) -/

/-- A bank met at a start: an abandoned replacement is logged, an undefined code raises its alarm (15 R450, 06 R170). -/
def bootBank (slot : Nat) (inB : Bool) (b : Bank) (d : Dev) : Dev :=
  if b.code = 0x33 then logRoot d slot inB b.seq 2
  else if b.code = 0x0F ∨ b.code = 0x55 then d
  else invalidCode d 4 b.code clsL

/-- The root store unwrapped, the floor raised; the record keys are drawn at every start (06 R154). -/
def bootRoot (d : Dev) (innerPass : Bool) : Dev :=
  let d0 := drawRecordKeys { d with eng.innerOk := innerPass }
  if decide (2 ≤ d.bay.keeperState) || !innerPass || (bankInForce d0 (rootSlot d0 0)).isNone then d0
  else
    let d1 := d0.keys.root.foldl (fun d p => bootBank p.1 true p.2.b (bootBank p.1 false p.2.a d)) { d0 with glb.rootOk := true }
    let floor := match rootContent d1 5 with | some b => field b 0 8 | none => 0
    floorStep { d1 with keys.floor := floor }

/-! ### The image (05 R137 to R140) -/

/-- Image types that a life-cycle state accepts. -/
def imageTypes (st : Nat) : List Nat := if st = 0x33 then [1, 3] else if st = 0x55 ∨ st = 0x96 then [1] else if st = 0x3C then [2] else []

/-- Whether the countersignature and SECURITY_VERSION are checked: in CAST_ON and IN_SERVICE, with the root store unwrapped (R137, R138). -/
def rootChecks (d : Dev) : Bool := (d.lcd.st == 0x55 || d.lcd.st == 0x96) && decide (d.bay.keeperState < 2)

/-- BODY_LENGTH of an image, and where its signature block lies (R135). -/
def bodyLen (b : Bytes) : Nat := field b 0x0C 4
def signedAt (b : Bytes) : Nat := 0x80 + bodyLen b

/-- Bytes of the two vendor signatures (R136): r and s of 48 bytes, then ML-DSA-87. -/
def vendorLen : Nat := 96 + 4627

/-- Whether an image has the header of R135, and the size that its header and its signature block give (R136; log entry 83). -/
def imageFormOk (b : Bytes) : Bool :=
  slice b 0 4 == ascii [0x49, 0x57, 0x46, 0x57] && field b 4 1 == 1 && decide (1 ≤ field b 5 1) && decide (field b 5 1 ≤ 3) &&
    decide (1 ≤ field b 8 4) && decide (4 ≤ bodyLen b) && decide (bodyLen b ≤ 8388608) && decide (bodyLen b % 4 = 0) && zeros b 0x12 14 &&
    zeros b 0x50 48 && decide (b.length = signedAt b + vendorLen + 4 + field b (signedAt b + vendorLen) 4)

/-- An image read from its bytes: both vendor signatures over the header verify under the keys whose digest is in OTP (R135, R136). -/
def firmwareImage (d : Dev) (b : Bytes) : Image :=
  let header := b.take 0x80
  let sig := b.drop (signedAt b)
  { formOk := imageFormOk b, type := field b 5 1, major := field b 6 1, minor := field b 7 1, security := field b 8 4,
    stepMin := field b 0x10 1, stepMax := field b 0x11 1, digestOk := sha384 (slice b 0x80 (bodyLen b)) == slice b 0x20 48,
    vendorOk := pkVerify 0x11 0x31 (Config.vendorP384 d.otp.vendorDigest) header 0 [] (sig.take 96) &&
      pkVerify 0x30 0x4A (Config.vendorMldsa d.otp.vendorDigest) header 0 [] (slice sig 96 4627)
    signed := header ++ sig.take vendorLen, counter := slice sig (vendorLen + 4) (field sig vendorLen 4) }

/-- Whether the countersignature of an image stands under the countersigning key enrolled, if one is (R136, R137); with the inner core out of service
the slot cannot be read and no image passes. -/
def countersignOk (d : Dev) (im : Image) : Bool :=
  d.eng.innerOk && match slotInForce d 4 with
    | none => true
    | some e =>
      let alg := field e 0 1
      im.counter.length == (if alg = 0x31 then 96 else 3309) &&
        pkVerify (enScheme alg) alg (pubMaterial alg (slice e 1 (encLen alg))) im.signed 0 [] im.counter

/-- The first check an image fails, by the codes of log entry 83: 1 form, 2 type, 3 vendor signature, 4 countersignature, 5 SECURITY_VERSION,
6 digest, 7 stepping. The manual gives neither codes nor an order. -/
def imageFault (d : Dev) (im : Image) : Option Nat :=
  firstFail
    [ (!im.formOk, 1), (!(imageTypes d.lcd.st).contains im.type, 2), (d.lcd.st != 0x33 && !im.vendorOk, 3),
      (rootChecks d && !countersignOk d im, 4), (rootChecks d && decide (im.security < minSecurity d), 5),
      (!im.digestOk, 6), (decide (d.otp.hwStep < im.stepMin) || decide (im.stepMax < d.otp.hwStep), 7) ]

/-- A firmware entry of the log: slot, versions, the check that failed; 8 where the checks of R138 were not made (15 R454 TYPE 0x0021). -/
def logFirmware (d : Dev) (inB : Bool) (im : Image) (check : Nat) : Dev :=
  submit d 0x0021 0 4 0xFFFE (natLe 1 (if inB then 1 else 0) ++ natLe 1 im.major ++ natLe 1 im.minor ++ natLe 4 im.security ++ natLe 1 check)

/-- The image in a slot. -/
def slotImage (d : Dev) (inB : Bool) : Option Image := if inB then d.mnt.slotB else d.mnt.slotA

/-- The slots tried in order; none runs where each fails (R139, R140). -/
def tryImages : List Bool → Dev → Dev
  | [], d => { d with glb.fwRunning := false, mnt.running := none }
  | inB :: t, d =>
    match slotImage d inB with
    | none => tryImages t (logFirmware d inB { security := 0, stepMin := 0, stepMax := 0 } 1)
    | some im =>
      match imageFault d im with
      | some check => tryImages t (logFirmware d inB im check)
      | none =>
        let d1 := if (d.lcd.st == 0x55 || d.lcd.st == 0x96) && !rootChecks d then logFirmware d inB im 8 else d
        { d1 with glb.fwRunning := true, mnt.running := some im, mnt.runningB := inB }

/-- The choice of an image: a trial gets exactly one start (R139). -/
def bootImage (d : Dev) : Dev :=
  let other := !d.mnt.activeB
  if (imageTypes d.lcd.st).isEmpty then { d with glb.fwRunning := false, mnt.running := none }
  else if d.mnt.trial && !d.mnt.tried then tryImages [other, d.mnt.activeB] { d with mnt.tried := true }
  else tryImages [d.mnt.activeB, other] d

/-- Whether the running image is the trial. -/
def trialRuns (d : Dev) : Bool := d.mnt.trial && d.mnt.running.isSome && d.mnt.runningB != d.mnt.activeB

/-! ### The firmware's start-up work (R499 step 6) -/

/-- Units of a list taken offline for a failed start-up test, each logged (08 R233, 10 R284). -/
def offlineUnits (l : List EngUnit) (failed : List Nat) : List EngUnit := l.zipIdx.map fun p => if failed.contains p.2 then { p.1 with online := false } else p.1

/-- A unit's failed known-answer test logged: module scope, result check, unit offline. -/
def logKat (subsystem : Nat) (d : Dev) (unit : Nat) : Dev := logFault d subsystem 0xFFFE 3 6 3 unit subsystem 0xFFFFFFFFFFFFFFFF 0 false

/-- The known-answer tests of lanes, PIN lanes and public-key units. -/
def bootTests (d : Dev) (b : BootInputs) : Dev :=
  let d1 := { d with
    eng.lanes := d.eng.lanes.zipIdx.map fun p => if b.failedLanes.contains p.2 then { p.1 with online := false } else p.1
    eng.pins := offlineUnits d.eng.pins b.failedPins, eng.pks := offlineUnits d.eng.pks b.failedPks }
  let f := fun (l : List Nat) (n : Nat) => (l.filter fun j => decide (j < n)).eraseDups
  (f b.failedPks 16).foldl (logKat 6) ((f b.failedPins 16).foldl (logKat 7) ((f b.failedLanes 64).foldl (logKat 5) d1))

/-- A DIMM meets the first three conditions of R56. -/
def dimmForm (m : Dimm) : Bool := m.fitted && m.rdimmEcc && decide (5600 ≤ m.megaTransfers) && (m.gigabytes == 32 || m.gigabytes == 64)

/-- Whether two DIMMs share manufacturer, part number and capacity. -/
def sameDimm (a b : Dimm) : Bool := a.manufacturer == b.manufacturer && a.part == b.part && a.gigabytes == b.gigabytes

/-- The reference among the DIMMs that meet the form: of the largest group, the one with the lowest-numbered bay on a tie. -/
def dimmReference (l : List Dimm) : Option Dimm :=
  let good := l.filter dimmForm
  let size := fun m => (good.filter (sameDimm m)).length
  good.foldl (fun best m => match best with | none => some m | some x => if size x < size m then some m else some x) none

/-- The verdict of R56 on each bay. -/
def dimmVerdicts (l : List Dimm) : List Bool :=
  l.map fun m => dimmForm m && match dimmReference l with | some r => sameDimm r m | none => false

/-- An attachment that changed or failed: the amber ATTN and its event (02 R55, R56). -/
def attachAlert (d : Dev) : Dev := { d with bay.attachAttention := true, glb.event := setBit d.glb.event 2 }

/-- The four bays read and checked. -/
def readDimms (d : Dev) (dimms : List Dimm) : Dev :=
  let l := (List.range 4).map fun b => dimms.getD b {}
  let v := dimmVerdicts l
  let bad := (List.range 4).filter fun b => (l.getD b {}).fitted && !v.getD b false
  let d1 := { d with bay.dimms := l, bay.dimmOk := v }
  bad.foldl (fun d b => attachAlert (logAttach d b 1 (zeroBytes 8 ++ natLe 8 (l.getD b {}).serial))) d1

/-- The serial of the DIMM in a bay, 0 for none. -/
def bayPart (d : Dev) (b : Nat) : Nat := let m := d.bay.dimms.getD b {}; if m.fitted then m.serial else 0

/-- The attachments compared with the record, each difference logged as its own event, the record updated (02 R55, R60). -/
def compareAttach (d : Dev) : Dev :=
  match (if d.glb.rootOk then d.bay.attach else none) with
  | none => d
  | some r =>
    let bays := (List.range 4).filter fun b => r.dimms.getD b 0 != bayPart d b
    let d1 := bays.foldl (fun d b => attachAlert (logAttach d b 0 (natLe 8 (r.dimms.getD b 0) ++ natLe 8 (bayPart d b)))) d
    let cellNew := d.bay.cell.seated && d.bay.cell.serial != r.cell
    let d2 := if cellNew then attachAlert (logAttach d1 4 0 (natLe 8 r.cell ++ natLe 8 d.bay.cell.serial)) else d1
    let d3 := if r.chassis == d.bay.chassis then d2 else logAttach d2 5 0 (fitTo 11 r.chassis ++ fitTo 11 d.bay.chassis)
    let d4 := if r.position = bayPosition d then d3 else logAttach d3 6 0 (natLe 1 r.position ++ natLe 1 (bayPosition d))
    let record : Attach :=
      { dimms := (List.range 4).map (bayPart d), cell := if cellNew then d.bay.cell.serial else r.cell,
        cellFitted := if cellNew then d.bay.cellAt else r.cellFitted, chassis := d.bay.chassis, position := bayPosition d }
    { d4 with bay.attach := some record }

/-- The tenant configuration restored; without the root store its seal does not open, and the module runs with none (log entry 29). -/
def restoreTenants (d : Dev) : Dev :=
  if d.glb.rootOk then match d.keys.stash with | some t => { d with tenants := t, keys.stash := none } | none => d
  else match d.keys.stash with | some _ => { d with tenants := [] } | none => { d with keys.stash := some d.tenants, tenants := [] }

/-- The firmware's access-table entries: staging buffers, and the service UART (13 R378; numbers: log entry 28). -/
def stagingEntry : ActEntry :=
  { base := 0x0008000000 / 64, last := 0x000BFFFFFF / 64, mask := 0x2EF, r := true, w := true, valid := true }
def uartEntry (lc : Nat) : ActEntry :=
  { base := 0x0047000000 / 64, last := 0x0047000FFF / 64, mask := if uartInput lc then 0x804 else 0x004, r := true, w := true, valid := true }

/-- Entries installed. -/
def firmwareEntries (d : Dev) : Dev :=
  let e := tabPut {} (tabPut {} d.act.entries 33 stagingEntry) 34 (uartEntry d.lcd.st)
  { d with act.entries := e, act.stage := e }

/-- What the firmware does once it runs, up to the end of its start-up work. -/
def firmwareStart (d : Dev) (b : BootInputs) : Dev :=
  { firmwareEntries (restoreTenants (compareAttach (readDimms (bootTests d b) b.dimms))) with glb.starting := true }

/-! ### The start of the fabric (R499 steps 1 to 6; R535) -/

/-- The ring clock of a start (12 R362). -/
def startClock (d : Dev) : Dev := { d with ring.clock := d.ring.clockFloor, ring.clockFloor := d.ring.clockFloor + 2 ^ 32 }

/-- The line of the service UART at a start in BLANK: state and die stepping (R404). -/
def blankLine (d : Dev) : Dev := if d.lcd.st = 0x0F then emit d (.uart [d.lcd.st, d.otp.hwStep]) else d

/-- The fabric leaves reset: everything up to the end of step 6, or FIRMWARE_LESS; an invalid life-cycle word lets nothing run. The keeper
buffer's entries come before every other entry of the start. -/
def fabricStart (d : Dev) (b : BootInputs) : Dev :=
  let d0 := { coldState d with bay.fabric := true, glb.starting := true, host.linkUp := !d.bay.perst }
  let x := bootLifeCycle (resumeTime d0)
  let d1 := blankLine { x.1 with bay.keeperState := keeperFinding x.1 }
  let moved := firstAlarm d1.keeper.buffer
  let d2 := logBoot (flushStraps (moveBuffer d1)) x.2
  if x.2 = .invalid then { restoreTenants d2 with glb.starting := false }
  else
    let d3 := startClock (bootImage (bootRoot (bootEntropy d2 b.sourcesPass b.drbgPass) b.innerPass))
    let d4 := lockAtStart d3 moved
    if d4.glb.fwRunning then firmwareStart d4 b else { restoreTenants d4 with glb.starting := false }

/-- A restart of the fabric by the module itself: entries submitted are in the log first (R535). -/
def fabricRestart (d : Dev) (b : BootInputs) : Dev := fabricStart (drainLog d) b

end Sys2Proof.Machine
end

