-- ==== Sys2Proof/Machine/LifeCycle.lean ====
section
/-! DEFINITION. LIFECYCLE_TRANSITION and its course: tokens (14 R399, R400), EXECUTE (14 R401, R402, R420), the drain and the wipe. -/

namespace Sys2Proof.Machine

/-- Whether a target is reachable by this command from a state (R398, R420). -/
def lcReachable (st target : Nat) : Bool :=
  (st == 0x55 && target == 0x96) || (st == 0x96 && target == 0x3C) || ((st == 0x55 || st == 0x96 || st == 0x3C) && target == 0xF0)

/-- The transition that leads to a target. -/
def lcTransition (target : Nat) : Nat := if target = 0x33 then 0 else if target = 0x55 then 1 else if target = 0x96 then 2 else if target = 0x3C then 3 else 4

/-- Whether EXECUTE to a target needs the shares of a token (R398, R420). -/
def lcNeedsToken (st target : Nat) : Bool := target == 0x3C || (target == 0xF0 && (st == 0x55 || st == 0x96))

/-- TD of a token (R399). -/
def tokenDigest (serial target : Nat) (token : Bytes) : Bytes :=
  sha256 (ascii [0x49, 0x57, 0x2D, 0x4C, 0x43, 0x2D, 0x54, 0x4F, 0x4B, 0x45, 0x4E] ++ natLe 8 serial ++ natLe 1 target ++ token)

/-- The digest OTP holds for a target. -/
def otpDigest (o : Otp) (target : Nat) : Bytes := if target = 0x3C then o.tokenAnalysis else if target = 0xF0 then o.tokenBoundOff else o.tokenCastOn

/-- The token as the exclusive or of its shares. -/
def tokenOf (t : TokenSession) : Bytes := t.shares.foldl (fun acc p => xorBytes acc p.2) (zeroBytes 32)

/-- A failed comparison: the session ends, TOKEN_FAILS rises, an event, an entry (R400). -/
def tokenFail (d : Dev) (target : Nat) : Dev :=
  submit { d with lcd.token := none, lcd.tokenFails := min 8 (d.lcd.tokenFails + 1), lcd.event := setBit d.lcd.event 3 } 0x0020 0 11 0xFFFF
    (natLe 1 (lcTransition target) ++ natLe 1 target ++ natLe 1 2)

/-- The checks of EXECUTE before its comparison. -/
def executeFail (target : Nat) (d : Dev) : Option Nat :=
  let sessionBad := match d.lcd.token with
    | some t => t.target != target || decide (t.shares.length < 3)
    | none => true
  firstFail
    [ (d.lcd.phase != .none, stBusy),
      (lcNeedsToken d.lcd.st target && sessionBad, stNotReady),
      (d.ring.st != 0x0F, stNotReady),
      (target == 0x96 && !(d.glb.rootOk && decide (2 ≤ approvers d)), stNotReady),
      (d.mnt.occupant.isSome, stMaintBusy) ]

/-- The checks of LIFECYCLE_TRANSITION (R400, R420). -/
def lifecycleCheck (c : Cmd) (d : Dev) : Option Nat :=
  let op := c.b1 0
  if decide (8 ≤ d.lcd.tokenFails) || ((op == 0 || op == 2) && !lcReachable d.lcd.st (c.b1 1)) then some stNotPermitted
  else if op = 0 then firstFail [(d.lcd.token.isSome, stBusy)]
  else if op = 2 then executeFail (c.b1 1) d
  else match d.lcd.token with
    | none => some stNotReady
    | some t => if op = 1 && t.shares.any (fun p => p.1 == c.b1 2) then some stBadParam else none

/-- The effect: BEGIN, SHARE, EXECUTE up to its drain, ABORT. -/
def lifecycleEff (c : Cmd) (d : Dev) : Dev × Fin :=
  let target := c.b1 1
  match c.b1 0 with
  | 0 => ({ d with lcd.token := some { target, shares := [], openedAt := now d } }, ok [])
  | 1 => ({ d with lcd.token := d.lcd.token.map fun t => { t with shares := t.shares ++ [(c.b1 2, slice c.p 0x10 32)] } }, ok [])
  | 2 =>
    let good := match d.lcd.token with
      | some t => tokenDigest d.otp.serial target (tokenOf t) == otpDigest d.otp target
      | none => false
    if lcNeedsToken d.lcd.st target && !good then (tokenFail d target, failWith stTokenInvalid)
    else ({ d with lcd.token := none, lcd.phase := .draining, lcd.execCtx := some c.k, lcd.pendingTarget := target }, .waits .lifecycle)
  | _ => ({ d with lcd.token := none }, ok [])

/-- LIFECYCLE_TRANSITION, opcode 0x0201 (R420). -/
def cardLifecycleTransition : Card :=
  { Card.plain 0x0201 with
    logs := .onParams fun p => field p 0 1 == 2 && field p 1 1 == 0x96
    lenOk := lens 48 0 0 0
    paramOk := fun c =>
      decide (c.b1 0 ≤ 3) && (if c.b1 0 = 0 ∨ c.b1 0 = 2 then [0x55, 0x96, 0x3C, 0xF0].contains (c.b1 1) else c.b1 1 == 0) &&
        (if c.b1 0 = 1 then decide (c.b1 2 ≤ 2) else c.b1 2 == 0 && zeros c.p 0x10 32) && zeros c.p 3 13
    approval := fun c _ => if c.b1 0 = 2 ∧ c.b1 1 = 0x96 then some (7, actionDigest c) else none
    check := lifecycleCheck
    eff := lifecycleEff }

/-! ## Meanings -/

/-- LIFECYCLE_TRANSITION (14 R420). -/
def execLifecycleTransition (k : Nat) (i : Inputs) (s : State) := s.onDev (execCard cardLifecycleTransition k i)

/-- LIFECYCLE_DRAIN_END (14 R401 steps 2 to 4): INTENT programmed, EXECUTE completed, commands still in flight without completion. -/
def lifecycleDrainEndEff (d : Dev) : Dev :=
  if d.lcd.phase = .draining then
    let target := d.lcd.pendingTarget
    let t := lcTransition target
    let d1 := logLifeCycle { d with otp.lcWord := setIntent d.otp.lcWord t, lcd.phase := .wiping } t false
    let d2 := match d1.lcd.execCtx with
      | some k => finishWith d1 k { bare stOk with result := natLe 1 target ++ zeroBytes 7 ++ natLe 8 (now d1) } true false
      | none => d1
    (ctxsWhere { d2 with lcd.execCtx := none } fun c => ctxHeld c && !writesHeld c).foldl freeCtx { d2 with lcd.execCtx := none }
  else d
def execLifecycleDrainEnd (s : State) := s.onDev lifecycleDrainEndEff

/-- LIFECYCLE_WIPE_DONE (14 R401 steps 5 to 7): the wipe, DONE, the restart of the fabric. -/
def lifecycleWipeDoneEff (boot : BootInputs) (d : Dev) : Dev :=
  if d.lcd.phase = .wiping then fabricRestart (completeTransition (lcTransition d.lcd.pendingTarget) (drainLog d)) boot else d
def execLifecycleWipeDone (boot : BootInputs) (s : State) := s.onDev (lifecycleWipeDoneEff boot)

/-- TOKEN_SESSION_EXPIRY (14 R400): 600 s after BEGIN the session ends. -/
def tokenSessionExpiryEff (d : Dev) : Dev := { d with lcd.token := none }
def execTokenSessionExpiry (s : State) := s.onDev tokenSessionExpiryEff

end Sys2Proof.Machine
end

