-- ==== Sys2Proof/Machine/Debug.lean ====
section
/-! DEFINITION. The debug ports (14 R403, R404), the five-year rewrites of the journal flash (19 R529), and the end of a retiring version (06 R167). -/

namespace Sys2Proof.Machine

/-! ## The service UART (R404) -/

/-- The values of the line that the UART emits once a second; none where the state's output is a console or a line at start. -/
def statusLine (d : Dev) : Option (List Nat) :=
  if d.lcd.st = 0x55 ∨ d.lcd.st = 0x96 then
    if d.lcd.uartStatus then some [d.otp.serial, d.lcd.st, readiness d, d.glb.pace] else none
  else if d.lcd.st = 0xF0 ∨ d.lcd.st = 0x5A then some [d.otp.serial, d.lcd.st]
  else none

/-- SERVICE_UART_STATUS_LINE (R404). -/
def serviceUartStatusLineEff (d : Dev) : Dev :=
  if d.bay.fabric then match statusLine d with | some l => emit d (.uart l) | none => d else d
def execServiceUartStatusLine (s : State) := s.onDev serviceUartStatusLineEff

/-- An access of class DEBUG on the interconnect (13 R379). -/
def debugAccess (addr bytes : Nat) (kind : Access) (value : Nat) (d : Dev) : Dev := arriveAccess (.internal 11 0 addr bytes kind value) d

/-- SERVICE_UART_INPUT (R404): a byte of the console reaches the interconnect as DEBUG, through the entry of 13 R378, where input is accepted;
elsewhere it is ignored. -/
def serviceUartInputEff (byte addr bytes : Nat) (kind : Access) (d : Dev) : Dev :=
  if uartInput d.lcd.st then debugAccess addr bytes kind byte d else d

/-- Addresses of the interconnect (13 R377). -/
def addressEnd : Nat := 2 ^ 40

def execServiceUartInput (byte addr bytes : Nat) (kind : Access) (s : State) : Host.Outcome State Fault Refusal :=
  if uartInput s.dev.lcd.st = true ∧ s.dev.bay.fabric = true ∧ addressEnd ≤ addr then .fault .addressSpace
  else s.onDev (serviceUartInputEff byte addr bytes kind)

/-! ## JTAG (R403) -/

/-- Whether the TAP is open: in BLANK and FACTORY_TEST, until a bit of the fuse reads 1. -/
def jtagOpen (d : Dev) : Bool := d.bay.fabric && d.otp.jtagFuse == 0 && (d.lcd.st == 0x0F || d.lcd.st == 0x33)

/-- The wafer tester begins transition 0, from BLANK to FACTORY_TEST (R398): INTENT programmed, then the wipe. -/
def startFactoryTest (d : Dev) : Dev :=
  if d.lcd.st = 0x0F ∧ d.lcd.phase = .none then
    logLifeCycle { d with otp.lcWord := setIntent d.otp.lcWord 0, lcd.phase := .wiping, lcd.pendingTarget := 0x33 } 0 false
  else d

/-- JTAG_ACCESS (R403): an access of class DEBUG, or the transition from BLANK; with the port closed nothing reaches the module. -/
def jtagAccessEff (addr bytes : Nat) (kind : Access) (value : Nat) (start : Bool) (d : Dev) : Dev :=
  if !jtagOpen d then d else if start then startFactoryTest d else debugAccess addr bytes kind value d

def execJtagAccess (addr bytes : Nat) (kind : Access) (value : Nat) (start : Bool) (s : State) : Host.Outcome State Fault Refusal :=
  if jtagOpen s.dev = true ∧ start = false ∧ addressEnd ≤ addr then .fault .addressSpace
  else s.onDev (jtagAccessEff addr bytes kind value start)

/-! ## Journal flash (19 R529) -/

/-- The content of a firmware slot. -/
def slotContent (d : Dev) (slot : Nat) : Option Image := if slot = 0 then d.mnt.slotA else d.mnt.slotB

/-- JOURNAL_FLASH_REFRESH: slot 0 or 1 a firmware slot, 2 a log block, 3 other sealed data; it is rewritten with the content it holds. -/
def journalFlashRefreshEff (slot : Nat) (d : Dev) : Dev :=
  let im := slotContent d slot
  if !d.bay.fabric then d
  else match slot with
    | 0 => { d with mnt.slotA := im }
    | 1 => { d with mnt.slotB := im }
    | 2 => { d with sen.log := d.sen.log }
    | _ => { d with tenants := d.tenants }
def execJournalFlashRefresh (slot : Nat) (s : State) := s.onDev (journalFlashRefreshEff slot)

/-! ## The end of a retiring version (06 R167) -/

/-- Changes made by the module itself in a ring: sent to the other holders under an issue number of its own, and acknowledged as a command's
are (12 R359, R360; log entry 55). -/
def replicateOwn (d : Dev) : Dev :=
  let l := d.vmp.changes
  let d1 := { d with vmp.changes := [] }
  if !joined d1 || l.isEmpty then d1
  else
    let n := d1.ring.issueNo
    let targets := replicaTargets d1 l
    let d2 := targets.foldl (fun d m =>
      sendFrame d m (.replicate false (memberNo d) n (l.filter fun x => (changeTargets d1 x).contains m) (bare stOk)))
      { d1 with ring.issueNo := n + 1 }
    if targets.isEmpty then d2 else { d2 with ring.waitAcks := d2.ring.waitAcks ++ [(2 ^ 20 + n, targets)] }

/-- A RETIRING version whose NOT_AFTER has passed, which this module orders: on its own, or as PRIMARY of its bucket. -/
def expiring (d : Dev) (h : Nat) : Option Record :=
  match (recsOfKey d (keyOf h)).find? fun r => r.chainPos == 0 && r.handle == h && r.st == 0x96 with
  | some r => if r.notAfter ≤ now d && holds d h && (!joined d || primaryOf d (keyOf h) == memberNo d) && (lockOf d (keyOf h)).isNone then some r else none
  | none => none

/-- RETIRING_VERSION_EXPIRY (06 R167): the version is destroyed, and the ACTIVE head names no retiring version. -/
def retiringVersionExpiryEff (h : Nat) (d : Dev) : Dev :=
  if !d.bay.fabric || d.vmp.st = 0xF0 then d
  else match expiring d h with
    | none => d
    | some r =>
      let l := recsOfKey d (keyOf h)
      replicateOwn (applyEdit d (destroyEdit l (chainIn l r))).1
def execRetiringVersionExpiry (handle : Nat) (s : State) := s.onDev (retiringVersionExpiryEff handle)

end Sys2Proof.Machine
end

