-- ==== Sys2Proof/Machine/RingLink.lean ====
section
/-! DEFINITION. The ring links (12 R339, R342): acknowledgements, the replay buffer and its resends, a link that fails and is retrained, lanes that
fail, receivers that re-lock (log entry 50). -/

namespace Sys2Proof.Machine

/-! ## Ports -/

/-- A port by direction. -/
def portOf (d : Dev) (east : Bool) : Port := if east then d.ring.east else d.ring.west
/-- A port changed by a function. -/
def modPort (d : Dev) (east : Bool) (f : Port → Port) : Dev :=
  if east then { d with ring.east := f d.ring.east } else { d with ring.west := f d.ring.west }

/-- A frame put on the wire again, counted (R371 RESENDS). -/
def resendOut (d : Dev) (f : Frame) : Dev := emit { d with ring.resends := holdAt 16 (d.ring.resends + 1) } (.frame f)

/-- The frames of a failed link that travel the other way: those for one member; a frame for every member has gone both ways already (R343). -/
def rerouted (l : List (Frame × Nat)) (east : Bool) : List Frame :=
  (l.filter fun p => p.1.dst != 255).map fun p => { p.1 with east := !east }

/-- A link declared failed: its event, and its frames sent the other way unless that link has failed too (R342). -/
def failLink (d : Dev) (east : Bool) : Dev :=
  let p := portOf d east
  if p.failed then d
  else
    let moved := rerouted p.replay east
    let d1 := modPort { d with ring.event := setBit d.ring.event 5 } east fun p => { p with failed := true, replay := [], tagFails := [] }
    if (portOf d (!east)).failed then d1
    else moved.foldl (fun d f => emit (modPort d (!east) fun p => { p with replay := p.replay ++ [(f, 0)] }) (.frame f)) d1

/-- Frame f of a port's replay buffer sent again; after its eighth resend the link has failed. -/
def resendFrame (d : Dev) (east : Bool) (x : Frame × Nat) : Dev :=
  if 8 ≤ x.2 then failLink d east
  else
    resendOut (modPort d east fun p => { p with replay := p.replay.map fun y => if y == x then (y.1, y.2 + 1) else y }) x.1

/-- Whether the ring links are up: the fabric runs and RING_JOIN is high. -/
def linksUp (d : Dev) : Bool := d.bay.fabric && d.bay.ringJoin && !d.glb.failStop

/-- FRAME_ACK_TIMEOUT (R342): the oldest unacknowledged frame of a port has waited 4 µs. -/
def frameAckTimeoutEff (east : Bool) (d : Dev) : Dev :=
  if !linksUp d then d
  else match (portOf d east).replay.head? with
    | some x => resendFrame d east x
    | none => d
def execFrameAckTimeout (east : Bool) (s : State) := s.onDev (frameAckTimeoutEff east)

/-- RING_LINK_ACK (R342): the neighbour acknowledges the frame with a frame count, or reports it bad. -/
def ringLinkAckEff (east : Bool) (seq : Nat) (good : Bool) (d : Dev) : Dev :=
  if !linksUp d then d
  else match (portOf d east).replay.find? fun x => x.1.count == seq with
    | none => d
    | some x => if good then modPort d east fun p => { p with replay := p.replay.erase x } else resendFrame d east x
def execRingLinkAck (east : Bool) (seq : Nat) (good : Bool) (s : State) := s.onDev (ringLinkAckEff east seq good)

/-- LINK_RETRAIN_TIMER (R342): once a second a failed link is trained again; trained, it has its four lanes. -/
def linkRetrainTimerEff (east trained : Bool) (d : Dev) : Dev :=
  if d.bay.fabric && !d.glb.failStop && (portOf d east).failed && trained then
    modPort { d with ring.event := setBit d.ring.event 5 } east fun p => { p with failed := false, lanes := 4, tagFails := [] }
  else d
def execLinkRetrainTimer (east trained : Bool) (s : State) := s.onDev (linkRetrainTimerEff east trained)

/-- RING_LANE_FAIL (R339): a lane fails; the port goes on with those that remain, and fails with the last; the loss is logged. -/
def ringLaneFailEff (east : Bool) (lane : Nat) (d : Dev) : Dev :=
  let p := portOf d east
  if !d.bay.fabric || d.glb.failStop || p.lanes = 0 then d
  else
    let d1 := logRing (modPort d east fun p => { p with lanes := p.lanes - 1 }) 7 (natLe 1 (if east then 0 else 1) ++ natLe 1 lane ++ natLe 1 (p.lanes - 1))
    if p.lanes = 1 then failLink d1 east else d1
def execRingLaneFail (east : Bool) (lane : Nat) (s : State) := s.onDev (ringLaneFailEff east lane)

/-- RING_RECEIVER_RELOCK (R342): the receivers have re-locked to a new neighbour, and every unacknowledged frame of the port is replayed. -/
def ringReceiverRelockEff (east : Bool) (d : Dev) : Dev :=
  if !linksUp d || (portOf d east).failed then d
  else (portOf d east).replay.foldl (fun d x => emit d (.frame x.1)) d
def execRingReceiverRelock (east : Bool) (s : State) := s.onDev (ringReceiverRelockEff east)

/-! ## Frames without acknowledgement (17 R482) -/

/-- The contexts whose changes a member has not acknowledged. -/
def unackedAt (d : Dev) (m : Nat) : List Nat := (d.ring.waitAcks.filter fun w => w.2.contains m).map Prod.fst

/-- The contexts that wait for a change lock of a member. -/
def unlockedAt (d : Dev) (m : Nat) : List Nat :=
  ctxsWhere d fun c => match c.wait with | .changeLock key => m != memberNo d && primaryOf d key == m | _ => false

/-- Whether a REPLICATE or CHANGE_LOCK sent to a member has not been answered. -/
def silent (d : Dev) (m : Nat) : Bool := !(unackedAt d m).isEmpty || !(unlockedAt d m).isEmpty

/-- What a member has not answered, sent once more. -/
def sendAgain (d : Dev) (m : Nat) : Dev :=
  let d1 := (unackedAt d m).foldl (fun d k =>
    let c := ctxOf d k
    let r := c.held.getD (bare stOk)
    let id := identityOf d k
    if k < 4096 && !c.changes.isEmpty then
      sendFrame d m (.replicate false id.1 id.2 (c.changes.filter fun x => (changeTargets d x).contains m) { r with data := r.data.take 256, outs := [] })
    else d) d
  (unlockedAt d1 m).foldl (fun d k => match (ctxOf d k).wait with
    | .changeLock key => sendFrame d m (.changeLock false key k)
    | _ => d) d1

/-- A suspected loss reported to the acting anchor: an unsigned VIEW with the members still heard (log entry 31); at the acting anchor itself its
next view decides. -/
def reportSuspect (d : Dev) (m : Nat) : Dev :=
  if bit d.ring.present m && m != memberNo d then
    let mask := clearBits (reachable d) (2 ^ m)
    let dest := (actingOf d mask).getD (memberNo d)
    if dest = memberNo d then judgeLoss { d with ring.suspects := insertNat d.ring.suspects m }
    else sendFrame d dest (.view { epoch := d.ring.epoch, present := mask, signer := memberNo d, sigMldsa := [], sigP384 := [] })
  else d

end Sys2Proof.Machine
end

