-- ==== Sys2Proof/Machine/PowerBay.lean ====
section
/-! DEFINITION. Power, the bay and what plugs in (02): the sideband, the start of the sled and its loss of power, the orderly and the surprise
removal with SHUTDOWN (18 R501, R517), the cell pack. -/

namespace Sys2Proof.Machine

/-! ### Orderly removal (02, table of orderly removal; 18 R501, R506) -/

/-- The drain step of an orderly removal (kind 0), a SHUTDOWN (1) or an FW_ACTIVATE (2): activities stop, tenant fetching stops, grants end. -/
def startDrain (d : Dev) (kind : Nat) : Dev :=
  let from' := if draining d then d.bay.drainFrom else readiness d
  let d1 := if kind = 2 then d else [1, 4, 6, 2, 5, 7].foldl stopActivity d
  let d2 := { d1 with bay.removal := .draining, bay.drainKind := kind, bay.drainFrom := from', bay.safeToRemove := false }
  endAllLocks (if kind = 2 then d2 else { d2 with bay.removalPending := true })

/-- Whether the commands that a drain waits for have all completed. -/
def drainDone (d : Dev) : Bool :=
  if d.bay.drainKind = 0 then (ctxsWhere d isTenant).isEmpty
  else (ctxsWhere d fun c => ctxHeld c && c.origin.isNone).all fun k => d.bay.shutdownCtxs.contains k

/-- The drain has ended: a joined member asks the ring to leave, a joiner stops, any other is safe (steps 5 to 7). -/
def afterDrain (d : Dev) : Dev :=
  if d.ring.st = 0x0F ∧ ¬ d.bay.ringJoin then markSafe d else startLeave { d with bay.removal := .leaving }

/-! ### SHUTDOWN (18 R517) -/

/-- The effect of SHUTDOWN. -/
def shutdownEff (c : Cmd) (d : Dev) : Dev × Fin :=
  if c.b1 0 = 1 then (resumeService d, ok [])
  else if d.bay.removal = .safe ∧ d.bay.drainKind ≠ 2 then (d, ok (natLe 8 d.bay.safeAt))
  else
    let under := (d.bay.removal == .draining || d.bay.removal == .leaving) && d.bay.drainKind != 2
    let d1 := if under then d else startDrain d 1
    ({ d1 with bay.shutdownCtxs := d1.bay.shutdownCtxs ++ [c.k] }, .waits .removal)

/-- SHUTDOWN, opcode 0x0304. -/
def cardShutdown : Card :=
  { Card.plain 0x0304 with
    lenOk := lens 8 0 0 0
    paramOk := fun c => decide (c.b1 0 ≤ 1) && zeros c.p 1 7
    check := fun c d => firstFail [(c.b1 0 == 1 && !d.bay.safeToRemove, stNotReady)]
    eff := shutdownEff }

/-! ### The cell pack (02 R61, R62) -/

/-- CELL_STATE as R61 sets it. -/
def cellStateOf (c : Cell) : Nat :=
  if !c.seated then 2 else if !c.readable || !c.partOk then 3 else if c.millivolts < 2800 then 1 else 0

/-- A newly fitted pack in the attachment record, with the time at which it was fitted, while the record can be sealed (02 R55). -/
def recordCell (d : Dev) : Dev :=
  match (if d.bay.fabric && d.glb.rootOk then d.bay.attach else none) with
  | none => d
  | some r =>
    if r.cell = d.bay.cell.serial then d
    else attachAlert (logAttach { d with bay.attach := some { r with cell := d.bay.cell.serial, cellFitted := d.bay.cellAt } } 4 0
      (natLe 8 r.cell ++ natLe 8 d.bay.cell.serial))

/-! ### The bay identity record (02 R57, R58) -/

/-- Whether a bay record makes the bay suitable. -/
def bayRecordOk (r : Option Bytes) : Bool :=
  match r with
  | none => false
  | some b => b.length == 32 && b.take 4 == ascii [0x49, 0x57, 0x42, 0x59] && field b 4 1 == 1 && decide ((b.map BitVec.toNat).foldl (· + ·) 0 % 256 = 0) &&
      decide (144 ≤ field b 8 2)

/-- Whether a bay record keeps the sled off the ring: no bypass selector, or another position than the straps'. -/
def bayRingBan (r : Option Bytes) (straps : Nat) : Bool :=
  match r with
  | none => true
  | some b => !bit (field b 6 1) 0 || field b 5 1 != straps

/-! ### Main power (02 R46, R51; 18 R499) -/

/-- The main loads connected and the fabric started. -/
def connectMain (d : Dev) (boot : BootInputs) : Dev :=
  if d.bay.p12v && d.bay.ramped && d.bay.checkDone && !d.bay.unsuitable && !d.bay.mainLoads then
    logPower (fabricStart { d with bay.mainLoads := true } boot) 2 []
  else d

/-- What a loss of power leaves of a FUSE_DISABLE: each named source either enabled or disabled, which is a free value (15 R442; log entry 4). -/
def cutFuses (d : Dev) : Dev :=
  match activityOf d 5 with
  | none => d
  | some a =>
    let fuse := fun j : Nat => if (bit a.arg j && Config.freeNat 7 (8 * a.started + j) % 2 == 1) = true then 15 else d.otp.tamperFuses.getD j 0
    { d with otp.tamperFuses := (List.range 5).map fuse }

/-! ## Meanings -/

/-- SHUTDOWN (18 R517). -/
def execShutdown (k : Nat) (i : Inputs) (s : State) := s.onDev (execCard cardShutdown k i)

/-- The sled's 7-bit address on the management SMBus (02 R41). -/
def smbusAddress (d : Dev) : Nat := 0x60 + d.bay.bayPos

/-- SMBUS_STATUS_READ (02 R41): a read-word at command code 0 of the sled's own address, which alone the sled answers. -/
def smbusStatusReadEff (d : Dev) : Dev := if d.bay.auxLogic then emit d (.smbusWord (smbusAddress d) (sbStatus d)) else d
def execSmbusStatusRead (s : State) := s.onDev smbusStatusReadEff

/-- SMBUS_ALERT_RESPONSE (02 R41): the alert line is released. -/
def smbusAlertResponseEff (d : Dev) : Dev := { d with bay.smbAlert := false }
def execSmbusAlertResponse (s : State) := s.onDev smbusAlertResponseEff

/-- SMBUS_WRITE (02 R41): acknowledged and ignored. -/
def smbusWriteEff (_code _value : Nat) (d : Dev) : Dev := d
def execSmbusWrite (code value : Nat) (s : State) := s.onDev (smbusWriteEff code value)

/-- AUX_POWER_UP (02 R41, R44): SB_STATUS at its reset values. -/
def auxPowerUpEff (d : Dev) : Dev :=
  if d.bay.auxPower then d
  else { d with
    bay.auxPower := true, bay.checkDone := false, bay.keeperState := 0, bay.unsuitable := false, bay.cellState := 0, bay.removal := .idle
    bay.removalPending := false, bay.safeToRemove := false, bay.drainKind := 0, bay.attachAttention := false, bay.bayPos := 0
    bay.smbAlert := false, keeper.auxFresh := true, keeper.onHoldover := false }
def execAuxPowerUp (s : State) := s.onDev auxPowerUpEff

/-- AUX_LOGIC_RESET_RELEASE (02 R40, R57, R58, R61): straps and seat sampled, bay record and cell pack read. -/
def auxLogicResetReleaseEff (straps : Nat) (seatHigh : Bool) (record : Option Bytes) (cell : Cell) (d : Dev) : Dev :=
  if !d.bay.auxPower || d.bay.auxLogic then d
  else { d with
    bay.auxLogic := true, bay.straps := straps, bay.bayPos := straps, bay.seatHigh := seatHigh, bay.loopsMasked := seatHigh, bay.record := record
    bay.unsuitable := !bayRecordOk record, bay.ringBan := bayRingBan record straps
    bay.attnFitted := (match record with | some b => bit (field b 6 1) 1 | none => false)
    bay.chassis := (match record with | some b => slice b 0x0C 16 | none => []), bay.cell := cell
    bay.cellAt := if cell.serial = d.bay.cell.serial then d.bay.cellAt else now d }
def execAuxLogicResetRelease (straps : Nat) (seatHigh : Bool) (record : Option Bytes) (cell : Cell) (s : State) :=
  s.onDev (auxLogicResetReleaseEff straps seatHigh record cell)

/-- KEEPER_CHECK_DONE (02 R41, R51; 15 R432). -/
def keeperCheckDoneEff (boot : BootInputs) (d : Dev) : Dev :=
  if !d.bay.auxLogic || d.bay.checkDone then d
  else
    let broken := d.keeper.answers && !d.keeper.zeroised && (keeperKey d).isNone
    let d1 := if broken then alarm d 4 clsZ 0 0 else d
    connectMain { d1 with bay.keeperState := keeperFinding d1, bay.cellState := cellStateOf d1.bay.cell, bay.checkDone := true } boot
def execKeeperCheckDone (boot : BootInputs) (s : State) := s.onDev (keeperCheckDoneEff boot)

/-- BAY_ID_CHANGE (02 R40): ignored and logged, at the next start where the log does not run (log entry 86). -/
def bayIdChangeEff (straps : Nat) (d : Dev) : Dev :=
  if d.bay.auxLogic ∧ straps ≠ d.bay.straps then
    let d1 := { d with bay.straps := straps }
    if logUp d then logStraps d1 (d.bay.straps, straps) else { d1 with bay.strapSeen := d.bay.strapSeen ++ [(d.bay.straps, straps)] }
  else d
def execBayIdChange (straps : Nat) (s : State) := s.onDev (bayIdChangeEff straps)

/-- MAIN_POWER_ARRIVAL (02 R46): P12V is on, the loads held off until it has ramped. -/
def mainPowerArrivalEff (d : Dev) : Dev := if d.bay.auxLogic && !d.bay.p12v then { d with bay.p12v := true, bay.ramped := false } else d
def execMainPowerArrival (s : State) := s.onDev mainPowerArrivalEff

/-- P12V_RAMP_DONE (02 R51). -/
def p12vRampDoneEff (boot : BootInputs) (d : Dev) : Dev :=
  if d.bay.p12v && !d.bay.ramped then connectMain { d with bay.ramped := true } boot else d
def execP12vRampDone (boot : BootInputs) (s : State) := s.onDev (p12vRampDoneEff boot)

/-- STARTUP_COMPLETE (18 R499 step 7). -/
def startupCompleteEff (d : Dev) : Dev :=
  if d.bay.fabric && d.glb.starting && d.glb.fwRunning then { d with glb.starting := false, glb.event := setBit d.glb.event 5 } else d
def execStartupComplete (s : State) := s.onDev startupCompleteEff

/-- MAIN_POWER_LOSS (02 R45, R53): before SAFE_TO_REMOVE it is a surprise removal where a removal was under way. -/
def mainPowerLossEff (d : Dev) : Dev :=
  if !d.bay.p12v then d
  else
    let d1 := if d.bay.fabric then
        let d2 := logPower d 3 []
        drainLog (if d.bay.removalPending && !d.bay.safeToRemove then logRemoval d2 3 else d2)
      else d
    { coldState (cutFuses d1) with bay.p12v := false, bay.ramped := false, bay.mainLoads := false, bay.fabric := false, keeper.timeUs := now d1, keeper.usSinceTick := 0 }
def execMainPowerLoss (s : State) := s.onDev mainPowerLossEff

/-- AUX_POWER_LOSS (02 R62; 15 R430, R448): the keeper goes on from the cell or on holdover. -/
def auxPowerLossEff (d : Dev) : Dev :=
  if !d.bay.auxPower then d
  else
    let d1 := keeperEvent d 4 fun d => logPower d 6 []
    let d2 := if d1.bay.cell.seated then d1 else { keeperEvent d1 3 (fun d => logPower d 5 []) with keeper.onHoldover := true }
    let d3 := if d2.bay.fabric then leaveRing d2 else d2
    { d3 with bay.auxPower := false, bay.auxLogic := false, bay.checkDone := false }
def execAuxPowerLoss (s : State) := s.onDev auxPowerLossEff

/-- SEAT_N_HIGH (02 R43, R54): loops masked, RING_JOIN low, no new host-memory writes, a record in the keeper buffer. -/
def seatNHighEff (d : Dev) : Dev :=
  if !d.bay.auxLogic || d.bay.seatHigh then d
  else
    let d1 := keeperRecord { d with bay.seatHigh := true, bay.loopsMasked := true } 5 0xFF 0
    if d.bay.p12v then leaveRing d1 else d1
def execSeatNHigh (s : State) := s.onDev seatNHighEff

/-- ATTENTION_PRESS (02 R53, R59; 18 R501): a press held for 50 ms. -/
def attentionPressEff (d : Dev) : Dev :=
  if !d.bay.attnFitted || !d.bay.fabric || d.glb.failStop then d
  else
    let begun := draining d && d.bay.drainKind != 2
    if begun then logRemoval d 0
    else if d.bay.removalPending then
      let d1 := logRemoval { d with bay.removalPending := false, glb.event := setBit d.glb.event 0 } 1
      if d.bay.removal = .abortWindow then { d1 with bay.removal := .idle } else d1
    else
      let d1 := logRemoval { d with bay.removalPending := true, glb.event := setBit d.glb.event 0 } 0
      if d.bay.removal = .idle then { d1 with bay.removal := .abortWindow } else d1
def execAttentionPress (s : State) := s.onDev attentionPressEff

/-- REMOVAL_ABORT_WINDOW_END (02 step 4). -/
def removalAbortWindowEndEff (d : Dev) : Dev :=
  if d.bay.removal = .abortWindow ∨ (d.bay.removalPending ∧ draining d ∧ d.bay.drainKind = 2) then startDrain d 0 else d
def execRemovalAbortWindowEnd (s : State) := s.onDev removalAbortWindowEndEff

/-- REMOVAL_DRAIN_DONE (02 step 5): every command the drain waits for has completed. -/
def removalDrainDoneEff (d : Dev) : Dev := if d.bay.removal = .draining ∧ drainDone d then afterDrain d else d
def execRemovalDrainDone (s : State) := s.onDev removalDrainDoneEff

/-- RING_LEAVE_TIMEOUT (02 R52): 60 s without a confirmation, the module leaves anyway and logs it. -/
def ringLeaveTimeoutEff (d : Dev) : Dev := if d.ring.st = 0x96 then leaveRing (logRing d 6 []) else d
def execRingLeaveTimeout (s : State) := s.onDev ringLeaveTimeoutEff

/-- CELL_PACK_SEATED (02 R61, R62). -/
def cellPackSeatedEff (cell : Cell) (d : Dev) : Dev :=
  if d.bay.cell.seated || !cell.seated then d
  else
    let d1 := keeperEvent { d with bay.cell := cell, bay.cellAt := now d, keeper.onHoldover := false } 2 fun d => logCell d (if cellStateOf cell = 3 then 3 else 1) cell.serial
    recordCell (if d.bay.auxLogic then { d1 with bay.cellState := cellStateOf cell } else d1)
def execCellPackSeated (cell : Cell) (s : State) := s.onDev (cellPackSeatedEff cell)

/-- A CELL_REPLACE in the slot sees the pack go (18 R511). -/
def noteWithdrawn (a : Activity) : Activity := if a.code = 6 then { a with withdrawn := true } else a

/-- CELL_PACK_REMOVED (02 R61, R62; 15 R430). -/
def cellPackRemovedEff (d : Dev) : Dev :=
  if !d.bay.cell.seated then d
  else
    let d1 := keeperEvent { d with bay.cell := {}, mnt.occupant := d.mnt.occupant.map noteWithdrawn, mnt.companion := d.mnt.companion.map noteWithdrawn } 1 fun x => logCell x 0 d.bay.cell.serial
    let d2 := if d.bay.auxLogic then { d1 with bay.cellState := 2 } else d1
    if d.bay.auxPower then d2 else { keeperEvent d2 3 (fun d => logPower d 5 []) with keeper.onHoldover := true }
def execCellPackRemoved (s : State) := s.onDev cellPackRemovedEff

/-- CELL_VOLTAGE_LOW (02 R61; 19 R527): the loaded voltage reads below 2.80 V. -/
def cellVoltageLowEff (millivolts : Nat) (d : Dev) : Dev :=
  if d.bay.auxLogic && d.bay.cell.seated && decide (millivolts < 2800) then
    let d1 := { d with bay.cell.millivolts := millivolts }
    if d.bay.cellState = 0 then
      let d2 := { d1 with bay.cellState := 1 }
      if logUp d then logCell d2 2 d.bay.cell.serial else d2
    else d1
  else d
def execCellVoltageLow (millivolts : Nat) (s : State) := s.onDev (cellVoltageLowEff millivolts)

/-- HOLDOVER_EXHAUSTED (02 R62; 15 R430): without any supply the keeper loses all it holds. -/
def holdoverExhaustedEff (d : Dev) : Dev :=
  if d.keeper.onHoldover && !d.bay.auxPower && !d.bay.cell.seated then
    { d with keeper.cells0 := none, keeper.cells1 := none, keeper.clockValid := false, keeper.zeroised := false, keeper.latch := false
             keeper.latchCause := 0xFF, keeper.buffer := [], keeper.overwritten := 0, keeper.onHoldover := false }
  else d
def execHoldoverExhausted (s : State) := s.onDev holdoverExhaustedEff

end Sys2Proof.Machine
end

