-- ==== Sys2Proof/Machine/Maintenance.lean ====
section
/-! DEFINITION. Maintenance activities (18 R502 to R516): MAINT_START, MAINT_STATUS, MAINT_STOP, and the ends of the activities. -/

namespace Sys2Proof.Machine

/-! ## The slot (R502 to R505) -/

/-- The pairs of activity codes that may overlap (R504). -/
def mayOverlap (a b : Nat) : Bool :=
  [(1, 4), (1, 6), (1, 7), (3, 4), (3, 6), (3, 7), (4, 6), (6, 7)].contains (min a b, max a b)

/-- Whether a start finds the slot full, or an occupant it may not overlap (R503). -/
def slotBusy (d : Dev) (code : Nat) : Bool :=
  match d.mnt.occupant, d.mnt.companion with
  | none, _ => false
  | some a, none => !mayOverlap a.code code
  | some _, some _ => true

/-- Whether the Frog runs (07 R208). -/
def sweepRuns (d : Dev) : Bool := d.vmp.frog != 0x0F

/-- Whether the sweep that runs is an activity (R505). -/
def sweepIsActivity (d : Dev) : Bool := (activityOf d 4).isSome

/-- Whether the mask ROM runs in the firmware's place (05 R140). -/
def firmwareLess (d : Dev) : Bool := readiness d == rdFirmwareLess

/-- The slot an FW_WRITE writes, true for B: the one not running; firmware-less, the one not active (R507). -/
def writtenSlot (d : Dev) : Bool := if firmwareLess d then !d.mnt.activeB else !d.mnt.runningB

/-- An image put in a slot, or taken out of it. -/
def setImage (d : Dev) (inB : Bool) (im : Option Image) : Dev :=
  if inB then { d with mnt.slotB := im } else { d with mnt.slotA := im }

/-- DETAIL of a firmware slot: 0 A, 1 B. -/
def slotNo (inB : Bool) : Nat := if inB then 1 else 0

/-- An activity put in the slot as occupant or companion, and its start logged. -/
def startActivity (d : Dev) (a : Activity) : Dev :=
  logActivity (if d.mnt.occupant.isNone then { d with mnt.occupant := some a } else { d with mnt.companion := some a }) a true

/-- The activity of a code in the slot changed. -/
def modActivity (d : Dev) (code : Nat) (f : Activity → Activity) : Dev :=
  let g := fun a : Activity => if a.code = code then f a else a
  { d with mnt.occupant := d.mnt.occupant.map g, mnt.companion := d.mnt.companion.map g }

/-! ## Units that SELF_TEST tests (R502; numbers: log entry 34) -/

/-- The number of VMP line pipelines, which the manual does not state: a free value (log entry 4). -/
def pipelines : Nat := Config.freeNat 8 0

/-- The units in service of the kinds in an ARG. -/
def testTotal (d : Dev) (arg : Nat) : Nat :=
  (if bit arg 0 then (d.eng.lanes.filter (·.online)).length else 0) + (if bit arg 1 then (d.eng.pins.filter (·.online)).length else 0) +
  (if bit arg 2 then (d.eng.pks.filter (·.online)).length else 0) + (if bit arg 3 then 1 else 0) + (if bit arg 4 then pipelines else 0) +
  (if bit arg 5 then (d.cvu.units.filter (·.online)).length else 0)

/-- The kind of a unit number: 0 lanes, 1 PIN lanes, 2 public-key units, 3 inner core, 4 VMP pipelines, 5 check-value units. -/
def unitKindOf (u : Nat) : Nat :=
  if u < 64 then 0 else if u < 80 then 1 else if u < 96 then 2 else if u = 96 then 3 else if u = 97 then 4 else 5

/-- A unit that failed its test taken offline and logged (08 R233, 10 R284). -/
def failUnit (d : Dev) (u : Nat) : Dev :=
  match unitKindOf u with
  | 0 => logKat 5 { d with eng.lanes := modifyAt d.eng.lanes u fun l : Lane => { l with online := false } } u
  | 1 => logKat 7 { d with eng.pins := modifyAt d.eng.pins (u - 64) fun x : EngUnit => { x with online := false } } (u - 64)
  | 2 => logKat 6 { d with eng.pks := modifyAt d.eng.pks (u - 80) fun x : EngUnit => { x with online := false } } (u - 80)
  | 3 => logKat 5 { d with eng.innerOk := false } 0xFF
  | 4 => logKat 9 d 0xFF
  | _ => logKat 14 { d with cvu.units := modifyAt d.cvu.units (u - 98) fun x : Cvu => { x with online := false } } (u - 98)

/-! ## MAINT_START (R514) -/

/-- ARG within R502. -/
def argOk (act arg : Nat) : Bool :=
  match act with
  | 1 => arg == 0
  | 2 => arg == 0
  | 3 => decide (arg ≤ 1)
  | 4 => decide (arg ≤ 16)
  | 5 => decide (1 ≤ arg) && decide (arg < 32)
  | 6 => arg == 0 || (decide (60 ≤ arg) && decide (arg ≤ 1800))
  | 7 => decide (1 ≤ arg) && decide (arg < 64)
  | _ => false

/-- Whether the life-cycle state lets an activity start (R502, R442). -/
def activityState (d : Dev) (act : Nat) : Bool :=
  match act with
  | 1 => d.lcd.st == 0x55 || d.lcd.st == 0x96 || firmwareLess d
  | 4 => d.lcd.st == 0x96
  | 5 => d.lcd.st == 0x55
  | _ => d.lcd.st == 0x55 || d.lcd.st == 0x96

/-- What R502 also requires, and the image of R508 step 1. -/
def activityReady (d : Dev) (act : Nat) : Bool :=
  match act with
  | 1 => !trialRuns d
  | 2 => match slotImage d (!d.mnt.runningB) with | some im => (imageFault d im).isNone | none => false
  | 3 => trialRuns d
  | 4 => d.vmp.st == 0x96
  | _ => true

/-- Buckets ring-wide in SINGLE, FILLING, MOVING_P or MOVING_S (12 R371 RING_REPL.PENDING). -/
def replPending (d : Dev) : Nat := (d.ring.map.filter fun p => decide (1 ≤ p.2.st) && decide (p.2.st ≤ 4)).length

/-- The ring condition of FW_ACTIVATE (R508 step 1). -/
def ringSafe (d : Dev) : Bool := d.ring.st == 0x0F || (d.ring.st == 0x55 && ringDual d && replPending d == 0)

/-- Whether FW_COMMIT raises the minimum SECURITY_VERSION (R509). -/
def commitRaises (d : Dev) (arg : Nat) : Bool :=
  !bit arg 0 && d.glb.rootOk && match d.mnt.running with | some im => decide (minSecurity d < im.security) | none => false

/-- The checks of MAINT_START after its approval: life-cycle state, requirements, slot, image, ring, room in the log. -/
def maintCheck (c : Cmd) (d : Dev) : Option Nat :=
  let act := c.b1 0
  firstFail
    [ (!activityState d act, stNotPermitted), (!activityReady d act, stNotReady),
      (slotBusy d act, stMaintBusy), (act == 1 && !imageFormOk c.data, stImageRejected), (act == 2 && !ringSafe d, stRingUnsafe) ]

/-- FW_COMMIT: the minimum raised, then the boot record, as one step (R509; 95). -/
def fwCommit (d : Dev) (a : Activity) : Dev :=
  let sec := match d.mnt.running with | some im => im.security | none => 0
  let d1 := if commitRaises d a.arg then commitLogged d 5 (floorContent d.keys.floor sec) [] else d
  endActivity { d1 with mnt.activeB := d.mnt.runningB, mnt.trial := false } 3 3 stOk 0

/-- FW_ACTIVATE goes on to its drain (R508 step 4). -/
def activateDrain (d : Dev) : Dev := startDrain (modActivity d 2 fun a => { a with st := 2 }) 2

/-- The activity as it starts. -/
def newActivity (c : Cmd) (d : Dev) : Activity :=
  let act := c.b1 0
  let arg := c.b4 4
  let waits := (act == 2 || act == 7) && sweepRuns d && !sweepIsActivity d
  { code := act, st := if waits then 1 else 2, started := now d, arg,
    total := if act = 1 then c.dlen else if act = 4 then groupCount d.vmp.n else if act = 5 then ((List.range 5).filter (bit arg)).length
      else if act = 7 then testTotal d arg else 0,
    detail := if act = 1 then slotNo (writtenSlot d) else if act = 2 then slotNo (!d.mnt.runningB) else 0,
    image := if act = 1 then some (firmwareImage d c.data) else none, withdrawn := act == 6 && !d.bay.cell.seated }

/-- What the start of an activity does beyond taking the slot (R505, R507 to R509). -/
def beginActivity (a : Activity) (d : Dev) : Dev :=
  match a.code with
  | 1 =>
    let inB := writtenSlot d
    let d1 := setImage d inB none
    if inB = !d.mnt.activeB then { d1 with mnt.trial := false } else d1
  | 2 =>
    let d1 := { d with mnt.trial := true, mnt.tried := false }
    if a.st = 1 then d1 else activateDrain d1
  | 3 => fwCommit d a
  | 4 =>
    if sweepRuns d then d
    else frogTrigger { d with vmp.sweepHosted := true, vmp.sweepRate := if a.arg = 0 then d.vmp.frogRate else a.arg }
  | _ => d

/-- The effect of MAINT_START. -/
def maintStartEff (c : Cmd) (d : Dev) : Dev × Fin :=
  let a := newActivity c d
  let companion := d.mnt.occupant.isSome
  (beginActivity a (startActivity d a), ok (natLe 1 a.code ++ natLe 1 (if companion then 1 else 0) ++ zeroBytes 6 ++ natLe 8 (now d)))

/-- MAINT_START, opcode 0x0301. -/
def cardMaintStart : Card :=
  { Card.plain 0x0301 with
    logs := .onParams fun p => field p 0 1 == 5
    lenOk := lens 16 0 33554432 0
    lenLate := fun c => if c.b1 0 = 1 then decide (256 ≤ c.dlen) else decide (c.dlen = 0)
    paramOk := fun c => decide (1 ≤ c.b1 0) && decide (c.b1 0 ≤ 7) && zeros c.p 1 3 && zeros c.p 8 8 && argOk (c.b1 0) (c.b4 4)
    preCheck := fun c d => if c.b1 0 = 3 ∧ d.sen.full ∧ commitRaises d (c.b4 4) then some stLogFull else none
    approval := fun c _ => if c.b1 0 = 5 then some (8, actionDigest c) else none
    check := maintCheck
    eff := maintStartEff }

/-! ## MAINT_STATUS and MAINT_STOP (R515, R516) -/

/-- DONE of an activity in the slot: groups swept by the Frog, else a free value up to TOTAL (log entry 4). -/
def doneNow (d : Dev) (a : Activity) : Nat :=
  if a.code = 4 then (if sweepRuns d then d.vmp.row else 0) else Config.freeNat 9 (8 * a.started + a.code) % (a.total + 1)

/-- The 32 bytes of an activity. -/
def activityBytes (a : Activity) (done' : Nat) : Bytes :=
  natLe 1 a.code ++ natLe 1 a.st ++ natLe 2 a.status ++ natLe 4 done' ++ natLe 4 a.total ++ natLe 4 a.detail ++ natLe 8 a.started ++ natLe 8 a.ended

/-- An activity of the slot, zero where absent. -/
def slotBytes (d : Dev) : Option Activity → Bytes
  | some a => activityBytes a (doneNow d a)
  | none => zeroBytes 32

/-- MAINT_STATUS, opcode 0x0302. -/
def cardMaintStatus : Card :=
  { Card.plain 0x0302 with
    lenOk := lens 0 0 0 128
    eff := fun _ d =>
      (d, okData (natLe 2 (maintCode d) ++ natLe 1 (slotNo d.mnt.activeB + flag d.mnt.trial 1 + flag d.mnt.tried 2) ++ zeroBytes 1 ++
          natLe 4 (minSecurity d) ++ natLe 8 (now d))
        (slotBytes d d.mnt.occupant ++ slotBytes d d.mnt.companion ++ activityBytes d.mnt.last d.mnt.last.done')) }

/-- The activities that a MAINT_STOP names. -/
def namedActivities (d : Dev) (act : Nat) : List Nat :=
  ([d.mnt.occupant, d.mnt.companion].filterMap fun x => x.map Activity.code).filter fun code => act == 0 || code == act

/-- MAINT_STOP, opcode 0x0303. -/
def cardMaintStop : Card :=
  { Card.plain 0x0303 with
    lenOk := lens 8 0 0 0
    paramOk := fun c => decide (c.b1 0 ≤ 7) && zeros c.p 1 7
    check := fun c d => firstFail [((namedActivities d (c.b1 0)).isEmpty, stNotReady)]
    eff := fun c d =>
      let l := namedActivities d (c.b1 0)
      (l.foldl stopActivity d, ok (natLe 1 l.length)) }

/-! ## Meanings -/

/-- MAINT_START (R514). -/
def execMaintStart (k : Nat) (i : Inputs) (s : State) := s.onDev (execCard cardMaintStart k i)
/-- MAINT_STATUS (R515). -/
def execMaintStatus (k : Nat) (i : Inputs) (s : State) := s.onDev (execCard cardMaintStatus k i)
/-- MAINT_STOP (R516). -/
def execMaintStop (k : Nat) (i : Inputs) (s : State) := s.onDev (execCard cardMaintStop k i)

/-- Whether a command fetched by this module has no completion yet: a restart that the module makes of itself waits for it (01 R19; log entry 89). -/
def fetchedInFlight (d : Dev) : Bool := !(ctxsWhere d fun c => ctxHeld c && c.origin.isNone).isEmpty

/-- FW_WRITE_DONE (R507): the image stands in its slot if it passes its checks; firmware-less it is made active and the fabric restarts. -/
def fwWriteDoneEff (boot : BootInputs) (d : Dev) : Dev :=
  match activityOf d 1 with
  | none => d
  | some a =>
    let im := a.image.getD {}
    let inB := a.detail == 1
    if (imageFault d im).isSome then endActivity d 1 4 stImageRejected a.detail
    else if firmwareLess d && fetchedInFlight d then d
    else
      let d1 := endActivity (setImage d inB (some im)) 1 3 stOk a.detail
      if firmwareLess d then fabricRestart { d1 with mnt.activeB := inB, mnt.trial := false } boot else d1
def execFwWriteDone (boot : BootInputs) (s : State) := s.onDev (fwWriteDoneEff boot)

/-- FW_ACTIVATE_RESTART (R508 step 6): the drain and the leave are over, and the fabric restarts on the trial image. -/
def fwActivateRestartEff (boot : BootInputs) (d : Dev) : Dev :=
  match activityOf d 2 with
  | none => d
  | some a => if d.bay.drainKind = 2 ∧ d.bay.removal = .safe ∧ fetchedInFlight d = false then fabricRestart (endActivity d 2 3 stOk a.detail) boot else d
def execFwActivateRestart (boot : BootInputs) (s : State) := s.onDev (fwActivateRestartEff boot)

/-- FUSE_DISABLE_DONE (15 R442): every source named is disabled. -/
def fuseDisableDoneEff (d : Dev) : Dev :=
  match activityOf d 5 with
  | none => d
  | some a => endActivity (programFuses d ((List.range 5).filter (bit a.arg))) 5 3 stOk a.arg
def execFuseDisableDone (s : State) := s.onDev fuseDisableDoneEff

/-- CELL_REPLACE_DONE (R511): a pack has been seated after the old one was withdrawn, and read. -/
def cellReplaceDoneEff (d : Dev) : Dev :=
  match activityOf d 6 with
  | none => d
  | some a =>
    if !a.withdrawn || !d.bay.cell.seated then d
    else if d.bay.cellState = 0 then endActivity (recordCell d) 6 3 stOk 0
    else endActivity d 6 4 (openStatus 6 4) d.bay.cellState
def execCellReplaceDone (s : State) := s.onDev cellReplaceDoneEff

/-- CELL_REPLACE_TIMEOUT (R511): the activity ends stopped. -/
def cellReplaceTimeoutEff (d : Dev) : Dev :=
  match activityOf d 6 with
  | none => d
  | some a => endActivity d 6 5 (openStatus 6 5) a.detail
def execCellReplaceTimeout (s : State) := s.onDev cellReplaceTimeoutEff

/-- SELF_TEST_DONE (R502, R505): units of the kinds tested that failed go offline; a pipeline test waits for a sweep to end. -/
def selfTestDoneEff (failed : List Nat) (d : Dev) : Dev :=
  match activityOf d 7 with
  | none => d
  | some a =>
    if a.st ≠ 2 || (bit a.arg 4 && sweepRuns d) then d
    else
      let l := failed.eraseDups.filter fun u => bit a.arg (unitKindOf u)
      endActivity (l.foldl failUnit d) 7 3 stOk l.length
def execSelfTestDone (failed : List Nat) (s : State) := s.onDev (selfTestDoneEff failed)

end Sys2Proof.Machine
end

