-- ==== Sys2Proof/Machine/Payment.lean ====
section
/-! DEFINITION. The payment commands (10): the PIN path 0x4xxx (PIN_TRANSLATE, PIN_VERIFY, PIN_GENERATE, PIN_CHANGE), DUKPT key
descriptors, and the 0x5xxx commands ARQC_VERIFY, EMV_SCRIPT, CVC, PAY_MAC. -/

namespace Sys2Proof.Machine

def stKsnInvalid : Nat := 0x200C
def stPinPolicy : Nat := 0x3003
def stPinBlockInvalid : Nat := 0x4008
def stCvcMismatch : Nat := 0x4009

/-! ## Digit strings -/

/-- The nibbles of a byte string, most significant first. -/
def nibbles (b : Bytes) : List Nat := b.flatMap fun x => [x.toNat / 16, x.toNat % 16]

/-- Bytes packed from nibbles, two per byte; a last odd nibble takes 0. -/
def packNibbles : List Nat → Bytes
  | a :: b :: t => BitVec.ofNat 8 (16 * a + b) :: packNibbles t
  | [a] => [BitVec.ofNat 8 (16 * a)]
  | [] => []

/-- A list of nibbles made `n` long with a fill on the right. -/
def padRight (n fill : Nat) (l : List Nat) : List Nat := (l ++ List.replicate n fill).take n

/-- The rightmost `n` of a digit string, zeros on the left where it is shorter. -/
def rightmost (n : Nat) (l : List Nat) : List Nat := List.replicate (n - l.length) 0 ++ l.drop (l.length - n)

/-- Every nibble is a decimal digit. -/
def isDigits (l : List Nat) : Bool := l.all fun x => decide (x ≤ 9)

/-- `n` digits left-aligned in a byte string, unused nibbles 0xF (R287, R295). -/
def digitsOk (n : Nat) (b : Bytes) : Bool := isDigits ((nibbles b).take n) && ((nibbles b).drop n).all (· == 15)

/-- A PAN parameter: 12 to 19 digits, or none where no format or method uses one (R287). -/
def panOk (c : Cmd) (lenOff off : Nat) (needed : Bool) : Bool :=
  let n := c.b1 lenOff
  ((decide (12 ≤ n) && decide (n ≤ 19)) || (n == 0 && !needed)) && digitsOk n (slice c.p off 10)

/-- The PAN's digits. -/
def panOf (c : Cmd) (lenOff off : Nat) : List Nat := (nibbles (slice c.p off 10)).take (c.b1 lenOff)

/-- Digits taken first, then letters less ten, left to right (R300 step 3, R311). -/
def takeDigits (b : Bytes) : List Nat := (nibbles b).filter (· ≤ 9) ++ ((nibbles b).filter (10 ≤ ·)).map (· - 10)

/-! ## Key descriptors and DUKPT (R290 to R293) -/

/-- KSRC, AES_TYPE, KSN of a key descriptor. -/
def ksrc (c : Cmd) : Nat := c.b1 8
def aesType (c : Cmd) : Nat := c.b1 9
def ksn (c : Cmd) : Bytes := slice c.p 0x0C 12

/-- The form of a key descriptor at the start of the parameters (R290). -/
def descOk (c : Cmd) : Bool :=
  decide (ksrc c ≤ 2) && zeros c.p 0x0A 2 && (if ksrc c = 2 then isTdes (aesType c) || isAes (aesType c) else aesType c == 0) &&
    (if ksrc c = 0 then zeros c.p 0x0C 12 else if ksrc c = 1 then zeros c.p 0x16 2 else true)

/-- What a derived key is for: 0 PIN encryption, 1 MAC of a request or MAC generation, 2 MAC of a response or MAC verification. -/
def tdesVariant (purpose : Nat) : Bytes :=
  if purpose = 0 then [0, 0, 0, 0, 0, 0, 0, 0xFF] else if purpose = 1 then [0, 0, 0, 0, 0, 0, 0xFF, 0] else [0, 0, 0, 0, 0xFF, 0, 0, 0]

/-- The transaction counter of a KSN: 21 bits for TDES DUKPT, 32 for AES DUKPT (R291, R292). -/
def ksnCounter (c : Cmd) : Nat := if ksrc c = 1 then beNat (slice (ksn c) 7 3) % 2 ^ 21 else beNat (slice (ksn c) 8 4)

/-- One-bits of a number below 2^32. -/
def oneBits (v : Nat) : Nat := ((List.range 32).filter (bit v)).length

/-- Whether a KSN is refused (R293). -/
def ksnRefused (c : Cmd) : Bool :=
  ksrc c != 0 && (ksnCounter c == 0 || decide ((if ksrc c = 1 then 10 else 16) < oneBits (ksnCounter c)))

/-- The KSN with its counter cleared. -/
def ksnCleared (c : Cmd) : Bytes := natBe 10 (beNat ((ksn c).take 10) / 2 ^ 21 * 2 ^ 21)

/-- The key usage indicator of ANSI X9.24-3 for a purpose: PIN encryption, MAC generation or MAC verification (R292 step 3). -/
def dukptUsage (ind : Nat) : Nat := if ind = 0 then 0x1000 else if ind = 1 then 0x2000 else 0x2001

/-- The working key that a descriptor gives: the record's own, or the one derived for a purpose of the DUKPT variant (`var`) or indicator (`ind`). -/
def workingKey (c : Cmd) (var ind : Nat) (x : Record × Bytes) : Bytes :=
  if ksrc c = 0 then x.2
  else if ksrc c = 1 then
    let initial := if x.1.usage = uB0 then tdesDukptInitial x.2 (ksnCleared c) else x.2
    xorBytes (fitTo 16 (tdesDukptTransaction initial ((ksn c).take 10))) (tdesVariant var ++ tdesVariant var)
  else
    let initial := if x.1.usage = uB0 then aesDukptInitial x.2 ((ksn c).take 8) else x.2
    fitTo (symLen (aesType c)) (aesDukptWorking initial (ksn c) (aesType c) (dukptUsage ind))

/-- The algorithm of the working key, known without a derivation (R289). -/
def workingAlg (c : Cmd) (r : Record) : Nat := if ksrc c = 0 then r.alg else if ksrc c = 1 then 1 else aesType c

/-- The permission of the record a descriptor names: the working key's own, or a DUKPT base key. -/
def descPerm (c : Cmd) (perm : Record → Bool) (r : Record) : Bool :=
  if ksrc c = 0 then perm r else hClass r.handle == 5 && (r.usage == uB0 || r.usage == uB1) && r.mode == mX

/-- The record a descriptor names, checked under R158 for one use. -/
def descKey (c : Cmd) (d : Dev) (perm : Record → Bool) : Except Nat (Record × Bytes) := useKey c d (c.b8 0) (descPerm c perm) 1

/-- What follows the key checks of a DUKPT descriptor (R290 to R293): the base key's algorithm and BDK ID, a type it is strong enough for,
the KSN (order: log entry 39). -/
def descFail (c : Cmd) (r : Record) : Option Nat :=
  if ksrc c = 0 then none
  else firstFail
    [ (if ksrc c = 1 then r.alg != 1 else !isAes r.alg, stKeyUsage),
      (ksrc c == 2 && r.usage == uB0 && !zeros r.params 0 4 && slice r.params 0 4 != (ksn c).take 4, stKeyUsage),
      (ksrc c == 2 && decide (strength r.alg < strength (aesType c)), stBadParam),
      (ksnRefused c, stKsnInvalid) ]

/-- Two records used by one command: one use each, two of a record named twice. -/
def useBoth (d : Dev) (k : Nat) (a b : Record) : Dev :=
  if a.handle = b.handle then (takeValues d k a 2).2 else useOnce (useOnce d k a) k b

/-- The uses that a command with two records takes before it begins. -/
def takesBoth (a b : Record) : List (Record × Nat) := if a.handle = b.handle then [(a, 2)] else [(a, 1), (b, 1)]

/-! ## PIN blocks (R285, R286) -/

/-- A format the module handles. -/
def formatOk (f : Nat) : Bool := f == 0 || f == 1 || f == 3 || f == 4
/-- A format bound to the PAN. -/
def panBound (f : Nat) : Bool := f != 1
/-- Whether a format suits a key's algorithm. -/
def formatSuits (f alg : Nat) : Bool := if f = 4 then isAes alg else isTdes alg
/-- A PIN block parameter: bytes 8 to 15 zero unless format 4 (R296). -/
def blockOk (c : Cmd) (f off : Nat) : Bool := f == 4 || zeros c.p (off + 8) 8
/-- A PIN block parameter's bytes. -/
def blockOf (c : Cmd) (f off : Nat) : Bytes := slice c.p off (if f = 4 then 16 else 8)

/-- The PAN field of a format. -/
def panField (f : Nat) (pan : List Nat) : Bytes :=
  if f = 4 then packNibbles (padRight 32 0 ((pan.length - 12) :: pan)) else [0, 0] ++ packNibbles (rightmost 12 pan.dropLast)

/-- Whether the fill of a clear PIN field is right (R286). -/
def fillOk (f : Nat) (l : List Nat) : Bool :=
  if f = 0 then l.all (· == 15) else if f = 3 then l.all (10 ≤ ·) else if f = 4 then l.all (· == 10) else true

/-- The clear PIN field of an enciphered block. -/
def clearField (f : Nat) (pan : List Nat) (key block : Bytes) : Bytes :=
  if f = 4 then aesDec key (xorBytes (aesDec key block) (panField 4 pan))
  else if f = 1 then tdesDec key block
  else xorBytes (tdesDec key block) (panField f pan)

/-- The PIN in a block; none where R286 refuses it. -/
def pinOf (f : Nat) (pan : List Nat) (key block : Bytes) : Option (List Nat) :=
  let l := (nibbles (clearField f pan key block)).take 16
  let n := l.getD 1 0
  let pin := (l.drop 2).take n
  if l.headD 16 = f ∧ 4 ≤ n ∧ n ≤ 12 ∧ isDigits pin ∧ fillOk f (l.drop (2 + n)) then some pin else none

/-- A PIN block formed and enciphered; `rnd` are the DRBG's bytes for its fill. -/
def formBlock (f : Nat) (pin pan : List Nat) (key rnd : Bytes) : Bytes :=
  let head := f :: pin.length :: pin
  let rest := 16 - head.length
  if f = 4 then
    let p := packNibbles (padRight 16 10 head) ++ rnd.take 8
    aesEnc key (xorBytes (aesEnc key p) (panField 4 pan))
  else if f = 1 then tdesEnc key (packNibbles (head ++ (rnd.take rest).map fun b => b.toNat % 16))
  else if f = 3 then tdesEnc key (xorBytes (packNibbles (head ++ (rnd.take rest).map fun b => 10 + b.toNat % 6)) (panField 3 pan))
  else tdesEnc key (xorBytes (packNibbles (padRight 16 15 head)) (panField 0 pan))

/-- A PIN block for a destination, with its random fill drawn (R285). -/
def encipherPin (d : Dev) (f : Nat) (pin pan : List Nat) (key : Bytes) : Bytes × Dev :=
  if f = 0 then (formBlock 0 pin pan key [], d)
  else
    let r := draw d 16
    (formBlock f pin pan key r.1, r.2)

/-! ## Reference values (R297 to R301) -/

/-- The whole encipherment of an 8-byte block (R298). -/
def r298 (r : Record × Bytes) (x : Bytes) : Bytes :=
  if isAes r.1.alg then aesEnc r.2 (x ++ xorBytes x (List.replicate 8 0xFF)) else tdesEnc r.2 x

/-- The decimal digit a hex digit becomes under a V1 key's table (R297). -/
def decimalise (r : Record) (n : Nat) : Nat := if n ≤ 9 then n else (nibbles (r.params.take 3)).getD (n - 10) 0

/-- The natural PIN of a length (R299 steps 1 to 3). -/
def naturalPin (r : Record × Bytes) (vdata : Bytes) (len : Nat) : List Nat := ((nibbles (r298 r vdata)).map (decimalise r.1)).take len

/-- The offset of a PIN (R299 step 4). -/
def offsetOf (pin natural : List Nat) : List Nat := pin.zipWith (fun p n => (p + 10 - n) % 10) natural

/-- The PIN verification value of a PIN (R300). -/
def pvvOf (r : Record × Bytes) (pan pin : List Nat) : List Nat :=
  (takeDigits (r298 r (packNibbles (rightmost 11 pan.dropLast ++ [field r.1.params 0 1] ++ pin.take 4)))).take 4

/-- The reference value of a PIN by a method. -/
def referenceOf (r : Record × Bytes) (method len : Nat) (pan : List Nat) (vdata : Bytes) (pin : List Nat) : List Nat :=
  if method = 0 then offsetOf pin (naturalPin r vdata len) else pvvOf r pan pin

/-- Whether a PIN verifies against a reference (R299, R300). -/
def pinVerifies (r : Record × Bytes) (method len : Nat) (pan : List Nat) (vdata : Bytes) (reference pin : List Nat) : Bool :=
  (method != 0 || (decide (field r.1.params 3 1 ≤ pin.length) && decide (len ≤ pin.length))) &&
    referenceOf r method len pan vdata pin == reference

/-- A weak PIN (R301). -/
def weakPin (pin : List Nat) : Bool :=
  let pairs := pin.zip (pin.drop 1)
  pairs.all (fun x => x.1 == x.2) || pairs.all (fun x => x.2 == x.1 + 1) || pairs.all fun x => x.1 == x.2 + 1

/-- A new PIN that a change refuses (R301). -/
def newPinRefused (r : Record) (method len : Nat) (pin : List Nat) : Bool :=
  weakPin pin || (method == 0 && decide (pin.length < field r.params 3 1)) || decide (pin.length < len)

/-- Six bytes that hold a reference (R295). -/
def referenceBytes (l : List Nat) : Bytes := packNibbles (padRight 12 15 l)

/-- Random PINs drawn until one is not weak, at most `fuel` times (log entry 40). -/
def randomPin (len : Nat) : (fuel : Nat) → Dev → List Nat × Dev
  | 0, d => ((draw d 12).1.take len |>.map (fun b => b.toNat % 10), (draw d 12).2)
  | n + 1, d =>
    let r := draw d 12
    let pin := (r.1.take len).map fun b => b.toNat % 10
    if weakPin pin then randomPin len n r.2 else (pin, r.2)

/-! ## The PIN commands -/

/-- A card of the PIN path (R295). -/
def pinCard (opcode : Nat) : Card := { tenantCard opcode 3 with unit := fun _ => .pin }

/-- A PIN encryption key of a direction (06 R145, R146). -/
def pinKey (enc : Bool) (r : Record) : Bool := hClass r.handle == 2 && r.usage == uP0 && modeIn (if enc then [mB, mE] else [mB, mD]) r

/-- A PIN verification key of a method, with a mode of a list. -/
def pvkPerm (method : Nat) (modes : List Nat) (r : Record) : Bool :=
  hClass r.handle == 7 && r.usage == (if method = 0 then uV1 else uV2) && modeIn modes r

/-! ### PIN_TRANSLATE (R296) -/

/-- Parameters of PIN_TRANSLATE. -/
def translateParams (c : Cmd) : Bool :=
  descOk c && formatOk (c.b1 0x20) && formatOk (c.b1 0x21) && zeros c.p 0x22 1 && zeros c.p 0x2E 2 && blockOk c (c.b1 0x20) 0x30 &&
    panOk c 0x23 0x24 (panBound (c.b1 0x20) || panBound (c.b1 0x21))

/-- The source and destination of a translation. -/
def translateSrc (c : Cmd) (d : Dev) := descKey c d (pinKey false)
def translateDst (c : Cmd) (d : Dev) := useKey c d (c.b8 0x18) (pinKey true) (if (got (translateSrc c d)).1.handle = (resolveIn (storeOf d c.k (c.b8 0x18)) (c.b8 0x18)).elim 0 Record.handle then 2 else 1)

/-- R289: whether policy refuses a translation. -/
def policyRefuses (c : Cmd) (src dst : Record) : Bool :=
  (c.b1 0x21 == 1 && c.b1 0x20 != 1) ||
    (decide (strength dst.alg < strength (workingAlg c src)) && !bit (field dst.params 0 1) 0)

/-- Checks of PIN_TRANSLATE. -/
def translateCheck (c : Cmd) (d : Dev) : Option Nat :=
  let src := translateSrc c d
  let dst := translateDst c d
  orElse (firstError [src, dst])
    (orElse (descFail c (got src).1)
      (firstFail
        [ (!formatSuits (c.b1 0x20) (workingAlg c (got src).1) || !formatSuits (c.b1 0x21) (got dst).1.alg, stKeyUsage),
          (policyRefuses c (got src).1 (got dst).1, stPinPolicy) ]))

/-- The effect of PIN_TRANSLATE. -/
def translateEff (c : Cmd) (d : Dev) : Dev × Fin :=
  let src := got (translateSrc c d)
  let dst := got (translateDst c d)
  let d1 := useBoth d c.k src.1 dst.1
  let pan := panOf c 0x23 0x24
  match pinOf (c.b1 0x20) pan (workingKey c 0 0 src) (blockOf c (c.b1 0x20) 0x30) with
  | none => (d1, failWith stPinBlockInvalid)
  | some pin =>
    let r := encipherPin d1 (c.b1 0x21) pin pan dst.2
    (r.2, okUsing [src.1, dst.1] r.1 [] [])

/-- PIN_TRANSLATE, opcode 0x4001. -/
def cardPinTranslate : Card :=
  { pinCard 0x4001 with
    lenOk := lens 64 0 0 0
    paramOk := translateParams
    handles := fun c => [c.b8 0, c.b8 0x18]
    route := fun c => some (c.b8 0)
    drbg := fun c => if c.b1 0x21 = 0 then 0 else 1
    takes := fun c d => takesBoth (got (translateSrc c d)).1 (got (translateDst c d)).1
    check := translateCheck
    eff := translateEff }

/-! ### PIN_VERIFY (R302) and PIN_CHANGE (R304) -/

/-- SRC_FORMAT, METHOD, CHECK_LEN, PAN, VALIDATION_DATA and REFERENCE as PIN_VERIFY and PIN_CHANGE carry them, from `off` on. -/
def verifyParams (c : Cmd) (off : Nat) : Bool :=
  descOk c && formatOk (c.b1 0x20) && decide (c.b1 0x21 ≤ 1) &&
    (if c.b1 0x21 = 0 then decide (4 ≤ c.b1 0x22) && decide (c.b1 0x22 ≤ 12) else c.b1 0x22 == 4) &&
    panOk c 0x23 0x24 (panBound (c.b1 0x20) || c.b1 0x21 == 1) && zeros c.p 0x2E 2 && blockOk c (c.b1 0x20) 0x30 &&
    (c.b1 0x21 == 0 || zeros c.p off 8) && digitsOk (c.b1 0x22) (slice c.p (off + 8) 6) && zeros c.p (off + 14) 2

/-- The PIN verification key of a verification or change. -/
def pvkKey (c : Cmd) (d : Dev) (modes : List Nat) := useKey c d (c.b8 0x18) (pvkPerm (c.b1 0x21) modes) 1

/-- Checks of PIN_VERIFY and PIN_CHANGE. -/
def verifyCheck (modes : List Nat) (c : Cmd) (d : Dev) : Option Nat :=
  let src := translateSrc c d
  orElse (firstError [src, pvkKey c d modes])
    (orElse (descFail c (got src).1) (firstFail [(!formatSuits (c.b1 0x20) (workingAlg c (got src).1), stKeyUsage)]))

/-- The reference value the command gives. -/
def givenReference (c : Cmd) (off : Nat) : List Nat := (nibbles (slice c.p (off + 8) 6)).take (c.b1 0x22)

/-- Whether the PIN given verifies. -/
def pinMatches (c : Cmd) (pvk : Record × Bytes) (off : Nat) (pin : List Nat) : Bool :=
  pinVerifies pvk (c.b1 0x21) (c.b1 0x22) (panOf c 0x23 0x24) (slice c.p off 8) (givenReference c off) pin

/-- The effect of PIN_VERIFY. -/
def pinVerifyEff (c : Cmd) (d : Dev) : Dev × Fin :=
  let src := got (translateSrc c d)
  let pvk := got (pvkKey c d [mC, mV])
  let d1 := useBoth d c.k src.1 pvk.1
  match pinOf (c.b1 0x20) (panOf c 0x23 0x24) (workingKey c 0 0 src) (blockOf c (c.b1 0x20) 0x30) with
  | none => (d1, failWith stPinBlockInvalid)
  | some pin => (d1, if pinMatches c pvk 0x40 pin then okUsing [src.1, pvk.1] [] [] [] else failWith stPinMismatch)

/-- PIN_VERIFY, opcode 0x4002. -/
def cardPinVerify : Card :=
  { pinCard 0x4002 with
    lenOk := lens 80 0 0 0
    paramOk := fun c => verifyParams c 0x40
    handles := fun c => [c.b8 0, c.b8 0x18]
    route := fun c => some (c.b8 0)
    takes := fun c d => takesBoth (got (translateSrc c d)).1 (got (pvkKey c d [mC, mV])).1
    check := verifyCheck [mC, mV]
    eff := pinVerifyEff }

/-- The effect of PIN_CHANGE: both blocks and PINs checked in the order of R304, then the new reference. -/
def pinChangeEff (c : Cmd) (d : Dev) : Dev × Fin :=
  let src := got (translateSrc c d)
  let pvk := got (pvkKey c d [mC])
  let d1 := useBoth d c.k src.1 pvk.1
  let pan := panOf c 0x23 0x24
  let key := workingKey c 0 0 src
  match pinOf (c.b1 0x20) pan key (blockOf c (c.b1 0x20) 0x30) with
  | none => (d1, failWith stPinBlockInvalid)
  | some old =>
    if !pinMatches c pvk 0x50 old then (d1, failWith stPinMismatch)
    else match pinOf (c.b1 0x20) pan key (blockOf c (c.b1 0x20) 0x40) with
      | none => (d1, failWith stPinBlockInvalid)
      | some new =>
        if newPinRefused pvk.1 (c.b1 0x21) (c.b1 0x22) new then (d1, failWith stPinPolicy)
        else (d1, okUsing [src.1, pvk.1] (referenceBytes (referenceOf pvk (c.b1 0x21) (c.b1 0x22) pan (slice c.p 0x50 8) new)) [] [])

/-- PIN_CHANGE, opcode 0x4004. -/
def cardPinChange : Card :=
  { pinCard 0x4004 with
    lenOk := lens 96 0 0 0
    paramOk := fun c => verifyParams c 0x50 && blockOk c (c.b1 0x20) 0x40
    handles := fun c => [c.b8 0, c.b8 0x18]
    route := fun c => some (c.b8 0)
    takes := fun c d => takesBoth (got (translateSrc c d)).1 (got (pvkKey c d [mC])).1
    check := verifyCheck [mC]
    eff := pinChangeEff }

/-! ### PIN_GENERATE (R303) -/

/-- Parameters of PIN_GENERATE. -/
def generateParams (c : Cmd) : Bool :=
  let m := c.b1 0x11
  let n := c.b1 0x13
  let k := c.b1 0x14
  formatOk (c.b1 0x10) && decide (m ≤ 1) && decide (c.b1 0x12 ≤ 1) && !(c.b1 0x12 == 1 && m == 1) && decide (4 ≤ n) && decide (n ≤ 12) &&
    (if m = 0 then decide (4 ≤ k) && decide (k ≤ n) && (c.b1 0x12 == 0 || k == n) else k == 4) &&
    panOk c 0x15 0x16 (panBound (c.b1 0x10) || m == 1) && (m == 0 || zeros c.p 0x20 8) && zeros c.p 0x28 8

/-- The keys of PIN_GENERATE. -/
def genPvk (c : Cmd) (d : Dev) := useKey c d (c.b8 0) (pvkPerm (c.b1 0x11) [mC, mG]) 1
def genDst (c : Cmd) (d : Dev) := useKey c d (c.b8 8) (pinKey true) 1

/-- The effect of PIN_GENERATE. -/
def pinGenerateEff (c : Cmd) (d : Dev) : Dev × Fin :=
  let pvk := got (genPvk c d)
  let dst := got (genDst c d)
  let d1 := useBoth d c.k pvk.1 dst.1
  let pan := panOf c 0x15 0x16
  let vdata := slice c.p 0x20 8
  let p := if c.b1 0x12 = 1 then (naturalPin pvk vdata (c.b1 0x14), d1) else randomPin (c.b1 0x13) 64 d1
  let b := encipherPin p.2 (c.b1 0x10) p.1 pan dst.2
  (b.2, okUsing [pvk.1, dst.1] b.1 (fitTo 64 (referenceBytes (referenceOf pvk (c.b1 0x11) (c.b1 0x14) pan vdata p.1))) [])

/-- PIN_GENERATE, opcode 0x4003. -/
def cardPinGenerate : Card :=
  { pinCard 0x4003 with
    lenOk := lens 48 0 0 64
    paramOk := generateParams
    handles := fun c => [c.b8 0, c.b8 8]
    route := fun c => some (c.b8 0)
    drbg := fun c => if c.b1 0x12 = 1 ∧ c.b1 0x10 = 0 then 0 else 1
    takes := fun c d => takesBoth (got (genPvk c d)).1 (got (genDst c d)).1
    check := fun c d => orElse (firstError [genPvk c d, genDst c d])
      (firstFail
        [ (!formatSuits (c.b1 0x10) (got (genDst c d)).1.alg, stKeyUsage),
          (c.b1 0x11 == 0 && decide (c.b1 0x13 < field (got (genPvk c d)).1.params 3 1), stBadParam) ])
    eff := pinGenerateEff }

/-! ## EMV (R305 to R308) -/

/-- A byte with odd parity in its lowest bit. -/
def oddParity (b : Byte) : Byte :=
  let v := b.toNat / 2
  BitVec.ofNat 8 (2 * v + (if oneBits v % 2 = 0 then 1 else 0))

/-- The block Y of a PAN and PSN by MKD (R305; option B's decimalisation of the digest is EMV Book 2's: log entry 41). -/
def emvY (mkd : Nat) (pan psn : List Nat) : Bytes :=
  let l := pan ++ psn
  if mkd = 1 ∧ 16 < pan.length then
    packNibbles ((takeDigits (sha1 (packNibbles (if l.length % 2 = 0 then l else 0 :: l)))).take 16)
  else packNibbles (rightmost 16 l)

/-- The complement of a block. -/
def flipAll (b : Bytes) : Bytes := b.map fun x => x ^^^ 0xFF

/-- The card master key (R305). -/
def cardKey (mkd : Nat) (imk : Bytes) (pan psn : List Nat) : Bytes :=
  let y := emvY mkd pan psn
  if mkd = 2 then (aesEnc imk (zeroBytes 8 ++ y) ++ aesEnc imk (flipAll (zeroBytes 8 ++ y))).take imk.length
  else (tdesEnc imk y ++ tdesEnc imk (flipAll y)).map oddParity

/-- The session key of a card key (R306). -/
def sessionKey (aes : Bool) (skd : Nat) (mk atc : Bytes) : Bytes :=
  if skd = 1 then mk
  else if aes then (aesEnc mk (fitTo 16 (atc ++ [0xF0])) ++ aesEnc mk (fitTo 16 (atc ++ [0x0F]))).take mk.length
  else tdesEnc mk (fitTo 8 (atc ++ [0xF0])) ++ tdesEnc mk (fitTo 8 (atc ++ [0x0F]))

/-- The MAC of R307 with a padding method for TDES. -/
def emvMac (aes : Bool) (pad : Nat) (sk data : Bytes) : Bytes :=
  if aes then (aesCmac sk data).take 8 else isoMac3 sk (isoPad (pad == 2) data)

/-- A PSN of two BCD digits. -/
def psnOk (v : Nat) : Bool := decide (v / 16 ≤ 9) && decide (v % 16 ≤ 9)
def psnOf (v : Nat) : List Nat := [v / 16, v % 16]

/-- An issuer master key of a usage. -/
def imkPerm (usage : Nat) (r : Record) : Bool := hClass r.handle == 5 && r.usage == usage && r.mode == mX

/-- Whether MKD does not suit the master key's algorithm (R305). -/
def mkdUnsuited (mkd : Nat) (r : Record) : Bool := isAes r.alg != (mkd == 2)

/-- The 0x5xxx cards (R295). -/
def payCard (opcode : Nat) : Card := { tenantCard opcode 4 with unit := fun _ => .lane, loads := fun c => some (c.b8 0), handles := fun c => [c.b8 0], route := fun c => some (c.b8 0) }

/-! ### ARQC_VERIFY (R309) -/

/-- Parameters of ARQC_VERIFY. -/
def arqcParams (c : Cmd) : Bool :=
  let m := c.b1 0x0A
  decide (c.b1 8 ≤ 2) && decide (c.b1 9 ≤ 1) && decide (m ≤ 2) && decide (c.b1 0x0B ≤ 2) && psnOk (c.b1 0x0D) && panOk c 0x0C 0x10 true &&
    !(c.b1 8 == 0 && decide (16 < c.b1 0x0C)) && decide (1 ≤ c.b1 0x1B) && zeros c.p 0x2A 6 &&
    (if m = 2 then decide (c.b1 0x1A ≤ 8) else c.b1 0x1A == 0 && zeros c.p 0x1C 4 && zeros c.p 0x30 8) && (m == 1 || zeros c.p 0x28 2)

/-- The master key of ARQC_VERIFY and the session key it gives. -/
def arqcKey (c : Cmd) (d : Dev) := useKey c d (c.b8 0) (imkPerm uE0) 1
def arqcSession (c : Cmd) (x : Record × Bytes) : Bytes :=
  sessionKey (isAes x.1.alg) (c.b1 9) (cardKey (c.b1 8) x.2 (panOf c 0x0C 0x10) (psnOf (c.b1 0x0D))) (slice c.p 0x0E 2)

/-- The ARPC by method (R308). -/
def arpcOf (c : Cmd) (aes : Bool) (sk : Bytes) : Bytes :=
  let arqc := slice c.p 0x20 8
  if c.b1 0x0A = 1 then
    let x := xorBytes arqc (slice c.p 0x28 2 ++ zeroBytes 6)
    if aes then (aesEnc sk (x ++ zeroBytes 8)).take 8 else tdesEnc sk x
  else if c.b1 0x0A = 2 then (emvMac aes 2 sk (arqc ++ slice c.p 0x1C 4 ++ slice c.p 0x30 (c.b1 0x1A))).take 4
  else []

/-- The effect of ARQC_VERIFY. -/
def arqcEff (c : Cmd) (d : Dev) : Dev × Fin :=
  let x := got (arqcKey c d)
  let aes := isAes x.1.alg
  let sk := arqcSession c x
  let d1 := useOnce d c.k x.1
  if emvMac aes (c.b1 0x0B) sk (slice c.p 0x38 (c.b1 0x1B)) = slice c.p 0x20 8 then (d1, okUsing [x.1] (arpcOf c aes sk) [] [])
  else (d1, failWith stCryptogramMismatch)

/-- ARQC_VERIFY, opcode 0x5001. -/
def cardArqcVerify : Card :=
  { payCard 0x5001 with
    lenOk := fun e => decide (56 ≤ eParamLen e) && decide (eParamLen e ≤ 311) && decide (eDataLen e = 0)
    lenLate := fun c => decide (eParamLen c.entry = 56 + c.b1 0x1B)
    paramOk := arqcParams
    takes := fun c d => [((got (arqcKey c d)).1, 1)]
    check := fun c d => orElse (firstError [arqcKey c d])
      (let r := (got (arqcKey c d)).1
       firstFail [(mkdUnsuited (c.b1 8) r, stKeyUsage), (isAes r.alg != (c.b1 0x0B == 0), stBadParam)])
    eff := arqcEff }

/-! ### EMV_SCRIPT (R310) -/

def scriptKey (c : Cmd) (d : Dev) := useKey c d (c.b8 0) (imkPerm (if c.b1 8 = 0 then uE1 else uE2)) 1

/-- Padding method 2 to a block length. -/
def pad2 (n : Nat) (b : Bytes) : Bytes := b ++ [0x80] ++ zeroBytes ((n - (b.length + 1) % n) % n)

/-- The effect of EMV_SCRIPT. -/
def scriptEff (c : Cmd) (d : Dev) : Dev × Fin :=
  let x := got (scriptKey c d)
  let aes := isAes x.1.alg
  let sk := sessionKey aes 0 (cardKey (c.b1 9) x.2 (panOf c 0x0A 0x10) (psnOf (c.b1 0x0B))) (slice c.p 0x0C 2)
  let d1 := useOnce d c.k x.1
  if c.b1 8 = 0 then (d1, okUsing [x.1] (emvMac aes 2 sk c.data) [] [])
  else
    let out := cbcEnc aes sk (zeroBytes (blockLen aes)) (pad2 (blockLen aes) c.data)
    (d1, okUsing [x.1] (natLe 4 out.length) out [])

/-- EMV_SCRIPT, opcode 0x5003. -/
def cardEmvScript : Card :=
  { payCard 0x5003 with
    lenOk := lens 32 1 1024 0
    paramOk := fun c => decide (c.b1 8 ≤ 1) && decide (c.b1 9 ≤ 2) && psnOk (c.b1 0x0B) && panOk c 0x0A 0x10 true &&
      !(c.b1 9 == 0 && decide (16 < c.b1 0x0A)) && zeros c.p 0x0E 2 && zeros c.p 0x1A 6
    takes := fun c d => [((got (scriptKey c d)).1, 1)]
    check := fun c d => orElse (firstError [scriptKey c d])
      (let r := (got (scriptKey c d)).1
       firstFail [(mkdUnsuited (c.b1 9) r, stKeyUsage),
        (c.b1 8 == 1 && decide (c.cap < (pad2 (blockLen (isAes r.alg)) c.data).length), stBadLength)])
    eff := scriptEff }

/-! ### CVC (R311, R312) -/

def cvcKey (c : Cmd) (d : Dev) :=
  useKey c d (c.b8 0) (fun r => hClass r.handle == 6 && r.usage == uC0 && modeIn (if c.b1 8 = 0 then [mC, mG] else [mC, mV]) r) 1

/-- The card verification code under a key. -/
def cvcOf (c : Cmd) (x : Record × Bytes) : List Nat :=
  let dd := packNibbles (padRight 32 0 (panOf c 0x0A 0x10 ++ nibbles (slice c.p 0x0C 2) ++ (nibbles (slice c.p 0x0E 2)).take 3))
  let e := if isAes x.1.alg then aesEnc x.2 dd else tdesEnc x.2 (xorBytes (des false (x.2.take 8) (dd.take 8)) (dd.drop 8))
  (takeDigits e).take (c.b1 9)

/-- Parameters of CVC. -/
def cvcParams (c : Cmd) : Bool :=
  decide (c.b1 8 ≤ 1) && decide (3 ≤ c.b1 9) && decide (c.b1 9 ≤ 5) && panOk c 0x0A 0x10 true && zeros c.p 0x0B 1 && bcdOk (slice c.p 0x0C 4) &&
    decide (c.b1 0x0F % 16 = 0) && (if c.b1 8 = 0 then zeros c.p 0x1A 3 else digitsOk (c.b1 9) (slice c.p 0x1A 3)) && zeros c.p 0x1D 3

/-- The effect of CVC. -/
def cvcEff (c : Cmd) (d : Dev) : Dev × Fin :=
  let x := got (cvcKey c d)
  let d1 := useOnce d c.k x.1
  let code := packNibbles (padRight 6 15 (cvcOf c x))
  if c.b1 8 = 0 then (d1, okUsing [x.1] code [] [])
  else if code = slice c.p 0x1A 3 then (d1, okUsing [x.1] [] [] []) else (d1, failWith stCvcMismatch)

/-- CVC, opcode 0x5002. -/
def cardCvc : Card :=
  { payCard 0x5002 with
    lenOk := lens 32 0 0 0
    paramOk := cvcParams
    takes := fun c d => [((got (cvcKey c d)).1, 1)]
    check := fun c d => firstError [cvcKey c d]
    eff := cvcEff }

/-! ### PAY_MAC (R313, R314) -/

/-- The usage an ALG needs. -/
def macUsage (alg : Nat) : Nat := if alg = 1 then uM1 else if alg = 3 then uM3 else uM6

/-- Parameters of PAY_MAC. -/
def payMacParams (c : Cmd) : Bool :=
  let alg := c.b1 0x19
  descOk c && decide (c.b1 0x18 ≤ 1) && (alg == 1 || alg == 3 || alg == 5) &&
    (if alg = 5 then c.b1 0x1A == 0 else c.b1 0x1A == 1 || c.b1 0x1A == 2) && decide (4 ≤ c.b1 0x1B) &&
    decide (c.b1 0x1B ≤ if alg = 5 then 16 else 8) && decide (c.b1 0x1C ≤ if ksrc c = 1 then 1 else 0) && zeros c.p 0x1D 3 &&
    (if c.b1 0x18 = 0 then zeros c.p 0x20 16 else zeros c.p (0x20 + c.b1 0x1B) (16 - c.b1 0x1B))

/-- The key record of PAY_MAC. -/
def payMacKey (c : Cmd) (d : Dev) :=
  descKey c d fun r => hClass r.handle == 3 && r.usage == macUsage (c.b1 0x19) && modeIn (if c.b1 0x18 = 0 then [mC, mG] else [mC, mV]) r

/-- Whether a working key's algorithm does not suit ALG (R313). -/
def macAlgUnsuited (c : Cmd) (r : Record) : Bool :=
  let a := workingAlg c r
  if c.b1 0x19 = 5 then !isAes a || ksrc c == 1 else if c.b1 0x19 = 3 then a != 1 || ksrc c == 2 else !isTdes a || ksrc c == 2

/-- The whole MAC under a working key. -/
def payMacOf (c : Cmd) (key : Bytes) : Bytes :=
  if c.b1 0x19 = 5 then aesCmac key c.data
  else if c.b1 0x19 = 3 then isoMac3 key (isoPad (c.b1 0x1A == 2) c.data)
  else isoMac1 key (isoPad (c.b1 0x1A == 2) c.data)

/-- The effect of PAY_MAC. -/
def payMacEff (c : Cmd) (d : Dev) : Dev × Fin :=
  let x := got (payMacKey c d)
  let d1 := useOnce d c.k x.1
  let mac := (payMacOf c (workingKey c (1 + c.b1 0x1C) (1 + c.b1 0x18) x)).take (c.b1 0x1B)
  if c.b1 0x18 = 0 then (d1, okUsing [x.1] mac [] [])
  else if mac = slice c.p 0x20 (c.b1 0x1B) then (d1, okUsing [x.1] [] [] []) else (d1, failWith stMacMismatch)

/-- PAY_MAC, opcode 0x5010. -/
def cardPayMac : Card :=
  { payCard 0x5010 with
    lenOk := lens 48 0 16777216 0
    paramOk := payMacParams
    takes := fun c d => [((got (payMacKey c d)).1, 1)]
    check := fun c d => orElse (firstError [payMacKey c d])
      (orElse (firstFail [(macAlgUnsuited c (got (payMacKey c d)).1, stKeyUsage)]) (descFail c (got (payMacKey c d)).1))
    eff := payMacEff }

/-! ## Meanings -/

/-- PIN_TRANSLATE (10 R296). -/
def execPinTranslate (k : Nat) (i : Inputs) (s : State) := s.onDev (execCard cardPinTranslate k i)
/-- PIN_VERIFY (10 R302). -/
def execPinVerify (k : Nat) (i : Inputs) (s : State) := s.onDev (execCard cardPinVerify k i)
/-- PIN_GENERATE (10 R303). -/
def execPinGenerate (k : Nat) (i : Inputs) (s : State) := s.onDev (execCard cardPinGenerate k i)
/-- PIN_CHANGE (10 R304). -/
def execPinChange (k : Nat) (i : Inputs) (s : State) := s.onDev (execCard cardPinChange k i)
/-- ARQC_VERIFY (10 R309). -/
def execArqcVerify (k : Nat) (i : Inputs) (s : State) := s.onDev (execCard cardArqcVerify k i)
/-- CVC (10 R312). -/
def execCvc (k : Nat) (i : Inputs) (s : State) := s.onDev (execCard cardCvc k i)
/-- EMV_SCRIPT (10 R310). -/
def execEmvScript (k : Nat) (i : Inputs) (s : State) := s.onDev (execCard cardEmvScript k i)
/-- PAY_MAC (10 R314). -/
def execPayMac (k : Nat) (i : Inputs) (s : State) := s.onDev (execCard cardPayMac k i)

end Sys2Proof.Machine
end

