-- ==== Sys2Proof/Machine/Metering.lean ====
section
/-! DEFINITION. The metering commands 0x6xxx (11): STS decoder keys, tokens and key changes, DLMS/COSEM frames, meter key campaigns. -/

namespace Sys2Proof.Machine

def stTidRange : Nat := 0x200D

/-! ## STS keys (R315, R316) -/

/-- The check digit of a digit string, modulus 10 (IEC 62055-41 names ISO/IEC 7812: log entry 42): true where the last digit fits. -/
def luhnOk (l : List Nat) : Bool :=
  ((l.reverse.zipIdx.map fun x => if x.2 % 2 = 0 then x.1 else if x.1 < 5 then 2 * x.1 else 2 * x.1 - 9).foldl (· + ·) 0) % 10 == 0

/-- A meter PAN: 18 digits with their check digit (R316). -/
def meterPanOk (b : Bytes) : Bool := digitsOk 18 b && luhnOk ((nibbles b).take 18)

/-- Six BCD digits as a number. -/
def bcdNat (b : Bytes) : Nat := (nibbles b).foldl (fun v x => 10 * v + x) 0

/-- The permission of a vending key. -/
def vendingPerm (r : Record) : Bool := hClass r.handle == 10 && r.usage == uOwn 2 && r.mode == mX
/-- The permission of a decoder key. -/
def decoderPerm (r : Record) : Bool := hClass r.handle == 10 && r.usage == uOwn 3 && r.mode == mB

/-- A decoder key derived from a vending key (R316). -/
def decoderKey (x : Record × Bytes) (pan : Bytes) (kt ti : Nat) : Bytes :=
  fitTo (symLen x.1.alg) (Config.stsDecoderKey (field x.1.params 0 1) x.2 pan kt (bcdNat (slice x.1.params 1 3)) ti (field x.1.params 4 1))

/-- PARAMS of a decoder key with LAST_TID 0 (R315). -/
def decoderParams (base krn kt ti : Nat) : Bytes := natLe 1 base ++ natLe 1 krn ++ natLe 1 kt ++ natLe 1 ti ++ zeroBytes 3

/-! ## Times and TIDs (R319, R320) -/

/-- Seconds of the module-time epoch after a base date, negative for a base date after it. -/
def baseOffset (base : Nat) : Int := if base = 0 then 220838400 else if base = 1 then -441849600 else -1104537600

/-- Microseconds from a base date to module time. -/
def sinceBase (d : Dev) (base : Nat) : Int := (now d : Int) + baseOffset base * 1000000

/-- The TID a token takes under a decoder key; none for TID_RANGE. -/
def nextTid (d : Dev) (r : Record) : Option Nat :=
  let t := sinceBase d (field r.params 0 1)
  let tid := max (t / 60000000).toNat (field r.params 4 3 + 1)
  if t < 0 ∨ 0xFFFFFF < tid then none else some tid

/-! ## Tokens (R317, R318, R325) -/

/-- O_e of R318. -/
def amountBase (e : Nat) : Nat := ((List.range e).map fun n => 2 ^ 14 * 10 ^ n).foldl (· + ·) 0

/-- The 16-bit amount field of an AMOUNT; none where no range holds it. -/
def amountField (a : Nat) : Option Nat :=
  ((List.range 4).find? fun e => decide (amountBase e ≤ a) && decide (a ≤ amountBase e + 16383 * 10 ^ e) && (a - amountBase e) % 10 ^ e == 0).map
    fun e => e * 2 ^ 14 + (a - amountBase e) / 10 ^ e

/-- The data block of a class 0 or class 2 token, its CRC computed over class and the rest (R317 step 1). -/
def tokenBlock (cls subclass rnd tid value : Nat) : Nat :=
  let head := subclass * 2 ^ 60 + rnd * 2 ^ 56 + tid * 2 ^ 32 + value * 2 ^ 16
  head + Config.stsCrc (cls * 2 ^ 64 + head) % 2 ^ 16

/-- The 66-bit token value of an enciphered block: the class bits change places with bits 28 and 27 (R317 step 3). -/
def transpose (cls v : Nat) : Nat := bits v 28 27 * 2 ^ 64 + (v - bits v 28 27 * 2 ^ 27) + cls * 2 ^ 27

/-- A token from its data block under a decoder key. -/
def stsTokenOf (cls : Nat) (x : Record × Bytes) (block : Nat) : Nat := transpose cls (Config.stsEncipher x.1.alg x.2 block % 2 ^ 64)

/-- `n` decimal digits as ASCII, most significant first. -/
def decimal : (n v : Nat) → Bytes
  | 0, _ => []
  | n + 1, v => decimal n (v / 10) ++ [BitVec.ofNat 8 (0x30 + v % 10)]

/-- A token entry (R325). -/
def tokenEntry (t : Nat) : Bytes := natLe 9 t ++ zeroBytes 3 ++ decimal 20 t

/-- The cards of the metering commands (R324). -/
def meterCard (opcode : Nat) : Card := { tenantCard opcode 5 with unit := fun _ => .lane, loads := fun c => some (c.b8 0), handles := fun c => [c.b8 0], route := fun c => some (c.b8 0) }

/-! ### STS_DECODER_KEY (R326) -/

/-- A base date not after module time. -/
def baseOk (d : Dev) (base : Nat) : Bool := decide (0 ≤ sinceBase d base)

/-- Parameters of STS_DECODER_KEY. -/
def stsKeyParams (c : Cmd) : Bool :=
  hVersion (c.b8 8) == 0 && meterPanOk (slice c.p 0x10 10) && decide (c.b1 0x1A ≤ 3) && decide (c.b1 0x1B ≤ 99) && decide (c.b1 0x1C ≤ 2) &&
    c.b1 0x1D == 1 && expoOk (c.b1 0x1E) && zeros c.p 0x1F 1 && decide (c.b8 0x20 < c.b8 0x28)

def stsVending (c : Cmd) (d : Dev) (off : Nat) := useKey c d (c.b8 off) vendingPerm 1

/-- The effect of STS_DECODER_KEY. -/
def stsKeyEff (c : Cmd) (d : Dev) : Dev × Fin :=
  let x := got (stsVending c d 0)
  let d1 := useOnce d c.k x.1
  let n : NewKey :=
    { handle := newHandle d1 (c.b8 8) [10], alg := x.1.alg, usage := uOwn 3, mode := mB, expo := c.b1 0x1E, kcvMethod := 1,
      params := decoderParams (c.b1 0x1C) (field x.1.params 4 1) (c.b1 0x1A) (c.b1 0x1B), notBefore := c.b8 0x20, notAfter := c.b8 0x28,
      material := decoderKey x (slice c.p 0x10 10) (c.b1 0x1A) (c.b1 0x1B) }
  createAll d1 [n] (okUsing [x.1] (handleKcv n.handle n.kcv) [] [])

/-- STS_DECODER_KEY, opcode 0x6002. -/
def cardStsDecoderKey : Card :=
  { meterCard 0x6002 with
    lenOk := lens 48 0 0 0
    paramOk := stsKeyParams
    handles := fun c => [c.b8 0, c.b8 8]
    locks := fun c => [c.b8 8]
    preCheck := fun c d => firstFail [(!baseOk d (c.b1 0x1C), stBadParam)]
    takes := fun c d => [((got (stsVending c d 0)).1, 1)]
    check := fun c d => orElse (firstError [stsVending c d 0]) (createCheck c d (c.b8 8) (hClass (c.b8 8) == 10) 1)
    eff := stsKeyEff }

/-! ### STS_CREDIT_TOKEN (R327) and STS_MGMT_TOKEN (R329) -/

def tokenKey (c : Cmd) (d : Dev) := useKey c d (c.b8 0) decoderPerm 1

/-- LAST_TID of a version set with the use that issues a token, as one change of its record (R320, 06 R159). -/
def issueTid (d : Dev) (k : Nat) (r : Record) (tid : Option Nat) : Dev × Bool :=
  let t := takeValues d k r 1
  match tid with
  | none => (t.2, true)
  | some v => applyEdit t.2 { puts := [{ r with invocations := t.1, params := r.params.take 4 ++ natLe 3 v }], drops := [] }

/-- A token of a class issued under a decoder key, with the TID it carries and the 16-bit value. -/
def issueToken (c : Cmd) (d : Dev) (cls value : Nat) (tid : Option Nat) : Dev × Fin :=
  let x := got (tokenKey c d)
  let t := tid.getD (Config.freeNat 11 (c.b1 8) % 2 ^ 24)
  let r := draw d 1
  let token := stsTokenOf cls x (tokenBlock cls (c.b1 8) ((r.1.headD 0).toNat % 16) t value)
  match issueTid r.2 c.k x.1 tid with
  | (d1, true) => (d1, okUsing [x.1] (natLe 9 token ++ natLe 3 t ++ natLe 2 value) (tokenEntry token) [])
  | (d1, false) => (d1, failWith stBusy)

/-- STS_CREDIT_TOKEN, opcode 0x6001. -/
def cardStsCreditToken : Card :=
  { meterCard 0x6001 with
    lenOk := lens 16 0 0 0
    paramOk := fun c => decide (c.b1 8 ≤ 15) && zeros c.p 9 3 && (amountField (c.b4 0x0C)).isSome
    locks := fun c => [c.b8 0]
    drbg := fun _ => 1
    takes := fun c d => [((got (tokenKey c d)).1, 1)]
    check := fun c d => orElse (firstError [tokenKey c d]) (firstFail [((nextTid d (got (tokenKey c d)).1).isNone, stTidRange)])
    eff := fun c d => issueToken c d 0 ((amountField (c.b4 0x0C)).getD 0) (nextTid d (got (tokenKey c d)).1) }

/-- STS_MGMT_TOKEN, opcode 0x6004. -/
def cardStsMgmtToken : Card :=
  { meterCard 0x6004 with
    lenOk := lens 16 0 0 0
    paramOk := fun c => decide (c.b1 8 ≤ 15) && Config.stsSubclassHasValue (c.b1 8) && zeros c.p 9 3 && zeros c.p 0x0E 2
    locks := fun c => [c.b8 0]
    drbg := fun _ => 1
    takes := fun c d => [((got (tokenKey c d)).1, 1)]
    check := fun c d => orElse (firstError [tokenKey c d])
      (firstFail [(Config.stsSubclassHasTid (c.b1 8) && (nextTid d (got (tokenKey c d)).1).isNone, stTidRange)])
    eff := fun c d => issueToken c d 2 (c.b2 0x0C) (if Config.stsSubclassHasTid (c.b1 8) then nextTid d (got (tokenKey c d)).1 else none) }

/-! ### STS_KEY_CHANGE (R322, R328) -/

/-- Parameters of STS_KEY_CHANGE. -/
def keyChangeParams (c : Cmd) : Bool :=
  meterPanOk (slice c.p 0x10 10) && decide (c.b1 0x1A ≤ 3) && decide (c.b1 0x1B ≤ 99) && decide (c.b1 0x1C ≤ 2) && decide (c.b1 0x1D ≤ 1) &&
    zeros c.p 0x1E 2 && zeros c.p 0x2D 11

/-- The ACTIVE version that STS_KEY_CHANGE replaces. -/
def changedVersion (c : Cmd) (d : Dev) : Record := (activeNamed (storeOf d c.k (c.b8 0)) (c.b8 0)).getD {}

/-- Tokens of a key change (R322). -/
def changeTokens (alg : Nat) : Nat := if alg = 0x70 then 2 else 4

/-- Checks of STS_KEY_CHANGE: the replaced version and its use, the new vending key, then the rules of R322 (log entry 43). -/
def keyChangeCheck (c : Cmd) (d : Dev) : Option Nat :=
  let h := c.b8 0
  let v := changedVersion c d
  orElse (replaceCheck c d h (bit (c.b1 0x1D) 0) 1)
    (orElse (firstError [useKey c d v.handle decoderPerm 1, stsVending c d 8])
      (firstFail
        [ ((got (stsVending c d 8)).1.alg != v.alg, stKeyUsage),
          (decide (c.b1 0x1C < field v.params 0 1) || !baseOk d (c.b1 0x1C), stBadParam),
          (decide (c.cap < 32 * changeTokens v.alg), stBadLength) ]))

/-- The token set: the blocks of a decoder key transfer enciphered under the old version, in order. -/
def changeSet (old : Record × Bytes) (n : NewKey) : List Nat :=
  (List.range (changeTokens old.1.alg)).map fun j =>
    stsTokenOf 2 old (Config.stsKeyChangeBlock old.1.alg j n.material (field n.params 2 1) (field n.params 3 1) (field n.params 1 1) (field n.params 0 1))

/-- The effect of STS_KEY_CHANGE. -/
def keyChangeEff (c : Cmd) (d : Dev) : Dev × Fin :=
  let h := c.b8 0
  let x := got (stsVending c d 8)
  let old := got (useKey c d (changedVersion c d).handle decoderPerm 1)
  let d1 := useBoth d c.k x.1 old.1
  let l := storeOf d1 c.k h
  let v := changedVersion c d1
  let n := { nextVersion v (decoderKey x (slice c.p 0x10 10) (c.b1 0x1A) (c.b1 0x1B)) with
    params := decoderParams (c.b1 0x1C) (field x.1.params 4 1) (c.b1 0x1A) (c.b1 0x1B) }
  let r := replaceRun d1 l v n (c.b8 0x20) (slice c.p 0x28 5) c.i.testPasses
  let set := changeSet old n
  if r.2 = stOk then (r.1, okUsing [x.1] (handleKcv n.handle n.kcv ++ natLe 1 set.length) (set.flatMap tokenEntry) []) else (r.1, failWith r.2)

/-- STS_KEY_CHANGE, opcode 0x6003. -/
def cardStsKeyChange : Card :=
  { meterCard 0x6003 with
    lenOk := lens 56 0 0 64
    paramOk := keyChangeParams
    handles := fun c => [c.b8 0, c.b8 8]
    locks := fun c => [c.b8 0]
    busyOnHold := true
    takes := fun c d => takesBoth (got (stsVending c d 8)).1 (got (useKey c d (changedVersion c d).handle decoderPerm 1)).1
    check := keyChangeCheck
    eff := keyChangeEff }

/-! ## DLMS/COSEM frames (R332 to R334) -/

/-- SC of a frame: its suite, A and E. -/
def scSuite (sc : Nat) : Nat := sc % 16
def scA (sc : Nat) : Bool := bit sc 4
def scE (sc : Nat) : Bool := bit sc 5

/-- SC and AK_HANDLE permitted together (R332, R333). -/
def scOk (sc ak : Nat) : Bool := decide (sc < 128) && (scA sc || scE sc) && (scA sc || ak == 0)

/-- A block cipher key (usage 94) and an authentication key (usage 95). -/
def ekPerm (r : Record) : Bool := hClass r.handle == 11 && r.usage == uOwn 4 && r.mode == mB
def akPerm (r : Record) : Bool := hClass r.handle == 11 && r.usage == uOwn 5 && r.mode == mC

/-- The keys of a frame. -/
def frameEk (c : Cmd) (d : Dev) := useKey c d (c.b8 0) ekPerm 1
def frameAk (c : Cmd) (d : Dev) := useKey c d (c.b8 8) akPerm 1
/-- Handles of a frame's keys. -/
def frameHandles (c : Cmd) (sc : Nat) : List Nat := c.b8 0 :: (if scA sc then [c.b8 8] else [])

/-- Key checks of a frame: both keys, then the suite of each (R332). -/
def frameCheck (c : Cmd) (d : Dev) (sc : Nat) : Option Nat :=
  orElse (firstError (frameEk c d :: (if scA sc then [frameAk c d] else [])))
    (firstFail [(field (got (frameEk c d)).1.params 0 1 != scSuite sc || (scA sc && field (got (frameAk c d)).1.params 0 1 != scSuite sc), stKeyUsage)])

/-- One use of each key of a frame. -/
def frameUse (c : Cmd) (d : Dev) (sc : Nat) : Dev :=
  let d1 := useOnce d c.k (got (frameEk c d)).1
  if scA sc then useOnce d1 c.k (got (frameAk c d)).1 else d1

/-- The records a frame used. -/
def frameUsed (c : Cmd) (d : Dev) (sc : Nat) : List Record := (got (frameEk c d)).1 :: (if scA sc then [(got (frameAk c d)).1] else [])

/-- The additional data of a frame (R333). -/
def frameAad (sc : Nat) (ak apdu : Bytes) : Bytes :=
  if scA sc then natLe 1 sc ++ ak ++ (if scE sc then [] else apdu) else []

/-- The 12-byte tag of a frame with a ciphertext (empty when E is 0). -/
def frameTag (sc : Nat) (ek ak iv apdu ct : Bytes) : Bytes := (gcmTag ek iv (frameAad sc ak apdu) (if scE sc then ct else [])).take 12

/-! ### DLMS_PROTECT (R335) -/

/-- The protected frame. -/
def protectedFrame (c : Cmd) (ek ak : Bytes) : Bytes :=
  let sc := c.b1 0x20
  let ic := slice c.p 0x24 4
  let iv := slice c.p 0x10 8 ++ ic
  let body := if scE sc then gcmText ek iv c.data else c.data
  natLe 1 sc ++ ic ++ body ++ (if scA sc then frameTag sc ek ak iv c.data body else [])

/-- DLMS_PROTECT, opcode 0x6010. -/
def cardDlmsProtect : Card :=
  { meterCard 0x6010 with
    lenOk := lens 40 1 65536 0
    paramOk := fun c => scOk (c.b1 0x20) (c.b8 8) && zeros c.p 0x21 3
    handles := fun c => frameHandles c (c.b1 0x20)
    writesOut := fun _ => true
    takes := fun c d => (frameUsed c d (c.b1 0x20)).map fun r => (r, 1)
    check := fun c d => frameCheck c d (c.b1 0x20)
    eff := fun c d =>
      let out := protectedFrame c (got (frameEk c d)).2 (got (frameAk c d)).2
      (frameUse c d (c.b1 0x20), okUsing (frameUsed c d (c.b1 0x20)) (natLe 4 out.length) [] [(c.b8 0x18, out)]) }

/-! ### DLMS_UNPROTECT (R336) -/

/-- SC of the frame given. -/
def givenSc (c : Cmd) : Nat := field c.data 0 1

/-- Whether the frame is as long as its SC requires, and its APDU at most 65,536 bytes (log entry 44). -/
def frameLenOk (c : Cmd) : Bool :=
  let n := c.data.length
  if scA (givenSc c) then decide (17 ≤ n) && decide (n ≤ 65553) else decide (6 ≤ n) && decide (n ≤ 65541)

/-- The effect of DLMS_UNPROTECT. -/
def unprotectEff (c : Cmd) (d : Dev) : Dev × Fin :=
  let sc := givenSc c
  let ic := slice c.data 1 4
  let iv := slice c.p 0x10 8 ++ ic
  let ek := (got (frameEk c d)).2
  let ak := (got (frameAk c d)).2
  let n := c.data.length - 5 - (if scA sc then 12 else 0)
  let body := slice c.data 5 n
  let apdu := if scE sc then gcmText ek iv body else body
  let d1 := frameUse c d sc
  if scA sc && frameTag sc ek ak iv apdu body != c.data.drop (5 + n) then (d1, failWith stTagFail)
  else (d1, okUsing (frameUsed c d sc) (ic ++ natLe 1 sc ++ zeroBytes 3 ++ natLe 4 n) [] (if n = 0 then [] else [(c.b8 0x18, apdu)]))

/-- DLMS_UNPROTECT, opcode 0x6011. -/
def cardDlmsUnprotect : Card :=
  { meterCard 0x6011 with
    lenOk := lens 32 6 65553 0
    handles := fun c => frameHandles c (givenSc c)
    writesOut := fun c => frameLenOk c
    preCheck := fun c _ => firstFail [(!scOk (givenSc c) (c.b8 8), stBadParam), (!frameLenOk c, stBadLength)]
    takes := fun c d => (frameUsed c d (givenSc c)).map fun r => (r, 1)
    check := fun c d => frameCheck c d (givenSc c)
    eff := unprotectEff }

/-! ### METER_KEY_ROTATE (R337) -/

/-- One 32-byte entry of a batch. -/
structure RotateEntry where
  kek : Nat
  target : Nat
  retireAt : Nat
  drop : Bool
  formed : Bool
deriving DecidableEq, Repr

/-- The entries of a batch. -/
def rotateEntries (data : Bytes) : List RotateEntry :=
  (chunks 32 data).map fun b =>
    { kek := field b 0 8, target := field b 8 8, retireAt := field b 0x10 8, drop := bit (field b 0x18 1) 0,
      formed := decide (field b 0x18 1 ≤ 1) && zeros b 0x19 7 && hVersion (field b 8 8) == 0 }

/-- A key that a campaign may rotate. -/
def rotatable (r : Record) : Bool :=
  r.expo == mS && ((hClass r.handle == 11 && (r.usage == uOwn 4 || r.usage == uOwn 5)) || (hClass r.handle == 1 && r.usage == uK0 && isAes r.alg))

/-- A master key that sends: class 1, usage K0, AES, mode B or E, as strong as the key it wraps (06 R161). -/
def rotateKek (wrapped : Nat) (r : Record) : Bool :=
  kekPerm true r && r.usage == uK0 && isAes r.alg && decide (strength wrapped ≤ strength r.alg)

/-- A reply entry. -/
def rotateReply (st : Nat) (kcv : Bytes) (handle : Nat) (wrapped : Bytes) : Bytes :=
  natLe 2 st ++ natLe 1 wrapped.length ++ fitTo 5 kcv ++ natLe 8 handle ++ fitTo 40 wrapped ++ zeroBytes 8

/-- The copies that context k holds of records changed away from their holders, brought up to date. -/
def noteTransferred (d : Dev) (k : Nat) (l : List Change) : Dev :=
  l.foldl (fun d x => match x with
    | .put r => if holds d r.handle then d else modCtx d k fun c => { c with transferred :=
        (c.transferred.filter fun y => !(y.handle == r.handle && y.chainPos == r.chainPos)) ++ [r] }
    | .drop t => if holds d t.handle then d else modCtx d k fun c => { c with transferred := c.transferred.filter fun y => y.handle != t.handle }
    | _ => d) d

/-- Checks of one entry. -/
def rotateCheck (c : Cmd) (d : Dev) (e : RotateEntry) : Option Nat :=
  let v := (activeNamed (storeOf d c.k e.target) e.target).getD {}
  let kek0 := e.kek - hVersion e.kek
  orElse (firstFail [(!e.formed, stBadParam)])
    (orElse (firstError [readKey c d e.kek])
      (orElse (firstError [useKey c d (if keyOf e.kek = keyOf e.target then v.handle else kek0) (rotateKek v.alg) 1])
        (orElse (tenantStep c d e.target)
          (orElse (firstFail [(!(ctxOf d c.k).locksHeld.contains (keyOf e.target), stBusy)])
            (orElse (replaceCheck c d e.target e.drop 1) (firstFail [(!rotatable v, stKeyUsage)]))))))

/-- One entry: the replacement, then the wrap under the active master key, or under the version replaced where the entry names one key. -/
def rotateOne (c : Cmd) (d : Dev) (e : RotateEntry) : Dev × Nat × Bytes :=
  match rotateCheck c d e with
  | some st => (d, st, rotateReply st [] 0 [])
  | none =>
    let l := storeOf d c.k e.target
    let v := (activeNamed l e.target).getD {}
    let same := keyOf e.kek == keyOf e.target
    let r := draw d (symLen v.alg)
    let n := nextVersion v r.1
    let before := r.2.vmp.changes.length
    let x := replaceRun r.2 l v n e.retireAt (zeroBytes 5) c.i.testPasses
    let d1 := noteTransferred x.1 c.k (x.1.vmp.changes.drop before)
    if x.2 != stOk then (d1, x.2, rotateReply x.2 [] 0 [])
    else
      let kek := got (readKey c d1 (if same then v.handle else e.kek - hVersion e.kek))
      let st := if same then stOkRetiring else stOk
      (useOnce d1 c.k kek.1, st, rotateReply st n.kcv n.handle (keyWrap kek.2 n.material))

/-- The entries in order: the state, the count that succeeded, the replies. -/
def rotateAll (c : Cmd) : List RotateEntry → Dev × Nat × Bytes → Dev × Nat × Bytes
  | [], a => a
  | e :: t, a =>
    let r := rotateOne c a.1 e
    rotateAll c t (r.1, a.2.1 + (if r.2.1 = stOk ∨ r.2.1 = stOkRetiring then 1 else 0), a.2.2 ++ r.2.2)

/-- METER_KEY_ROTATE, opcode 0x6020. -/
def cardMeterKeyRotate : Card :=
  { tenantCard 0x6020 5 with
    lenOk := fun e => lens 0 32 65536 0 e && decide (eDataLen e % 32 = 0) && decide (eDataLen e / 32 ≤ eReplyUnits e)
    unit := fun _ => .lane
    loads := fun c => ((rotateEntries c.data).find? fun e => e.formed).map RotateEntry.kek
    handles := fun c => ((rotateEntries c.data).filter fun e => e.formed && hTenant e.kek == c.tenant && hTenant e.target == c.tenant).flatMap
      fun e => [e.kek, e.target]
    locks := fun c => (((rotateEntries c.data).filter fun e => e.formed && hTenant e.target == c.tenant).map RotateEntry.target).foldl insertNat []
    skipHeld := true
    drbg := fun _ => 1
    eff := fun c d =>
      let l := rotateEntries c.data
      let r := rotateAll c l (d, 0, [])
      (r.1, okData (natLe 4 r.2.1 ++ natLe 4 (l.length - r.2.1)) r.2.2) }

/-! ### METER_KEY_LOAD (R338) -/

/-- Parameters of METER_KEY_LOAD: those of KEY_UNWRAP with SUITE in PARAMS0. -/
def meterLoadParams (c : Cmd) : Bool := unwrapParamOk c && isAes (c.b1 0x10)

/-- The wrapping key: class 11, usage 96, mode D, as strong as the key. -/
def meterWrapPerm (c : Cmd) (r : Record) : Bool :=
  hClass r.handle == 11 && r.usage == uOwn 6 && r.mode == mD && decide (strength (c.b1 0x10) ≤ strength r.alg)

/-- Class 11 usage 94 or 95, or class 1 usage K0, and the combination permitted. -/
def meterLoadCombo (c : Cmd) : Bool :=
  let cls := hClass (c.b8 0)
  ((cls == 11 && (c.b2 0x12 == uOwn 4 || c.b2 0x12 == uOwn 5)) || (cls == 1 && c.b2 0x12 == uK0)) &&
    comboOk cls (c.b2 0x12) (c.b1 0x10) (c.b1 0x14) && paramsUsageOk cls (c.b2 0x12) (c.b1 0x10) (natLe 1 (c.b1 0x16) ++ zeroBytes 6)

/-- The effect of METER_KEY_LOAD. -/
def meterLoadEff (c : Cmd) (d : Dev) : Dev × Fin :=
  let w := got (useKey c d (c.b8 8) (meterWrapPerm c) 1)
  let d1 := useOnce d c.k w.1
  match keyUnwrap w.2 c.data with
  | none => (d1, failWith stTagFail)
  | some m =>
    let n := unwrapNew c d1 m
    if (slice c.p 0x18 5).any (· != 0) && n.kcv != slice c.p 0x18 5 then (d1, failWith stKeyCheckFail)
    else createAll d1 [n] (okUsing [w.1] (handleKcv n.handle n.kcv) [] [])

/-- METER_KEY_LOAD, opcode 0x6021. -/
def cardMeterKeyLoad : Card :=
  { meterCard 0x6021 with
    lenOk := fun e => lens 48 24 40 0 e && decide (eDataLen e % 8 = 0)
    paramOk := meterLoadParams
    handles := fun c => [c.b8 0, c.b8 8]
    locks := fun c => [c.b8 0]
    loads := fun c => some (c.b8 8)
    takes := fun c d => [((got (useKey c d (c.b8 8) (meterWrapPerm c) 1)).1, 1)]
    check := fun c d => orElse (tenantStep c d (c.b8 0))
      (orElse (firstError [useKey c d (c.b8 8) (meterWrapPerm c) 1])
        (createCheck c d (c.b8 0) (meterLoadCombo c) 1))
    eff := meterLoadEff }

/-! ## Meanings -/

/-- STS_CREDIT_TOKEN (11 R327). -/
def execStsCreditToken (k : Nat) (i : Inputs) (s : State) := s.onDev (execCard cardStsCreditToken k i)
/-- STS_DECODER_KEY (11 R326). -/
def execStsDecoderKey (k : Nat) (i : Inputs) (s : State) := s.onDev (execCard cardStsDecoderKey k i)
/-- STS_KEY_CHANGE (11 R328). -/
def execStsKeyChange (k : Nat) (i : Inputs) (s : State) := s.onDev (execCard cardStsKeyChange k i)
/-- STS_MGMT_TOKEN (11 R329). -/
def execStsMgmtToken (k : Nat) (i : Inputs) (s : State) := s.onDev (execCard cardStsMgmtToken k i)
/-- DLMS_PROTECT (11 R335). -/
def execDlmsProtect (k : Nat) (i : Inputs) (s : State) := s.onDev (execCard cardDlmsProtect k i)
/-- DLMS_UNPROTECT (11 R336). -/
def execDlmsUnprotect (k : Nat) (i : Inputs) (s : State) := s.onDev (execCard cardDlmsUnprotect k i)
/-- METER_KEY_ROTATE (11 R337). -/
def execMeterKeyRotate (k : Nat) (i : Inputs) (s : State) := s.onDev (execCard cardMeterKeyRotate k i)
/-- METER_KEY_LOAD (11 R338). -/
def execMeterKeyLoad (k : Nat) (i : Inputs) (s : State) := s.onDev (execCard cardMeterKeyLoad k i)

end Sys2Proof.Machine
end

