-- ==== Sys2Proof/Machine/PublicKey.lean ====
section
/-! DEFINITION. The public-key commands 0x3xxx (09): PK_SIGN, PK_VERIFY, PK_DECRYPT, PK_KEM, PK_PUBLIC, EMV_CERT, TR34. -/

namespace Sys2Proof.Machine

def stSignatureMismatch : Nat := 0x4005
def stDecryptFail : Nat := 0x4006
def stTokenRejected : Nat := 0x4007

/-! ## Schemes (R271) -/

/-- Whether a signature scheme code is defined. -/
def schemeOk (s : Nat) : Bool := (decide (1 ≤ s) && decide (s ≤ 6)) || (decide (0x10 ≤ s) && decide (s ≤ 0x12)) || s == 0x20 || s == 0x30



/-- Whether a scheme suits an algorithm. -/
def schemeSuits (s alg : Nat) : Bool :=
  if s ≤ 6 then isRsa alg else if s ≤ 0x12 then isEcc alg else if s = 0x20 then alg == 0x33 else isMldsa alg

/-- An RSA key of fewer than 2,048 bits, which serves EMV certificates only (R268). -/
def smallRsa (r : Record) : Bool := isRsa r.alg && decide (recBits r < 2048)

/-- Bytes of a signature under a key (R271; FIPS 204). -/
def sigLen (alg bits : Nat) : Nat :=
  if isRsa alg then bits / 8 else if alg = 0x30 then 64 else if alg = 0x31 then 96 else if alg = 0x32 then 132 else if alg = 0x33 then 64
  else if alg = 0x48 then 2420 else if alg = 0x49 then 3309 else 4627

/-- A usage S0 or S1. -/
def isSigUsage (u : Nat) : Bool := u == uS0 || u == uS1

/-- SCHEME, INPUT and CTX_LEN as PK_SIGN and PK_VERIFY permit them. -/
def schemeParams (c : Cmd) : Bool :=
  schemeOk (c.b1 8) && decide (c.b1 9 ≤ 1) && (c.b1 9 == 0 || decide (schemeHash (c.b1 8) ≠ 0)) && (c.b1 8 == 0x30 || c.b1 0x0A == 0)

/-- Input data of the length that INPUT gives. -/
def schemeData (c : Cmd) : Bool := c.b1 9 != 1 || decide (schemeHash (c.b1 8) = 0) || decide (c.dlen = schemeHash (c.b1 8))

/-- The ML-DSA context string. -/
def schemeCtx (c : Cmd) : Bytes := slice c.p 0x10 (c.b1 0x0A)

/-! ### PK_SIGN (R272) -/

def signPerm (c : Cmd) (r : Record) : Bool :=
  hClass r.handle == 8 && isSigUsage r.usage && r.mode == mS && schemeSuits (c.b1 8) r.alg && !smallRsa r

/-- The effect of PK_SIGN. -/
def pkSignEff (c : Cmd) (d : Dev) : Dev × Fin :=
  let x := got (useKey c d (c.b8 0) (signPerm c) 1)
  let n := sigLen x.1.alg (recBits x.1)
  let sig := fitTo n (pkSign (c.b1 8) x.1.alg n x.2 c.data (c.b1 9) (schemeCtx c) d.ent.draws)
  (useOnce (draw d 32).2 c.k x.1, okUsing [x.1] (natLe 2 n) sig [])

/-- PK_SIGN, opcode 0x3001. -/
def cardPkSign : Card :=
  { tenantCard 0x3001 2 with
    lenOk := fun e => decide (16 ≤ eParamLen e) && decide (eDataLen e ≤ 16777216)
    lenLate := fun c => decide (eParamLen c.entry = 16 + c.b1 0x0A) && schemeData c
    paramOk := fun c => schemeParams c && zeros c.p 0x0B 5
    handles := fun c => [c.b8 0]
    route := fun c => some (c.b8 0)
    unit := fun _ => .pk
    takes := fun c d => [((got (useKey c d (c.b8 0) (signPerm c) 1)).1, 1)]
    drbg := fun _ => 1
    check := fun c d =>
      match useKey c d (c.b8 0) (signPerm c) 1 with
      | .error st => some st
      | .ok x => firstFail [(decide (c.cap < sigLen x.1.alg (recBits x.1)), stBadLength)]
    eff := pkSignEff }

/-! ### PK_VERIFY (R273) -/

def verifyPerm (c : Cmd) (r : Record) : Bool :=
  hClass r.handle == 9 && isSigUsage r.usage && r.mode == mV && schemeSuits (c.b1 8) r.alg && !smallRsa r

/-- The effect of PK_VERIFY: one use, whatever the outcome. -/
def pkVerifyEff (c : Cmd) (d : Dev) : Dev × Fin :=
  let x := got (useKey c d (c.b8 0) (verifyPerm c) 1)
  let sig := slice c.p (0x10 + c.b1 0x0A) (c.b2 0x0C)
  let good := decide (sig.length = sigLen x.1.alg (recBits x.1)) &&
    pkVerify (c.b1 8) x.1.alg x.2 c.data (c.b1 9) (schemeCtx c) sig
  (useOnce d c.k x.1, if good then okUsing [x.1] [] [] [] else failWith stSignatureMismatch)

/-- PK_VERIFY, opcode 0x3002. -/
def cardPkVerify : Card :=
  { tenantCard 0x3002 2 with
    lenOk := fun e => decide (16 ≤ eParamLen e) && decide (eDataLen e ≤ 16777216)
    lenLate := fun c => decide (eParamLen c.entry = 16 + c.b1 0x0A + c.b2 0x0C) && schemeData c
    paramOk := fun c => schemeParams c && zeros c.p 0x0B 1 && zeros c.p 0x0E 2
    handles := fun c => [c.b8 0]
    route := fun c => some (c.b8 0)
    unit := fun _ => .pk
    takes := fun c d => [((got (useKey c d (c.b8 0) (verifyPerm c) 1)).1, 1)]
    check := fun c d => firstError [useKey c d (c.b8 0) (verifyPerm c) 1]
    eff := pkVerifyEff }

/-! ### PK_DECRYPT (R274) -/

def decryptPerm (r : Record) : Bool := hClass r.handle == 8 && isRsa r.alg && r.usage == uD1 && r.mode == mD && !smallRsa r

/-- The effect of PK_DECRYPT. -/
def pkDecryptEff (c : Cmd) (d : Dev) : Dev × Fin :=
  let x := got (useKey c d (c.b8 0) decryptPerm 1)
  let d1 := useOnce (draw d 32).2 c.k x.1
  match oaepDecrypt x.2 c.data with
  | none => (d1, failWith stDecryptFail)
  | some m =>
    let pt := m.take (recBits x.1 / 8 - 66)
    (d1, okUsing [x.1] (natLe 2 pt.length) pt [])

/-- PK_DECRYPT, opcode 0x3003. -/
def cardPkDecrypt : Card :=
  { tenantCard 0x3003 2 with
    lenOk := lens 16 0 512 0
    paramOk := fun c => zeros c.p 8 8
    handles := fun c => [c.b8 0]
    route := fun c => some (c.b8 0)
    unit := fun _ => .pk
    takes := fun c d => [((got (useKey c d (c.b8 0) decryptPerm 1)).1, 1)]
    drbg := fun _ => 1
    check := fun c d =>
      match useKey c d (c.b8 0) decryptPerm 1 with
      | .error st => some st
      | .ok x => firstFail [(decide (c.data.length ≠ recBits x.1 / 8), stBadLength)]
    eff := pkDecryptEff }

/-! ### PK_KEM (R275) -/

/-- Bytes of an ML-KEM ciphertext. -/
def kemLen (alg : Nat) : Nat := if alg = 0x40 then 768 else if alg = 0x41 then 1088 else 1568

def kemPerm (c : Cmd) (r : Record) : Bool :=
  isKem r.alg && r.usage == uD1 && (if c.b1 8 = 0 then hClass r.handle == 9 && r.mode == mE else hClass r.handle == 8 && r.mode == mD)

/-- PARAMS of the record PK_KEM creates. -/
def kemParams (c : Cmd) : Bytes := natLe 1 (c.b1 0x1D) ++ zeroBytes 6

/-- The record PK_KEM creates. -/
def kemNew (c : Cmd) (d : Dev) (secret : Bytes) : NewKey :=
  { handle := newHandle d (c.b8 0x10) [hClass (c.b8 0x10)], alg := 0x12, usage := c.b2 0x1A, mode := c.b1 0x19, expo := c.b1 0x1C,
    kcvMethod := c.b1 0x18, params := kemParams c, notBefore := c.b8 0x20, notAfter := c.b8 0x28, material := fitTo 32 secret }

/-- Whether PK_KEM's target is an AES-256 record of class 1 or 4 in a permitted combination. -/
def kemUsageOk (c : Cmd) : Bool :=
  (hClass (c.b8 0x10) == 1 || hClass (c.b8 0x10) == 4) && comboOk (hClass (c.b8 0x10)) (c.b2 0x1A) 0x12 (c.b1 0x19)

/-- Checks of PK_KEM: its key, then the target, then the lengths. -/
def kemCheck (c : Cmd) (d : Dev) : Option Nat :=
  match useKey c d (c.b8 0) (kemPerm c) 1 with
  | .error st => some st
  | .ok x =>
    orElse (createCheck c d (c.b8 0x10) (kemUsageOk c) 1)
      (firstFail [(if c.b1 8 = 0 then decide (c.cap < kemLen x.1.alg) else decide (c.data.length ≠ kemLen x.1.alg), stBadLength)])

/-- The effect of PK_KEM. -/
def pkKemEff (c : Cmd) (d : Dev) : Dev × Fin :=
  let x := got (useKey c d (c.b8 0) (kemPerm c) 1)
  let d1 := useOnce (draw d 32).2 c.k x.1
  let secret := if c.b1 8 = 0 then Config.kemSecret x.1.alg x.2 d.ent.draws else Config.kemDecaps x.1.alg x.2 c.data
  let ct := if c.b1 8 = 0 then fitTo (kemLen x.1.alg) (Config.kemCiphertext x.1.alg x.2 d.ent.draws) else []
  let n := kemNew c d1 secret
  createAll d1 [n] (okUsing [x.1] (handleKcv n.handle n.kcv) ct [])

/-- PK_KEM, opcode 0x3004. -/
def cardPkKem : Card :=
  { tenantCard 0x3004 2 with
    lenOk := lens 48 0 1568 0
    lenLate := fun c => c.b1 8 != 0 || decide (c.dlen = 0)
    paramOk := fun c => decide (c.b1 8 ≤ 1) && zeros c.p 9 7 && hVersion (c.b8 0x10) == 0 && kcvMethodOk (hClass (c.b8 0x10)) 0x12 (c.b1 0x18) &&
      expoOk (c.b1 0x1C) && zeros c.p 0x1E 2 && decide (c.b8 0x20 < c.b8 0x28) &&
      paramsReservedOk (hClass (c.b8 0x10)) (c.b2 0x1A) 0x12 (kemParams c)
    handles := fun c => [c.b8 0, c.b8 0x10]
    route := fun c => some (c.b8 0)
    locks := fun c => [c.b8 0x10]
    unit := fun _ => .pk
    takes := fun c d => [((got (useKey c d (c.b8 0) (kemPerm c) 1)).1, 1)]
    drbg := fun _ => 1
    check := kemCheck
    eff := pkKemEff }

/-! ### PK_PUBLIC (R276) -/

/-- The public exponent a material's last four bytes give, as EXP reads it: 0 for 65,537, 1 for 3, 2 for any other odd value from 5; 3 for none. -/
def expOf (e : Nat) : Nat := if e = 65537 then 0 else if e = 3 then 1 else if e % 2 = 1 ∧ 5 ≤ e then 2 else 3

/-- Whether an imported encoding agrees with R264: lengths, a point on its curve, an odd modulus of MOD_BITS bits, the exponent. -/
def encodingOk (alg bits exp : Nat) (enc : Bytes) : Bool :=
  if isRsa alg then
    let n := beNat (enc.take (bits / 8))
    decide (enc.length = bits / 8 + 4) && decide (2 ^ (bits - 1) ≤ n) && decide (n % 2 = 1) && expOf (beNat (enc.drop (bits / 8))) == exp
  else if isEcc alg then decide (enc.length = pubLen alg 0 + 1) && enc.head? == some 4 && onCurve alg enc
  else decide (enc.length = pubLen alg 0)

/-- MOD_BITS of an import. -/
def importBits (c : Cmd) : Nat := if isRsa (c.b1 0x10) then modBitsOf (c.b1 0x10) (c.b2 0x14) else 0

/-- PARAMS of an imported public key. -/
def importParams (c : Cmd) : Bytes := if isRsa (c.b1 0x10) then rsaParams (importBits c) (c.b1 0x16) else zeroBytes 7

/-- The EXPORT value of a public record whose creation gives none: a free value among the three (06 R147; log entry 4). -/
def openExport (h : Nat) : Nat := [mE, mN, mS].getD (Config.freeNat 10 h % 3) mN

/-- The record PK_PUBLIC imports. -/
def publicNew (c : Cmd) (d : Dev) : NewKey :=
  let h := newHandle d (c.b8 8) [9]
  { handle := h, alg := c.b1 0x10, usage := c.b2 0x12, mode := c.b1 0x11, expo := openExport h, kcvMethod := 3, params := importParams c,
    notBefore := c.b8 0x18, notAfter := c.b8 0x20, material := pubMaterial (c.b1 0x10) c.data }

/-- Parameters of PK_PUBLIC. -/
def publicParamOk (c : Cmd) : Bool :=
  decide (c.b1 0 ≤ 1) && zeros c.p 1 7 && zeros c.p 0x17 1 && zeros c.p 0x28 8 &&
    (if c.b1 0 = 0 then zeros c.p 0x10 24
     else hClass (c.b8 8) == 9 && hVersion (c.b8 8) == 0 && algOk (c.b1 0x10) && !isTdes (c.b1 0x10) && !isAes (c.b1 0x10) && !isSts (c.b1 0x10) &&
      (c.b1 0x11 == mV || c.b1 0x11 == mE) && (isSigUsage (c.b2 0x12) || c.b2 0x12 == uD1) && decide (c.b8 0x18 < c.b8 0x20) &&
      (if isRsa (c.b1 0x10) then modBitsOk (c.b1 0x10) (c.b2 0x14) && decide (c.b1 0x16 ≤ 2) else zeros c.p 0x14 3))

/-- A record whose public key may be exported. -/
def publicPerm (r : Record) : Bool := hClass r.handle == 8 || hClass r.handle == 9

/-- The public key encoding of a record (R267). -/
def encodingOf (x : Record × Bytes) : Bytes :=
  pubEncoding x.1.alg (if hClass x.1.handle = 8 then publicOf x.1.alg (recBits x.1) x.2 else x.2)

/-- Checks of PK_PUBLIC; an encoding that does not fit the reply is BAD_LENGTH (log entry 37). -/
def publicCheck (c : Cmd) (d : Dev) : Option Nat :=
  if c.b1 0 = 0 then
    match sentKey c d (c.b8 8) publicPerm with
    | .error st => some st
    | .ok x => firstFail [(decide (c.cap < (encodingOf x).length), stBadLength)]
  else
    orElse (tenantStep c d (c.b8 8))
      (orElse (firstFail [ (!comboOk 9 (c.b2 0x12) (c.b1 0x10) (c.b1 0x11), stKeyUsage),
          (!encodingOk (c.b1 0x10) (importBits c) (c.b1 0x16) c.data, stBadParam) ])
        (createCheck c d (c.b8 8) true (chainLenOf (pubLen (c.b1 0x10) (importBits c)))))

/-- The effect of PK_PUBLIC. -/
def pkPublicEff (c : Cmd) (d : Dev) : Dev × Fin :=
  if c.b1 0 = 0 then
    let x := got (sentKey c d (c.b8 8) publicPerm)
    (d, okUsing [] ((sha256 (encodingOf x)).take 5) (encodingOf x) [])
  else
    let n := publicNew c d
    createAll d [n] (okUsing [] n.kcv [] [])

/-- Whether an import makes a trust anchor. -/
def anchors (p : Bytes) : Bool := field p 0 1 == 1 && field p 0x12 2 == uS1

/-- PK_PUBLIC, opcode 0x3005. -/
def cardPkPublic : Card :=
  { tenantCard 0x3005 2 with
    logs := .onParams anchors
    lenOk := fun e => decide (eParamLen e = 48)
    lenLate := fun c => c.b1 0 != 0 || decide (c.dlen = 0)
    paramOk := publicParamOk
    handles := fun c => [c.b8 8]
    route := fun c => some (c.b8 8)
    locks := fun c => if c.b1 0 = 1 then [c.b8 8] else []
    unit := fun c => if c.b1 0 = 1 then .pk else .none
    approval := fun c _ => if anchors c.p then some (3, actionDigest c) else none
    check := publicCheck
    eff := pkPublicEff }

/-! ## EMV certificates (R277, R278) -/

/-- The signer's key: RSA of at most 1,984 bits with exponent 3 or 65,537, usage S1. -/
def emvPerm (c : Cmd) (r : Record) : Bool :=
  isRsa r.alg && r.usage == uS1 && decide (recBits r ≤ 1984) && decide (field r.params 2 1 ≤ 1) &&
    (if c.b1 8 = 2 then hClass r.handle == 9 && r.mode == mV else hClass r.handle == 8 && r.mode == mS)

/-- The input data of EMV_CERT, taken apart. -/
structure EmvData where
  head : Bytes := []
  expo : Bytes := []
  modulus : Bytes := []
  rest : Bytes := []
  static : Bytes := []
deriving DecidableEq, Repr

/-- A one-byte length and so many bytes; what follows. -/
def lv (b : Bytes) : Option (Bytes × Bytes) :=
  match b with
  | [] => none
  | n :: t => if n.toNat ≤ t.length then some (t.take n.toNat, t.drop n.toNat) else none

/-- SD_LEN and the static data, to the end; at most 4,096 bytes. -/
def sdAll (b : Bytes) : Option Bytes :=
  let n := field b 0 2
  if b.length = n + 2 ∧ n ≤ 4096 then some (b.drop 2) else none

/-- The input data of OP 0 and OP 1, and of OP 2 with a signer of N bytes; none where a length disagrees. -/
def emvParse (op format N : Nat) (b : Bytes) : Option EmvData :=
  match op with
  | 0 =>
    match lv (b.drop 15) with
    | none => none
    | some (e, t) => match lv t with
      | none => none
      | some (m, t2) => match (if m.length ≤ 248 then sdAll t2 else none) with
        | none => none
        | some sd => some { head := b.take 15, expo := e, modulus := m, static := sd }
  | 1 => if b.length < 2 then none else (sdAll (b.drop 2)).map fun sd => { head := b.take 2, static := sd }
  | _ =>
    if b.length < N then none
    else if format = 3 then (sdAll (b.drop N)).map fun sd => { head := b.take N, static := sd }
    else match lv (b.drop N) with
      | none => none
      | some (r, t) => match lv t with
        | none => none
        | some (e, t2) =>
          if format = 4 then (sdAll t2).map fun sd => { head := b.take N, expo := e, rest := r, static := sd }
          else if t2.isEmpty then some { head := b.take N, expo := e, rest := r } else none

/-- Bytes before the key field, by format (Book 2; log entry 38). -/
def emvKeyAt (format : Nat) : Nat := if format = 2 then 15 else 21
/-- Bytes of the key field. -/
def emvKeyRoom (format N : Nat) : Nat := if format = 2 then N - 36 else N - 42

/-- The recovered data of a format around its hash: the block from the format byte to the padding's end, and the bytes hashed after it. -/
def emvBlock (body after : Bytes) : Bytes := [0x6A] ++ body ++ sha1 (body ++ after) ++ [0xBC]

/-- A field padded with 0xBB. -/
def padBB (n : Nat) (b : Bytes) : Bytes := (b ++ List.replicate n 0xBB).take n

/-- The block of an ICC public key certificate (format 0x04). -/
def iccBlock (N : Nat) (e : EmvData) : Bytes :=
  let body := [0x04] ++ e.head ++ [0x01, 0x01] ++ natLe 1 e.modulus.length ++ natLe 1 e.expo.length ++ padBB (N - 42) e.modulus
  emvBlock body (e.modulus.drop (N - 42) ++ e.expo ++ e.static)

/-- The block of signed static application data (format 0x03). -/
def ssadBlock (N : Nat) (e : EmvData) : Bytes := emvBlock ([0x03, 0x01] ++ e.head ++ padBB (N - 26) []) e.static

/-- Whether recovered data has its header, trailer, format and hash. -/
def recoveredOk (format N : Nat) (x : Bytes) (e : EmvData) : Bool :=
  x.take 1 == [0x6A] && x.drop (N - 1) == [0xBC] && field x 1 1 == format &&
    slice x (N - 21) 20 == (sha1 (slice x 1 (N - 22) ++ e.rest ++ e.expo ++ e.static)).take 20

/-- The modulus in recovered data with its remainder; none where the lengths disagree. -/
def recoveredModulus (format N : Nat) (x : Bytes) (e : EmvData) : Option Bytes :=
  let len := field x (emvKeyAt format - 2) 1
  let room := emvKeyRoom format N
  let m := slice x (emvKeyAt format) (min len room) ++ e.rest
  if m.length = len ∧ (len ≤ room → e.rest = []) then some m else none

/-- The RSA code of a modulus length; 0 for none (R264). -/
def rsaCode (bits : Nat) : Nat :=
  if bits < 1024 then 0 else if bits ≤ 2048 then 0x20 else if bits ≤ 3072 then 0x21 else if bits ≤ 4096 then 0x22 else 0

/-- The record that TARGET receives. -/
def emvNew (d : Dev) (h : Nat) (m e : Bytes) : NewKey :=
  let h1 := newHandle d h [9]
  { handle := h1, alg := rsaCode (8 * m.length), usage := uS1, mode := mV, expo := openExport h1, kcvMethod := 3,
    params := rsaParams (8 * m.length) (expOf (beNat e)), notBefore := 0, notAfter := noLimit, material := m ++ natBe 4 (beNat e) }

/-- Bytes of the signer's modulus. -/
def signerLen (r : Record) : Nat := recBits r / 8

/-- What OP 2 recovers under a signer. -/
def emvRecovered (x : Record × Bytes) (e : EmvData) : Bytes := fitTo (signerLen x.1) (rsaRecover x.2 e.head)

/-- Checks of EMV_CERT: the key and the input's form; a certificate that does not verify is refused by the effect, before anything else (R278). -/
def emvCheck (c : Cmd) (d : Dev) : Option Nat :=
  match useKey c d (c.b8 0) (emvPerm c) 1 with
  | .error st => some st
  | .ok x =>
    let N := signerLen x.1
    match emvParse (c.b1 8) (c.b1 9) N c.data with
    | none => some stBadLength
    | some e =>
      let reply := if c.b1 8 = 0 then N + (e.modulus.length - (N - 42)) else N
      let target := if c.b8 0x10 ≠ 0 then
          match recoveredModulus (c.b1 9) N (emvRecovered x e) e with
          | none => some stBadLength
          | some m => orElse (tenantStep c d (c.b8 0x10)) (orElse
              (firstFail [(rsaCode (8 * m.length) == 0 || expOf (beNat e.expo) == 3, stKeyUsage)])
              (createCheck c d (c.b8 0x10) true (chainLenOf (m.length + 4))))
        else none
      if c.b1 8 = 2 ∧ recoveredOk (c.b1 9) N (emvRecovered x e) e = false then none
      else orElse (firstFail [(c.b1 8 == 0 && !(e.expo.length == 1 || e.expo.length == 3), stBadParam)])
        (orElse target (firstFail [(decide (c.cap < reply), stBadLength)]))

/-- The effect of EMV_CERT. -/
def emvCertEff (c : Cmd) (d : Dev) : Dev × Fin :=
  let x := got (useKey c d (c.b8 0) (emvPerm c) 1)
  let N := signerLen x.1
  let e := (emvParse (c.b1 8) (c.b1 9) N c.data).getD {}
  if c.b1 8 = 2 then
    let d1 := useOnce d c.k x.1
    let y := emvRecovered x e
    if !recoveredOk (c.b1 9) N y e then (d1, failWith stSignatureMismatch)
    else if c.b8 0x10 = 0 then (d1, okUsing [x.1] [] y [])
    else match recoveredModulus (c.b1 9) N y e with
      | none => (d1, failWith stBadLength)
      | some m => createAll d1 [emvNew d1 (c.b8 0x10) m e.expo] (okUsing [x.1] [] y [])
  else
    let d1 := useOnce (draw d 32).2 c.k x.1
    let sign := fun block : Bytes => rsaRaw N x.2 block
    if c.b1 8 = 0 then
      let rem := e.modulus.drop (N - 42)
      (d1, okUsing [x.1] (natLe 2 N ++ natLe 2 rem.length) (sign (iccBlock N e) ++ rem) [])
    else (d1, okUsing [x.1] [] (sign (ssadBlock N e)) [])

/-- Whether OP 2's FORMAT holds a key. -/
def emvKeyFormat (c : Cmd) : Bool := c.b1 8 == 2 && (c.b1 9 == 2 || c.b1 9 == 4)

/-- EMV_CERT, opcode 0x3010. -/
def cardEmvCert : Card :=
  { tenantCard 0x3010 2 with
    lenOk := fun e => decide (eParamLen e = 24)
    paramOk := fun c => decide (c.b1 8 ≤ 2) && (if c.b1 8 = 2 then decide (2 ≤ c.b1 9) && decide (c.b1 9 ≤ 4) else c.b1 9 == 0) && zeros c.p 0x0A 6 &&
      (c.b8 0x10 == 0 || (emvKeyFormat c && hClass (c.b8 0x10) == 9 && hVersion (c.b8 0x10) == 0))
    handles := fun c => if c.b8 0x10 = 0 then [c.b8 0] else [c.b8 0, c.b8 0x10]
    route := fun c => some (c.b8 0)
    locks := fun c => if c.b8 0x10 = 0 then [] else [c.b8 0x10]
    unit := fun _ => .pk
    drbg := fun c => if c.b1 8 = 2 then 0 else 1
    takes := fun c d => [((got (useKey c d (c.b8 0) (emvPerm c) 1)).1, 1)]
    check := emvCheck
    eff := emvCertEff }

/-! ## TR34 (R279, R280) -/

/-- A full-length RSA-2048 or RSA-3072 key. -/
def transportRsa (r : Record) : Bool := (r.alg == 0x20 && recBits r == 2048) || (r.alg == 0x21 && recBits r == 3072)

def krdPerm (c : Cmd) (r : Record) : Bool :=
  transportRsa r && r.usage == uD1 && (if c.b1 0 = 2 then hClass r.handle == 9 && r.mode == mE else hClass r.handle == 8 && r.mode == mD)

def kdhPerm (c : Cmd) (r : Record) : Bool :=
  isRsa r.alg && !smallRsa r && r.usage == uS0 && (if c.b1 0 = 2 then hClass r.handle == 8 && r.mode == mS else hClass r.handle == 9 && r.mode == mV)

/-- The nonces this module issued to a tenant for a KRD_HANDLE that still serve: not older than 600 s. -/
def servingNonce (d : Dev) (tenant handle : Nat) (nonce : Bytes) : Option Nonce :=
  d.keys.nonces.find? fun x => x.tenant == tenant && x.handle == handle && x.nonce == nonce && decide (now d ≤ x.issuedAt + 600000000)

/-- A nonce issued; the oldest dropped beyond 256. -/
def issueNonce (d : Dev) (tenant handle : Nat) (nonce : Bytes) : Dev :=
  let l := d.keys.nonces ++ [{ tenant, handle, nonce, issuedAt := now d }]
  { d with keys.nonces := l.drop (l.length - 256) }

/-- LAST_SIGNED of a KDH record (R266). -/
def lastSigned (r : Record) : Nat := field r.params 3 4

/-- A record with LAST_SIGNED raised. -/
def withLastSigned (r : Record) (s : Nat) : Record := { r with params := r.params.take 3 ++ natLe 4 s }

/-- Whether a one-pass token is fresh: within 300 s of module time, later than LAST_SIGNED, within its field (R279; 17 R495). -/
def oneFresh (d : Dev) (r : Record) (s : Nat) : Bool :=
  decide (s * 1000000 ≤ now d + 300000000) && decide (now d ≤ s * 1000000 + 300000000) && decide (lastSigned r < s) && decide (s ≤ 0xFFFFFFFF)

/-- The strength of a token's content encryption, in the order of R161. -/
def contentStrength (t : Config.Token) : Nat :=
  if t.tdesContent then (if t.contentKeyBits ≤ 128 then 1 else 2) else if t.contentKeyBits ≤ 128 then 3 else if t.contentKeyBits ≤ 192 then 4 else 5

/-- The token in the input data. -/
def tokenIn (c : Cmd) : Option Config.Token := Config.tr34Parse c.data

/-- The keys a TR34 names, under R158: the receiver's, the sender's, and the one sent. -/
def krdKey (c : Cmd) (d : Dev) (n : Nat) : Except Nat (Record × Bytes) := useKey c d (c.b8 8) (krdPerm c) n
def kdhKey (c : Cmd) (d : Dev) : Except Nat (Record × Bytes) := useKey c d (c.b8 0x10) (kdhPerm c) 1
def tr34Sent (c : Cmd) (d : Dev) : Except Nat (Record × Bytes) := sentKey c d (c.b8 0x18) exportPerm

/-- The nonce a built token carries. -/
def sentNonce (c : Cmd) : Bytes := if c.b1 1 = 1 then c.data else []

/-- The token OP 2 builds. -/
def builtToken (c : Cmd) (d : Dev) : Bytes :=
  let s := got (tr34Sent c d)
  Config.tr34Build (got (krdKey c d 1)).2 (got (kdhKey c d)).2 s.2 (s.1.usage, s.1.mode, s.1.expo) (sentNonce c) (now d, d.ent.draws)

/-- Checks of TR34 on its keys; OP 1 begins with the token's form, and a key already there is found before its creation (R280). -/
def tr34Check (c : Cmd) (d : Dev) : Option Nat :=
  match c.b1 0 with
  | 0 => firstError [krdKey c d 0]
  | 1 => orElse (firstError [krdKey c d 1, kdhKey c d]) (orElse (tenantStep c d (c.b8 0x18)) (firstFail [((tokenIn c).isNone, stBadParam)]))
  | _ => orElse (firstError [krdKey c d 1, kdhKey c d, tr34Sent c d]) (firstFail [(decide (c.cap < (builtToken c d).length), stBadLength)])

/-- Whether a verified token passes its freshness check, and the state with its nonce consumed. -/
def freshness (c : Cmd) (d : Dev) (t : Config.Token) (kdh : Record) : Bool × Dev :=
  if t.twoPass then
    match servingNonce d c.tenant (c.b8 8) t.nonce with
    | none => (false, d)
    | some x => (true, { d with keys.nonces := d.keys.nonces.erase x })
  else (oneFresh d kdh t.signedAt, d)

/-- The new key written, with LAST_SIGNED of the sender's record raised by a one-pass token, as one edit. -/
def tr34Create (c : Cmd) (d : Dev) (t : Config.Token) (n : NewKey) (used : List Record) : Dev × Fin :=
  let raised := if t.twoPass then [] else match readStep d c.k (c.b8 0x10) with
    | .ok y => [withLastSigned y.1 t.signedAt]
    | .error _ => []
  match applyEdit d { puts := n.chain d.keys.floor 0x55 0 ++ raised, drops := [] } with
  | (d1, true) => (d1, okUsing used (handleKcv n.handle n.kcv) [] [])
  | (d1, false) => (d1, failWith stBusy)

/-- OP 1 from its signature on (R280 checks 2 to 6). -/
def tr34Import (c : Cmd) (d : Dev) (t : Config.Token) : Dev × Fin :=
  let krd := got (krdKey c d 1)
  let kdh := got (kdhKey c d)
  let d1 := useOnce d c.k kdh.1
  if !Config.tr34Verify kdh.2 c.data then (d1, failWith stSignatureMismatch)
  else
    let f := freshness c d1 t kdh.1
    if !f.1 then (f.2, failWith stTokenRejected)
    else
      let d2 := useOnce (draw f.2 32).2 c.k krd.1
      match Config.tr34Open krd.2 t.envelope with
      | none => (d2, failWith stDecryptFail)
      | some b =>
        let h := c.b8 0x18
        match orElse (blockFault b (hClass h) (contentStrength t) (c.b1 2) (zeroBytes 7)) (createCheck c d2 h true 1) with
        | some st => (d2, failWith st)
        | none =>
          let n : NewKey :=
            { handle := newHandle d2 h [hClass h], alg := blockAlg b, usage := b.usage, mode := b.mode, expo := b.expo, kcvMethod := c.b1 2,
              params := zeroBytes 7, notBefore := 0, notAfter := noLimit, material := b.key }
          tr34Create c d2 t n [krd.1, kdh.1]

/-- The effect of TR34. -/
def tr34Eff (c : Cmd) (d : Dev) : Dev × Fin :=
  match c.b1 0 with
  | 0 =>
    let r := draw d 16
    (issueNonce r.2 c.tenant (c.b8 8) r.1, ok r.1)
  | 1 => match tokenIn c with
    | none => (d, failWith stBadParam)
    | some t => tr34Import c d t
  | _ =>
    let krd := got (krdKey c d 1)
    let kdh := got (kdhKey c d)
    let s := got (tr34Sent c d)
    let t := builtToken c d
    (useOnce (useOnce (draw d 64).2 c.k krd.1) c.k kdh.1, okUsing [krd.1, kdh.1] (natLe 4 t.length ++ s.1.kcv) t [])

/-- Parameters of TR34. -/
def tr34ParamOk (c : Cmd) : Bool :=
  decide (c.b1 0 ≤ 2) && (if c.b1 0 = 2 then decide (c.b1 1 ≤ 1) else c.b1 1 == 0) &&
    (if c.b1 0 = 1 then decide (1 ≤ c.b1 2) && decide (c.b1 2 ≤ 3) && hVersion (c.b8 0x18) == 0 else c.b1 2 == 0) && zeros c.p 3 5 &&
    (c.b1 0 != 0 || zeros c.p 0x10 16) && zeros c.p 0x20 8

/-- TR34, opcode 0x3020. A one-pass import holds the sender's record exclusively (R279). -/
def cardTr34 : Card :=
  { tenantCard 0x3020 2 with
    lenOk := fun e => decide (eParamLen e = 40)
    lenLate := fun c => match c.b1 0 with
      | 0 => decide (c.dlen = 0)
      | 1 => decide (1 ≤ c.dlen)
      | _ => decide (c.dlen = if c.b1 1 = 1 then 16 else 0)
    paramOk := tr34ParamOk
    handles := fun c => if c.b1 0 = 0 then [c.b8 8] else [c.b8 8, c.b8 0x10, c.b8 0x18]
    route := fun c => if c.b1 0 = 2 then some (c.b8 0x18) else none
    locks := fun c => if c.b1 0 = 1 then (match tokenIn c with
      | some t => if t.twoPass then [c.b8 0x18] else [c.b8 0x18, c.b8 0x10]
      | none => [c.b8 0x18]) else []
    busyOnHold := true
    unit := fun c => if c.b1 0 = 0 then .none else .pk
    takes := fun c d => if c.b1 0 = 0 then [] else if c.b1 0 = 1 then [((got (kdhKey c d)).1, 1)] else [((got (krdKey c d 1)).1, 1), ((got (kdhKey c d)).1, 1)]
    drbg := fun _ => 1
    check := tr34Check
    eff := tr34Eff }

/-! ## Meanings -/

/-- PK_SIGN (R272). -/
def execPkSign (k : Nat) (i : Inputs) (s : State) := s.onDev (execCard cardPkSign k i)
/-- PK_VERIFY (R273). -/
def execPkVerify (k : Nat) (i : Inputs) (s : State) := s.onDev (execCard cardPkVerify k i)
/-- PK_DECRYPT (R274). -/
def execPkDecrypt (k : Nat) (i : Inputs) (s : State) := s.onDev (execCard cardPkDecrypt k i)
/-- PK_KEM (R275). -/
def execPkKem (k : Nat) (i : Inputs) (s : State) := s.onDev (execCard cardPkKem k i)
/-- PK_PUBLIC (R276). -/
def execPkPublic (k : Nat) (i : Inputs) (s : State) := s.onDev (execCard cardPkPublic k i)
/-- EMV_CERT (R278). -/
def execEmvCert (k : Nat) (i : Inputs) (s : State) := s.onDev (execCard cardEmvCert k i)
/-- TR34 (R280). -/
def execTr34 (k : Nat) (i : Inputs) (s : State) := s.onDev (execCard cardTr34 k i)

end Sys2Proof.Machine
end

