-- ==== Sys2Proof/Machine/RingCmds.lean ====
section
/-! DEFINITION. The ring commands 0x7xxx (12 R372 to R376): RING_CONFIG, RING_CTRL, RING_VIEW, PLACEMENT_MAP_READ. -/

namespace Sys2Proof.Machine

/-! ### RING_CONFIG (R373) -/

/-- Lengths of RING_CONFIG by OP. -/
def ringConfigLens (c : Cmd) : Bool :=
  if c.b1 0 = 1 then decide (c.dlen = 1056)
  else decide (c.dlen = 0) && decide ((if c.b1 0 = 0 then 2112 else if c.b1 0 = 2 then 1088 else 0) ≤ c.cap)

/-- Checks of RING_CONFIG after its approval. -/
def ringConfigCheck (c : Cmd) (d : Dev) : Option Nat :=
  if c.b1 0 = 0 then firstFail [(!identityOk d, stKeyUnavailable)]
  else if c.b1 0 = 2 then firstFail [(d.ring.config.isNone, stNotReady)]
  else firstFail
    [ (!configForm c.data || !configNames d c.data, stBadParam),
      (match d.ring.config with
        | some held => decide (cfgSeq c.data ≤ cfgSeq held) || cfgRingId c.data != cfgRingId held
        | none => false, stConfigStale) ]

/-- A configuration adopted by command; a joined member hands it to the anchor, which sends it to every member, and the command completes once
every present member has sealed it (R347; log entry 31). -/
def ringConfigAdopt (c : Cmd) (d : Dev) : Dev × Fin :=
  let d1 := adoptConfig d c.data
  let others := (presentMembers d1).filter (· != memberNo d1)
  if !joined d1 || others.isEmpty then (d1, ok [])
  else
    let d2 := sendConfig d1 (if isAnchor d1 then 255 else d1.ring.acting)
    let d3 := modCtx d2 c.k fun x => { x with held := some { status := stOk, result := zeroBytes 16, data := [] } }
    ({ d3 with ring.waitAcks := d3.ring.waitAcks ++ [(c.k, others)] }, .waits (.joinedAcks others.length))

/-- The effect of RING_CONFIG. -/
def ringConfigEff (c : Cmd) (d : Dev) : Dev × Fin :=
  if c.b1 0 = 0 then
    let m := identityPublic d 1
    let p := identityPublic d 2
    (d, okData (natLe 8 d.otp.serial) (identityDigest m p ++ m ++ p))
  else if c.b1 0 = 1 then ringConfigAdopt c d
  else
    let cfg := d.ring.config.getD []
    (d, okData (natLe 8 (cfgSeq cfg)) cfg)

/-- RING_CONFIG, opcode 0x7001. -/
def cardRingConfig : Card :=
  { Card.plain 0x7001 with
    logs := .onParams fun p => field p 0 1 == 1
    lenOk := lens 8 0 1056 0
    lenLate := ringConfigLens
    paramOk := fun c => decide (c.b1 0 ≤ 2) && zeros c.p 1 7
    approval := fun c _ => if c.b1 0 = 1 then some (4, actionDigest c) else none
    drbg := fun c => if c.b1 0 = 1 then 1 else 0
    check := ringConfigCheck
    eff := ringConfigEff }

/-! ### RING_CTRL (R374) -/

/-- LOST buckets that BUCKET names: one, or every one for 0xFFFF. -/
def lostNamed (d : Dev) (b : Nat) : List Nat := allBuckets.filter fun x => (b == 0xFFFF || x == b) && (mapOf d x).st == 5

/-- LOST buckets returned to DUAL by the acting anchor (R366); one without a second member goes to SINGLE. -/
def returnLost (d : Dev) (l : List Nat) : Dev :=
  publish d (l.foldl (fun d b =>
    let e := mapOf d b
    if e.st = 5 then setMap d b { e with st := if e.secondary = 255 then 1 else 0, prior := if e.secondary = 255 then 1 else 0 } else d) d) false

/-- The effect of RING_CTRL: an orderly leave, or a request to the acting anchor, a MAP frame with number 0 (log entry 31). -/
def ringCtrlEff (c : Cmd) (d : Dev) : Dev × Fin :=
  if c.b1 0 = 0 then
    let d1 := startLeave d
    if d1.bay.ringJoin then (d1, .waits .ringLeave) else (d1, ok [])
  else
    let l := lostNamed d (c.b2 4)
    let d1 := if isAnchor d then returnLost d l else sendFrame d d.ring.acting (.map 0 (l.map fun b => (b, mapOf d b)))
    (d1, ok (natLe 2 l.length))

/-- RING_CTRL, opcode 0x7002. -/
def cardRingCtrl : Card :=
  { Card.plain 0x7002 with
    lenOk := lens 8 0 0 0
    paramOk := fun c => decide (c.b1 0 ≤ 1) && zeros c.p 1 3 && zeros c.p 6 2 &&
      (if c.b1 0 = 0 then zeros c.p 4 2 else decide (c.b2 4 < 4096) || c.b2 4 == 0xFFFF)
    check := fun _ d => firstFail [(!joined d, stNotInRing)]
    eff := ringCtrlEff }

/-! ### RING_VIEW (R375) -/

/-- STATE of a member: 0 absent, 1 present, 2 joining, 3 leaving. -/
def viewState (d : Dev) (m : Nat) : Nat :=
  if bit d.ring.present m then (if d.ring.leavers.contains m || (m == memberNo d && d.ring.st == 0x96) then 3 else 1)
  else if d.ring.joiners.contains m then 2 else 0

/-- The 16-byte entry of member m. -/
def viewEntry (d : Dev) (m : Nat) : Bytes :=
  let cfg := d.ring.config.getD []
  let me := m == memberNo d
  natLe 8 (if cfgUsed cfg m then cfgSerial cfg m else 0) ++ natLe 2 (if me then d.glb.pace else (peerOf d m).pace) ++ natLe 1 (viewState d m) ++
    natLe 1 (flag (actingOf d d.ring.present == some m) 0 + flag (standbyOf d d.ring.present == some m) 1) ++
    natLe 1 (if me || !bit d.ring.present m then 0 else hopsTo d m) ++ zeroBytes 3

/-- RING_VIEW, opcode 0x7003. -/
def cardRingView : Card :=
  { Card.plain 0x7003 with
    tenant := true, group := some 6
    lenOk := lens 0 0 0 256
    check := fun _ d => firstFail [(!joined d, stNotInRing)]
    eff := fun _ d =>
      (d, okData (natLe 4 d.ring.epoch ++ natLe 2 d.ring.present ++ natLe 1 ((actingOf d d.ring.present).getD 0) ++ natLe 1 (memberNo d) ++
        natLe 4 d.ring.mapSeq ++ natLe 1 (flag (ringDual d) 0)) ((List.range 16).flatMap (viewEntry d))) }

/-! ### PLACEMENT_MAP_READ (R376) -/

/-- A map entry's four bytes (R355). -/
def mapEntryBytes (e : MapEntry) : Bytes := natLe 1 e.primary ++ natLe 1 e.secondary ++ natLe 1 e.incoming ++ natLe 1 e.st

/-- Parameters of PLACEMENT_MAP_READ. -/
def mapReadParams (c : Cmd) : Bool :=
  decide (c.b1 0 ≤ 1) && zeros c.p 1 1 && zeros c.p 6 2 &&
    (c.b1 0 == 1 || (decide (c.b2 2 ≤ 4095) && decide (1 ≤ c.b2 4) && decide (c.b2 4 ≤ 4096 - c.b2 2)))

/-- The effect of PLACEMENT_MAP_READ. -/
def mapReadEff (c : Cmd) (d : Dev) : Dev × Fin :=
  if c.b1 0 = 0 then
    let n := min (c.b2 4) (c.cap / 4)
    (d, okData (natLe 4 d.ring.mapSeq ++ natLe 2 n) ((List.range n).flatMap fun i => mapEntryBytes (mapOf d (c.b2 2 + i))))
  else
    let b := bucketOf (c.b8 8)
    (d, ok (natLe 2 b ++ mapEntryBytes (mapOf d b) ++ zeroBytes 2 ++ natLe 4 d.ring.mapSeq))

/-- PLACEMENT_MAP_READ, opcode 0x7004. -/
def cardPlacementMapRead : Card :=
  { Card.plain 0x7004 with
    tenant := true, group := some 6
    lenOk := lens 16 0 0 0
    paramOk := mapReadParams
    check := fun c d => firstFail
      [ (c.b1 0 == 0 && c.fn != .pf, stNotPermitted),
        (c.b1 0 == 1 && c.fn != .pf && hTenant (c.b8 8) != c.tenant, stKeyNotFound),
        (!joined d, stNotInRing) ]
    eff := mapReadEff }

/-! ## Meanings -/

/-- RING_CONFIG (12 R373). -/
def execRingConfig (k : Nat) (i : Inputs) (s : State) := s.onDev (execCard cardRingConfig k i)
/-- RING_CTRL (12 R374). -/
def execRingCtrl (k : Nat) (i : Inputs) (s : State) := s.onDev (execCard cardRingCtrl k i)
/-- RING_VIEW (12 R375). -/
def execRingView (k : Nat) (i : Inputs) (s : State) := s.onDev (execCard cardRingView k i)
/-- PLACEMENT_MAP_READ (12 R376). -/
def execPlacementMapRead (k : Nat) (i : Inputs) (s : State) := s.onDev (execCard cardPlacementMapRead k i)

end Sys2Proof.Machine
end

