-- ==== Sys2Proof/Machine/Starter.lean ====
section
/-! DEFINITION. Starter (05): event flags, dispatch and pre-emption, what a dispatched task does with its core, the run limit. -/

namespace Sys2Proof.Machine

/-! ## The command of an opcode (04 R98) -/

/-- Every command card, in the table's order. -/
def allCards : List Card :=
  [cardIdentify, cardGetStatus, cardSetTenantConfig, cardGetTenantConfig, cardResetTenant, cardLogRead,
   cardVaultLoadBegin, cardVaultLoadRecords, cardVaultLoadEnd, cardVaultSave, cardVaultPoisonReport,
   cardLifecycleTransition, cardUnlockRequest, cardUnlockApprove, cardApprovalBegin, cardApprovalAdd, cardApprovalClose, cardCustodian,
   cardRootInit, cardComponentTransport, cardCardOpen, cardMaintStart, cardMaintStatus, cardMaintStop, cardShutdown] ++
  [cardKeyGenerate, cardKeyImport, cardKeyExport, cardKeyReplace, cardKeyComponent, cardKeyDestroy, cardKeyInfo, cardKeyDerive, cardAttest,
   cardSymCipher, cardAead, cardCmac, cardKeyWrap, cardKeyUnwrap,
   cardPkSign, cardPkVerify, cardPkDecrypt, cardPkKem, cardPkPublic, cardEmvCert, cardTr34] ++
  [cardPinTranslate, cardPinVerify, cardPinGenerate, cardPinChange, cardArqcVerify, cardCvc, cardEmvScript, cardPayMac,
   cardStsCreditToken, cardStsDecoderKey, cardStsKeyChange, cardStsMgmtToken, cardDlmsProtect, cardDlmsUnprotect, cardMeterKeyRotate,
   cardMeterKeyLoad, cardRingConfig, cardRingCtrl, cardRingView, cardPlacementMapRead, cardCheckValue, cardRandom]

/-- The card of an opcode, if the table of R98 has one. -/
def cardFor (op : Nat) : Option Card := allCards.find? fun c => c.opcode == op

/-- The command in context k run to its end on its core; an opcode that no card has is refused (04 R101 step 1). -/
def runTask (d : Dev) (k : Nat) (i : Inputs) : Dev :=
  match cardFor (eOpcode (ctxOf d k).entry) with
  | some card => runCard card d k i
  | none => endWith d k stBadOpcode

/-! ## Dispatch (R129, R130) -/

/-- Online cores. -/
def onlineCores (d : Dev) : Nat := (d.sch.cores.filter Core.online).length

/-- The level of the task a core runs. -/
def coreLevel (d : Dev) (c : Core) : Option Nat := c.running.map fun k => (ctxOf d k).level

/-- Online cores that run tasks at levels 2 to 7. -/
def tenantCores (d : Dev) : Nat := (d.sch.cores.filter fun c => c.online && match coreLevel d c with | some l => decide (2 ≤ l) | none => false).length

/-- The lowest-numbered free online core. -/
def freeCore (d : Dev) : Option Nat := (findAt (fun c : Core => c.online && c.running.isNone) d.sch.cores 0).map Prod.fst

/-- Whether a task of level L may take a free core. -/
def mayTakeFree (d : Dev) (level : Nat) : Bool := decide (level < 2) || decide (tenantCores d < onlineCores d - d.sch.mgmtReserve)

/-- The core whose task a task of level L pre-empts: the greatest level above L, the latest dispatched among equals (R130). -/
def victimCore (d : Dev) (level : Nat) : Option Nat :=
  let l := d.sch.cores.zipIdx.filterMap fun p =>
    match p.1.running with
    | some k =>
      let v := (ctxOf d k).level
      if p.1.online && decide (level < v) && (decide (level < 2) || decide (2 ≤ v)) then some (v, p.1.order, p.2) else none
    | none => none
  (l.foldl (fun best x => match best with
    | none => some x
    | some b => if b.1 < x.1 ∨ (b.1 = x.1 ∧ b.2.1 < x.2.1) then some x else best) none).map fun x => x.2.2

/-- A dispatch decision: the context, its core, and whether the core's task is pre-empted; levels in rising order, the next list where the head
of one may take no core. -/
def decideDispatch (d : Dev) : Option (Nat × Nat × Bool) :=
  (List.range 8).findSome? fun level =>
    match (d.sch.ready.getD level []).head? with
    | none => none
    | some k =>
      match (if mayTakeFree d level then freeCore d else none) with
      | some j => some (k, j, false)
      | none => (victimCore d level).map fun j => (k, j, true)

/-- The task on a core is saved and joins the head of its list (R130). -/
def preempt (d : Dev) (j : Nat) : Dev :=
  match (d.sch.cores.getD j {}).running with
  | some v =>
    let d1 := pushHead (leaveCore d v) v
    { d1 with sch.preemptTotal := (d1.sch.preemptTotal + 1) % 2 ^ 64 }
  | none => d

/-- A handler slot's work takes a core at level 0 for its time (R122, R124): a free one, or the core of the task R130 names. -/
def takeHandlerCore (d : Dev) : Dev :=
  match freeCore d, victimCore d 0 with
  | some _, _ => { d with sch.dispatchTotal := (d.sch.dispatchTotal + 1) % 2 ^ 64 }
  | none, some j => let d1 := preempt d j; { d1 with sch.dispatchTotal := (d1.sch.dispatchTotal + 1) % 2 ^ 64 }
  | none, none => d

/-- Context k dispatched on core j (R129). -/
def onCore (d0 : Dev) (k j : Nat) : Dev :=
  let d := modCtx (unready d0 k) k fun c => { c with code := csRunning, wait := .nothing }
  { d with sch.dispatchOrder := d.sch.dispatchOrder + 1, sch.dispatchTotal := (d.sch.dispatchTotal + 1) % 2 ^ 64,
           sch.cores := modifyAt d.sch.cores j fun c => { c with running := some k, order := d.sch.dispatchOrder + 1 } }

/-! ## Event flags (R126 to R128) -/

/-- A context read with an undefined code (R123, 15 R450): a class L alarm and a command-scope fault, under which its task ends (17 R477). -/
def badContext (d : Dev) (k : Nat) : Dev :=
  let code := (ctxOf d k).code
  let d1 := modCtx (unready (invalidCode d 2 code clsL) k) k fun c => { c with code := csWaiting, wait := .nothing, mask := 0 }
  raiseFault { scope := 0, cause := 4, subsystem := 3, unit := 0xFF, object := k, detail := 2 + 256 * code, inHandler := none } d1

/-- The decision at a post (R129, R130): where it pre-empts, the head takes the core of the task R130 names, to run there at the next
TASK_DISPATCH. A head that a free core waits for is left to that row. -/
def preemptAtPost (d : Dev) : Dev :=
  let d1 := applySch d
  match decideDispatch d1 with
  | some (k, j, true) =>
    if (ctxOf d1 k).code = csReady ∧ !d.glb.failStop then
      let d2 := onCore (preempt d1 j) k j
      { d2 with sch.toRun := d2.sch.toRun ++ [k] }
    else d
  | _ => d

/-- The lowest posted flag that a mask selects; the manual names none among several (log entry 87). -/
def flagUp (c : Ctx) : Option Nat := (List.range 32).find? fun f => bit c.mask f && decide (0 < tabGet 0 c.flags f)

/-- A context that waits for its flags and has one its mask selects consumes the post and becomes ready (R126). -/
def wakeFlag (d : Dev) (k : Nat) : Dev :=
  let c := ctxOf d k
  if c.code = csWaiting ∧ c.wait = .nothing then
    match flagUp c with
    | some f => pushReady (modCtx d k fun c => { c with flags := tabPut 0 c.flags f (tabGet 0 c.flags f - 1), mask := 0 }) k
    | none => d
  else d

/-- A post that reached the context it names (R127). -/
def takePost (d : Dev) (k f : Nat) : Dev :=
  let n := tabGet 0 (ctxOf d k).flags f
  if 15 ≤ n then
    raiseFault { scope := 0, cause := 2, subsystem := 3, unit := 0xFF, object := k, detail := 0, inHandler := none }
      { d with sch.flagOverrun := holdAt 32 (d.sch.flagOverrun + 1) }
  else
    let d1 := wakeFlag (modCtx d k fun c => { c with flags := tabPut 0 c.flags f (n + 1) }) k
    if (ctxOf d1 k).code = (ctxOf d k).code then d1 else preemptAtPost d1

/-- EVENT_FLAG_POST (R126 to R128): a post names a context and its use number; a stray one is discarded and counted. -/
def eventFlagPostEff (k useNo f : Nat) (d0 : Dev) : Dev :=
  let d := { d0 with sch.owed := d0.sch.owed.erase (k, useNo) }
  let c := ctxOf d k
  if !d.bay.fabric then d0
  else if !ctxHeld c || c.useNo != useNo then { d with sch.stray := holdAt 32 (d.sch.stray + 1) }
  else if !codeKnown c.code then badContext d k
  else takePost d k f
def execEventFlagPost (k useNo flag : Nat) (s : State) := s.onDev (eventFlagPostEff k useNo flag)

/-- TASK_WAIT_TIMER (R126): the deadline of a waiting task passes, and flag 31 is posted. -/
def taskWaitTimerEff (k : Nat) (d : Dev) : Dev :=
  if d.bay.fabric && !codeKnown (ctxOf d k).code then badContext d k
  else if (ctxOf d k).code = csWaiting ∧ (ctxOf d k).wait = .nothing then takePost d k 31 else d
def execTaskWaitTimer (k : Nat) (s : State) := s.onDev (taskWaitTimerEff k)

/-! ## What the task does -/

/-- The slot of the custodian card that a command's exchange uses, if its parameters name one (14 R413). -/
def cardSlotOf (op : Nat) (p : Bytes) : Option Nat :=
  let slot (n : Nat) : Option Nat := if n < 2 then some n else none
  if op = 0x0233 then slot (field p 0 1)
  else if op = 0x0221 ∨ op = 0x0211 then slot (field p 1 1)
  else if (op = 0x0230 ∨ op = 0x0231 ∨ op = 0x1005) ∧ field p 0 1 = 1 then slot (field p (if op = 0x1005 then 1 else 2) 1)
  else none

/-- Whether a card can take part in an exchange: opened and not used, or, for CARD_OPEN, only present (14 R413). -/
def cardFree (d : Dev) (op slot : Nat) : Bool :=
  let c := d.lcd.cards.getD slot {}
  c.present && c.exchange.isNone && (op == 0x0233 || (c.opened && !c.used))

/-- An exchange begun with the card a command names. -/
def beginExchange (d : Dev) (c : Cmd) : Dev :=
  let op := eOpcode c.entry
  match cardSlotOf op c.p with
  | some slot =>
    if cardFree d op slot then
      emit { d with lcd.cards := modifyAt d.lcd.cards slot fun x => { x with exchange := some c.k } } (.cardExchange slot op)
    else d
  | none => d

/-- Whether a command is a streamed decryption that can write to its function's memory (08 R242; 02 R54, 03 R83). -/
def mayStream (d : Dev) (c : Cmd) : Bool :=
  eOpcode c.entry == 0x2002 && !aeadEnc c && decide (65536 < c.dlen) && !c.inbound && (ctxOf d c.k).stream.isNone && !d.bay.seatHigh &&
    (ctxOf d c.k).gen == genOf d c.fn

/-- A streamed decryption that begins: its PROVISIONAL trailer, then every chunk but the last (08 R242, R243). -/
def beginStream (d : Dev) (c : Cmd) : Dev :=
  if !mayStream d c then d
  else match cipherKey c d (aeadPerm c) 1 with
    | .error _ => d
    | .ok x => match streamText c x.2 with
      | none => d
      | some out =>
        modCtx ((earlyWrites d c out).foldl (fun d o => orderedWrite d c.fn o.1 o.2) d) c.k fun x =>
          { x with stream := some (c.b8 0x10 + out.length, trailer d c 0xF0 (releasedOf out.length)) }

/-- Whether a command has the holds on the keys that it changes: those of the ring, or outside one none held by another (12 R359, 06 R165). -/
def locksReady (card : Card) (d : Dev) (c : Cmd) : Bool :=
  if joined d then (lockKeys card d c).all fun key => (ctxOf d c.k).locksHeld.contains key
  else !holdsAlone card || !(lockKeys card d c).any (heldByOther d c.k)

/-- Whether a command has passed every check before its engine starts, and runs here. -/
def mayBegin (card : Card) (d : Dev) (c : Cmd) : Bool :=
  (card.preCheck c d).isNone && ((card.approval c d).isNone || (ctxOf d c.k).approved) && (card.check c d).isNone &&
    (match card.route c with | some h => holds d h | none => true) && locksReady card d c &&
    !(needsHostRead c.entry && !c.inbound && !bmeOf d c.fn)

/-- The records whose keys an engine that begins is given: those the command names, or the version of the grant it runs under. -/
def loadedBy (card : Card) (d : Dev) (c : Cmd) : List Record :=
  if card.useLock c then (match (tn d c.tenant).grant with | some g => grantRecs d g | none => [])
  else (card.handles c).flatMap fun h =>
    let l := storeOf d c.k h
    match resolveIn l h with | some r => chainIn l r | none => []

/-- What a long operation writes as it begins: the values of the keys it uses (08 R238), the holds of R165, the bank of a root replacement (06 R170),
the vault's STATE FORMATTING (07 R223), its card exchange, and what it streams. -/
def beginWork (card : Card) (d : Dev) (c : Cmd) : Dev :=
  let d1 := reserve c.k (card.takes c d) d
  let d2 := if !joined d1 && holdsAlone card then holdKeys d1 c.k (lockKeys card d1 c) else d1
  let d3 := if eOpcode c.entry = 0x1004 ∧ isRoot c then writtenRoot d2 (c.b2 4)
    else if eOpcode c.entry = 0x0101 then { d2 with vmp.st := 0x33 } else d2
  beginExchange (beginStream d3 c) c

/-- An engine or a card step begun for the task, with a post owed to it; where all units are busy the task waits for one (08 R231). -/
def beginEngine (card : Card) (d : Dev) (c : Cmd) : Dev :=
  match takeUnit d c.k (card.unit c) (laneKey card d c) (lockedLane card d c) with
  | .offline => d
  | .waits => awaitUnit (modCtx d c.k fun x => { x with inputs := some c.i }) c.k (card.unit c) (laneKey card d c) (lockedLane card d c)
  | .got d1 =>
    let d2 := beginWork card d1 c
    modCtx { d2 with sch.owed := d2.sch.owed ++ [(c.k, (ctxOf d2 c.k).useNo)] } c.k fun x =>
      { x with engineBegun := true, inputs := some c.i, underGrant := if card.useLock c then (tn d c.tenant).grant else none,
               loaded := if (card.locks c).isEmpty then loadedBy card d c else [] }

/-- The checks on the entry that a task makes first on its core; once passed they are not made again. -/
def markPassed (d : Dev) (k : Nat) : Dev :=
  match cardFor (eOpcode (ctxOf d k).entry) with
  | some card => if (entryFail card d (ctxOf d k)).isNone then passEntry d k else d
  | none => d

/-- A command that may begin its engine reads its records first; where the vault cannot serve them it does not begin (07 R203, R213, R214). -/
def tryBegin (card : Card) (d : Dev) (c : Cmd) : Dev :=
  if !mayBegin card d c then d
  else
    let d1 := fetchRecords card d c
    if ctxHeld (ctxOf d1 c.k) && (vaultStop card d1 c).isNone then beginEngine card d1 c else d1

/-- A task that yields: what it begins first, then its wait under a mask with CANCEL, LOCK_END and TIMER in it (R126, R128). -/
def yieldTask (d0 : Dev) (k mask : Nat) (begun : Option Inputs) : Dev :=
  let d := markPassed d0 k
  let c := ctxOf d k
  let d1 := match cardFor (eOpcode c.entry), begun with
    | some card, some i =>
      if !c.policyPassed || c.engineBegun || abandoned d c then d
      else match readCommand card d k (inputsOf c i) with
        | .ok cmd => tryBegin card d cmd
        | .error _ => d
    | _, _ => d
  if (ctxOf d1 k).wait = .engine || !ctxHeld (ctxOf d1 k) then d1
  else wakeFlag (park (modCtx d1 k fun c => { c with mask := mask % 2 ^ 32 ||| 0xE0000000 }) k .nothing) k

/-- What a dispatched task does with its core. -/
def runOn (r : Run) (d : Dev) (k : Nat) : Dev :=
  match r with
  | .stays => markPassed d k
  | .yields mask begun => yieldTask d k mask begun
  | .ends i => runTask d k i

/-- TASK_DISPATCH (R129, R130): one dispatch decision, then what the task does; a task that a post has put on a core comes first. -/
def taskDispatchEff (r : Run) (d0 : Dev) : Dev :=
  if !d0.bay.fabric || d0.glb.failStop then d0
  else match d0.sch.toRun with
  | k :: t => runOn r { d0 with sch.toRun := t } k
  | [] =>
    let d := applySch d0
    match decideDispatch d with
    | none => d
    | some (k, j, pre) =>
      if (ctxOf d k).code ≠ csReady then badContext d k
      else runOn r (onCore (if pre then preempt d j else d) k j) k
def execTaskDispatch (run : Run) (s : State) := s.onDev (taskDispatchEff run)

/-! ## The run limit (R132) -/

/-- RUN_LIMIT_EXPIRY (R132, 17 R480): the task on a core is taken off it, and a command-scope fault is raised. -/
def runLimitExpiryEff (core : Nat) (d : Dev) : Dev :=
  match (d.sch.cores.getD core {}).running with
  | none => d
  | some k =>
    let d1 := modCtx (leaveCore { d with sch.runLimitHits := holdAt 32 (d.sch.runLimitHits + 1) } k) k fun c =>
      { c with code := csWaiting, wait := .nothing, mask := 0 }
    raiseFault { scope := 0, cause := 1, subsystem := 3, unit := core, object := k, detail := 0, inHandler := none } d1
def execRunLimitExpiry (core : Nat) (s : State) := s.onDev (runLimitExpiryEff core)

end Sys2Proof.Machine
end

