-- ==== Sys2Proof/Machine/Faults.lean ====
section
/-! DEFINITION. The handlers of the four error scopes (17 R480 to R484), and the rows FAULT_DETECTED to HANDLER_TIME_LIMIT. -/

namespace Sys2Proof.Machine

/-- FAULT_DETECTED (R477): a fault raised at its scope. -/
def execFaultDetected (f : FaultInfo) (s : State) := s.onDev (raiseFault f)

/-! ## Command scope (R480) -/

/-- A command ended by its fault with INTERNAL_FAULT; the acknowledgements it waits for are awaited no more (log entry 52). -/
def endFaulty (d : Dev) (k : Nat) : Dev :=
  endWith (releaseLocks { d with ring.waitAcks := d.ring.waitAcks.filter (·.1 != k) } k) k stInternalFault

/-- A command run again from its beginning on another unit, once. -/
def runAgain (d : Dev) (k : Nat) (again : Inputs) : Dev :=
  runTask (modCtx (leaveEngines (leaveCore (unready d k) k) k) k fun c => { c with code := csRunning, wait := .nothing, ranAgain := true }) k again

/-- COMMAND_SCOPE_HANDLING (R480): `second` says whether the second run of a command whose unit failed succeeds; a command that is finished
already keeps its outcome. -/
def commandScopeEff (again : Inputs) (second : Bool) (d0 : Dev) : Dev :=
  match (scopeOf d0 0).current with
  | none => d0
  | some x =>
    let d := takeHandlerCore d0
    let k := x.info.object
    let c := ctxOf d k
    if !ctxHeld c || writesHeld c then endHandling d 0 0
    else if x.info.cause = 6 && !c.ranAgain && c.held.isNone && second then
      endHandling (runAgain (modCtx d k fun c => { c with avoid := if x.info.subsystem = 4 then none else some x.info.unit }) k again) 0 0
    else endHandling (endFaulty d k) 0 1
def execCommandScopeHandling (again : Inputs) (second : Bool) (s : State) := s.onDev (commandScopeEff again second)

/-! ## Tenant scope (R481) -/

/-- A task that ends with its tenant's handling: its engine work has not begun, here or at the member it was forwarded to. -/
def endsWithTenant (n : Nat) (c : Ctx) : Bool := isOf n c && c.code != csHeld && !c.engineBegun && c.sentTo.isNone && c.held.isNone

/-- A queue pair in error disabled: its commands abandoned and counted, VF_EVENT.ADMISSION set. -/
def dropQueuePair (d : Dev) (n q : Nat) : Dev :=
  let d1 := modQp d (.vf n) q fun p => { p with enable := false, retryHold := false }
  let d2 := (ctxsWhere d1 fun c => isOf n c && c.qp == q).foldl discard d1
  modTn (modQp d2 (.vf n) q fun p => { p with inflight := 0, fenced := false }) n fun t => { t with event := setBit t.event 3 }

/-- TENANT_SCOPE_HANDLING (R481): STATE has read 0b11 since the fault was taken up; it ends with the tenant restored. -/
def tenantScopeEff (queuePairInError : Option Nat) (d : Dev) : Dev :=
  match (scopeOf d 1).current with
  | none => d
  | some x =>
    let n := x.info.object
    let d1 := forceRelease (takeHandlerCore d) n
    let d2 := (ctxsWhere d1 (endsWithTenant n)).foldl endFaulty d1
    let d3 := match queuePairInError with
      | some q => if qpExists d2 (.vf n) q then dropQueuePair d2 n q else d2
      | none => d2
    endHandling (modTn d3 n fun t => { t with st := 0 }) 1 2
def execTenantScopeHandling (queuePairInError : Option Nat) (s : State) := s.onDev (tenantScopeEff queuePairInError)

/-! ## Ring scope (R482) -/

/-- The member leaves and rejoins 1 s later (12 R349). -/
def rejoin (d : Dev) : Dev := { leaveRing d with ring.retry := true }

/-- A command outstanding at a member issued again: to the other holder of its bucket, or where none can take it to the same member (12 R365). -/
def issueAgain (m : Nat) (d : Dev) (k : Nat) : Dev :=
  let e := mapOf d (bucketOf ((ctxOf d k).routeH.getD 0))
  let h := if e.primary = m then e.secondary else e.primary
  if h = memberNo d || eligible d h then reissue m d k
  else
    let f := forwardTo { d with ring.reissues := holdAt 32 (d.ring.reissues + 1) } k m ((ctxOf d k).inputs.getD {})
    { f with ring.forwarded := d.ring.forwarded }

/-- What this member waits for from a member whose frame was lost is asked for again: replies, records, change locks (R482, 12 R365; log entry 97). -/
def askAgain (d : Dev) (m : Nat) : Dev :=
  let d1 := (ctxsWhere d fun c => ctxHeld c && c.origin.isNone && c.sentTo == some m && c.wait == .ringReply).foldl (issueAgain m) d
  let d2 := (ctxsWhere d1 ctxHeld).foldl (reask m) d1
  wakeWhere { d2 with ring.lostFrom := d2.ring.lostFrom.filter (· != m) } fun c => match c.wait with
    | .changeLock key => primaryOf d2 key == m
    | _ => false

/-- The members whose commands a tag failure concerns: those whose frames were discarded here, or the one that a fault names. -/
def lostMembers (d : Dev) (object : Nat) : List Nat := if object = memberNo d then d.ring.lostFrom else [object]

/-- RING_SCOPE_HANDLING (R482): `ok` says that EPOCH has not differed from the acting anchor's for 2 ms. A stall fails its link (log entry 53). -/
def ringScopeEff (ok : Bool) (d0 : Dev) : Dev :=
  match (scopeOf d0 2).current with
  | none => d0
  | some x =>
    let d := takeHandlerCore d0
    let m := x.info.object
    if x.info.cause = 8 then endHandling ((lostMembers d m).foldl askAgain d) 2 0
    else if x.info.cause = 5 then endHandling (failLink d (x.info.unit = 0)) 2 4
    else if x.info.cause = 9 && m != memberNo d && silent d m then
      if d.flt.noAckRetried then endHandling (reportSuspect { d with flt.noAckRetried := false } m) 2 0
      else endHandling (sendAgain { d with flt.noAckRetried := true } m) 2 4
    else if ok then endHandling d 2 0
    else endHandling (rejoin d) 2 5
def execRingScopeHandling (ok : Bool) (s : State) := s.onDev (ringScopeEff ok)

/-! ## Module scope (R483) -/

/-- Whether a module-scope fault is that of one unit: a core, a lane core, a PIN lane, a public-key unit or a check-value unit. -/
def unitFault (f : FaultInfo) : Bool :=
  (f.subsystem == 4 && f.cause != 7 && decide (f.unit < 24)) || (f.subsystem == 5 && decide (f.unit < 64)) ||
    (f.subsystem == 6 && decide (f.unit < 16)) || (f.subsystem == 7 && decide (f.unit < 16)) || (f.subsystem == 14 && decide (f.unit < 4))

/-- The command a unit serves. -/
def servedBy (d : Dev) (f : FaultInfo) : Option Nat :=
  match f.subsystem with
  | 4 => (d.sch.cores.getD f.unit {}).running
  | 5 => (d.eng.lanes.getD f.unit {}).busy
  | 6 => (d.eng.pks.getD f.unit {}).busy
  | 7 => (d.eng.pins.getD f.unit {}).busy
  | _ => (d.cvu.units.getD f.unit {}).cmd

/-- When a unit last had a fault. -/
def lastFault (d : Dev) (f : FaultInfo) : Option Nat :=
  match f.subsystem with
  | 4 => (d.sch.cores.getD f.unit {}).faultAt
  | 5 => (d.eng.lanes.getD f.unit {}).faultAt
  | 6 => (d.eng.pks.getD f.unit {}).faultAt
  | 7 => (d.eng.pins.getD f.unit {}).faultAt
  | _ => (d.cvu.units.getD f.unit {}).faultAt

/-- A public-key unit or PIN lane reset. -/
def resetUnit (up : Bool) (t : Nat) (u : EngUnit) : EngUnit := { online := u.online && up, busy := none, faultAt := some t }

/-- A check-value unit reset; a register-mode job starts over, or ends in error with a free ERR where the unit goes offline (log entry 4). -/
def resetCvuUnit (up : Bool) (t : Nat) (u : Cvu) : Cvu :=
  if u.busy && u.cmd.isNone && !up then
    { u with online := false, busy := false, error := true, err := Config.freeNat 13 t % 8, faultAt := some t }
  else { u with online := u.online && up, busy := u.busy && u.cmd.isNone, cmd := none, faultAt := some t }

/-- A unit reset, and kept in service or taken offline. -/
def setUnit (d : Dev) (f : FaultInfo) (up : Bool) : Dev :=
  let t := now d
  match f.subsystem with
  | 4 => { d with sch.cores := modifyAt d.sch.cores f.unit fun c => { c with online := c.online && up, running := none, faultAt := some t } }
  | 5 => { d with eng.lanes := modifyAt d.eng.lanes f.unit fun l => { online := l.online && up, faultAt := some t } }
  | 6 => { d with eng.pks := modifyAt d.eng.pks f.unit (resetUnit up t) }
  | 7 => { d with eng.pins := modifyAt d.eng.pins f.unit (resetUnit up t) }
  | _ => { d with cvu.units := modifyAt d.cvu.units f.unit (resetCvuUnit up t) }

/-- The task a failed unit leaves without a core or an engine waits for its command-scope handling; it is not to run again on that engine unit. -/
def strand (d : Dev) (k : Nat) (avoid : Option Nat) : Dev :=
  modCtx (leaveCore (unready d k) k) k fun c => { c with code := csWaiting, wait := .nothing, mask := 0, avoid }

/-- The fault of a unit: reset, or offline after a second within 1 s; the command it served runs again (R480); a grant on the lane ends by forced
release (08 R252); with the last core offline the module fail-stops. -/
def handleUnit (d : Dev) (served : Option Nat) (x : HeldFault) : Dev :=
  let f := x.info
  let up := match lastFault d f with | some t => decide (t + 1000000 < now d) | none => true
  let d1 := match (if f.subsystem = 5 then (d.eng.lanes.getD f.unit {}).lockedBy else none) with
    | some n => forceRelease d n
    | none => d
  let d2 := setUnit d1 f up
  let seq := nextEntrySeq d2
  let d3 := endHandling d2 3 (if up then 6 else 3)
  let d4 := match served with
    | some k => if ctxHeld (ctxOf d3 k) then
        raiseFault { scope := 0, cause := 6, subsystem := f.subsystem, unit := f.unit, object := k, detail := 0, inHandler := none }
          (strand d3 k (if f.subsystem = 4 then none else some f.unit))
      else d3
    | none => d3
  if f.subsystem = 4 && onlineCores d4 = 0 then
    failStopFor d4 { info := { f with cause := 0x10, unit := 0xFF, object := 4 }, causedBy := seq }
  else d4

/-- MODULE_SCOPE_HANDLING (R483): `restored` says whether the subsystem could be restored: the memory reloaded, the flash write repeated in a
spare block. -/
def moduleScopeEff (restored : Bool) (d0 : Dev) : Dev :=
  match (scopeOf d0 3).current with
  | none => d0
  | some x =>
    let d := takeHandlerCore d0
    let f := x.info
    if unitFault f then handleUnit d (servedBy d0 f) x
    else if f.cause = 0xA || f.cause = 0xB || (f.subsystem = 9 && f.cause = 4) then endHandling (failVault d) 3 3
    else if f.subsystem = 1 then endHandling (hostReset d) 3 6
    else if f.cause = 7 && [2, 3, 8, 10].contains f.subsystem then failStopFor (nextFault d 3) x
    else if restored then endHandling d 3 6
    else if f.cause = 0xC && f.subsystem != 12 then endHandling d 3 0
    else failStopFor (nextFault d 3) x
def execModuleScopeHandling (restored : Bool) (s : State) := s.onDev (moduleScopeEff restored)

/-! ## The time limit (R477, R484) -/

/-- HANDLER_TIME_LIMIT: a handling has not ended within its scope's limit. -/
def handlerTimeLimitEff (scope : Nat) (d : Dev) : Dev :=
  match (scopeOf d scope).current with
  | none => d
  | some x =>
    let f : FaultInfo := { scope := nextScope d x.info, cause := 0xD, subsystem := x.info.subsystem, unit := 0xFF, object := nextObject d x.info,
                           detail := 0, inHandler := some scope }
    if d.glb.failStop || !d.bay.fabric then d else passUp d scope (nextScope d x.info) f
def execHandlerTimeLimit (scope : Nat) (s : State) := s.onDev (handlerTimeLimitEff scope)

end Sys2Proof.Machine
end

