-- ==== Sys2Proof/Machine/HostWrites.lean ====
section
/-! DEFINITION. The rows that are a host write of one register (03 R75): each is the write of its register, checked by the access table like every
other (13 R381), refused and deferred like it; what the register does with the value stands beside the register's block. -/

namespace Sys2Proof.Machine

/-- Offset of register `o` of a queue pair: of the admin queue pair by its place among the GLB registers (03 R78; 04 R92). -/
def qpOffset (fn : Fn) (q o : Nat) : Nat :=
  match fn with
  | .pf => 0x3C + o
  | .vf _ => 0x1000 + 0x100 * q + o

/-- A host write of `bytes` bytes of a function's registers, every byte enabled. -/
def hostWrite (fn : Fn) (off bytes v : Nat) (d : Dev) : Dev := arriveAccess (.host fn true off bytes v true) d

/-- A doorbell, register `o` of a queue pair; the PF has queue pair 0 only (03 R78). -/
def doorbell (fn : Fn) (q o idx : Nat) (d : Dev) : Dev := if fn = .pf ∧ q ≠ 0 then d else hostWrite fn (qpOffset fn q o) 4 idx d

/-- SQ_TAIL_DOORBELL (04 R93; 03 R78). -/
def execSqTailDoorbell (fn : Fn) (q idx : Nat) (s : State) := s.onDev (doorbell fn q 0x18 idx)

/-- CQ_HEAD_DOORBELL (04 R93; 03 R78). -/
def execCqHeadDoorbell (fn : Fn) (q idx : Nat) (s : State) := s.onDev (doorbell fn q 0x1C idx)

/-- QP_ENABLE (04 R89, R92): a write of QM_QP_CFG with ENABLE 1. -/
def qpEnableEff (n q w : Nat) (d : Dev) : Dev := if bit w 0 then hostWrite (.vf n) (qpOffset (.vf n) q 0x10) 4 w d else d
def execQpEnable (n q w : Nat) (s : State) := s.onDev (qpEnableEff n q w)

/-- QP_DISABLE (04 R92): a write of QM_QP_CFG with ENABLE 0. -/
def qpDisableEff (n q w : Nat) (d : Dev) : Dev := if bit w 0 then d else hostWrite (.vf n) (qpOffset (.vf n) q 0x10) 4 w d
def execQpDisable (n q w : Nat) (s : State) := s.onDev (qpDisableEff n q w)

/-- ADMIN_QUEUE_ENABLE (03 R78): a write of GLB_ADMIN_CFG with ENABLE 1. -/
def adminQueueEnableEff (w : Nat) (d : Dev) : Dev := if bit w 0 then hostWrite .pf 0x50 4 w d else d
def execAdminQueueEnable (w : Nat) (s : State) := s.onDev (adminQueueEnableEff w)

/-- ADMIN_QUEUE_DISABLE (03 R78): a write of GLB_ADMIN_CFG with ENABLE 0. -/
def adminQueueDisableEff (w : Nat) (d : Dev) : Dev := if bit w 0 then d else hostWrite .pf 0x50 4 w d
def execAdminQueueDisable (w : Nat) (s : State) := s.onDev (adminQueueDisableEff w)

/-- PROFILE_WRITE (01 R28, R29). -/
def execProfileWrite (w : Nat) (s : State) := s.onDev (hostWrite .pf 0x1C 4 w)

/-- ATTACH_ACK (02 R56; 03 R78): a write of GLB_EVENT. -/
def execAttachAck (w : Nat) (s : State) := s.onDev (hostWrite .pf 0x30 4 w)

/-- COMMIT_GO (05 R141, R144): blocks 2 to 8 have an X_COMMIT register. -/
def commitGoEff (block w : Nat) (d : Dev) : Dev :=
  if 2 ≤ block ∧ block ≤ 8 then hostWrite .pf (0x1000 * block + 0xFF8) 4 w d else d
def execCommitGo (block w : Nat) (s : State) := s.onDev (commitGoEff block w)

/-- VFCFG_COMMIT_WRITE (05 R144). -/
def execVfcfgCommitWrite (w : Nat) (s : State) := s.onDev (hostWrite .pf 0x60 4 w)

/-- LOCK_REQUEST (08 R248): REQUEST 1 written to VF_ENG_LOCK. -/
def execLockRequest (n : Nat) (s : State) := s.onDev (hostWrite (.vf n) 0x28 4 1)

/-- LOCK_RELEASE (08 R249, R252): RELEASE 1 written to VF_ENG_LOCK. -/
def execLockRelease (n : Nat) (s : State) := s.onDev (hostWrite (.vf n) 0x28 4 2)

/-- TIME_ADJ_WRITE (15 R434). -/
def execTimeAdjWrite (w : Nat) (s : State) := s.onDev (hostWrite .pf 0x4024 4 w)

/-- TIME_SET_WRITE (15 R436). -/
def execTimeSetWrite (v : Nat) (s : State) := s.onDev (hostWrite .pf 0x4028 8 v)

/-- LOG_RELEASE_WRITE (15 R457). -/
def execLogReleaseWrite (seq : Nat) (s : State) := s.onDev (hostWrite .pf 0x4058 8 seq)

/-- ENT_RESEED_WRITE (16 R471): a write of ENT_CTRL. -/
def execEntReseedWrite (w : Nat) (s : State) := s.onDev (hostWrite .pf 0x8008 4 w)

/-- CVU_START (16 R464, R466): a write of CVU_CTRL with START. -/
def cvuStartEff (u w : Nat) (d : Dev) : Dev := if bit w 0 then hostWrite .pf (cvuCtrlOffset u) 4 w d else d
def execCvuStart (u w : Nat) (s : State) := s.onDev (cvuStartEff u w)

end Sys2Proof.Machine
end

