-- ==== Sys2Proof/Machine/RingJoin.lean ====
section
/-! DEFINITION. Frames received (12 R340 to R344), joining (12 R349, R351; 02 R48, R49), beats, losses and views (12 R348, R352 to R354, R494).
Choices of the join and of the requests between members: log entry 31. -/

namespace Sys2Proof.Machine

/-! ## Reception (R341, R343, R344) -/

/-- A frame discarded for its tag or its form, counted (R371 INTEGRITY). -/
def countBad (d : Dev) : Dev := { d with ring.integrity := holdAt 16 (d.ring.integrity + 1) }

/-- A tag failure on a port: counted, a ring-scope fault, the eighth within 1 ms the failure of the link (R344, 17 R482). -/
def tagFailure (d : Dev) (east : Bool) : Dev :=
  let l := ((portOf d east).tagFails.filter fun t => decide (now d < t + 1000)) ++ [now d]
  let d1 := ringFault 8 (memberNo d) (modPort (countBad d) east fun p => { p with tagFails := l })
  if 8 ≤ l.length then failLink d1 east else d1

/-- The source of a frame that is discarded for its tag: what this member waits for from it may be lost (17 R482; log entry 97). -/
def noteLost (d : Dev) (m : Nat) : Dev := { d with ring.lostFrom := insertNat d.ring.lostFrom m }

/-- Whether this member holds the key of a frame: the ring key of the epoch in force, of the one before for 2 ms, or of the one to come; a pairwise
key; none for a JOIN. -/
def hasKey (d : Dev) (h : Hdr) : Bool :=
  match h.keysel with
  | 0 => (d.ring.ringKey.isSome && h.epoch == d.ring.epoch) || (d.ring.prevKey.isSome && h.epoch + 1 == d.ring.epoch) ||
    (match d.ring.nextKey with | some (e, _) => h.epoch == e | none => false)
  | 1 => (peerOf d h.src).pairKey.isSome
  | _ => true

/-- The number under which a frame's SEQ is remembered: its epoch and frame count. -/
def seqKey (h : Hdr) : Nat := h.epoch * 2 ^ 56 + h.seq % 2 ^ 56

/-- Whether a SEQ has been accepted already or lies below the window of 1,024 of its source and epoch. -/
def seenBefore (p : Peer) (h : Hdr) : Bool :=
  let top := (p.seen.filter fun x => x / 2 ^ 56 == h.epoch).foldl max 0
  p.seen.contains (seqKey h) || decide (seqKey h + 1024 ≤ top)

/-- A SEQ accepted: the window of its source keeps the latest 1,024 of each epoch it still knows. -/
def noteSeq (p : Peer) (h : Hdr) : Peer :=
  let l := p.seen ++ [seqKey h]
  let top := (l.filter fun x => x / 2 ^ 56 == h.epoch).foldl max 0
  { p with seen := l.filter fun x => x / 2 ^ 56 != h.epoch || decide (top < x + 1024) }

/-- The key that a type's row names (R341). -/
def keyselOf (type : Nat) : Nat := if type = 2 then 2 else if type = 4 ∨ type = 0x20 ∨ type = 0x21 ∨ type = 0x30 ∨ type = 0x31 then 1 else 0

/-- A frame passed on out of the other port. -/
def passOn (d : Dev) (h : Hdr) : Dev := if (portOf d (!h.east)).failed then d else emit d (.relay h (!h.east))

/-- Whether both neighbours of a joining member are authenticated (02 R49). -/
def authDone (d : Dev) : Bool := d.ring.east.auth && d.ring.west.auth

/-- A frame that arrives, and whether this member takes it. A frame for others is passed on; one for every member is passed on and taken; every frame
is passed on until both neighbours are authenticated (02 R49). -/
def receive (h : Hdr) (type : Nat) (d : Dev) : Dev × Bool :=
  let me := memberNo d
  if !linksUp d || (portOf d h.east).failed || (portOf d h.east).lanes = 0 then (d, false)
  else if h.src = me then (d, h.dst = me || h.dst = 255)
  else
    let joining := d.ring.st == 0x33 && !authDone d
    let d1 := if h.dst = me ∧ !joining then d else passOn d h
    if h.dst ≠ me ∧ h.dst ≠ 255 then (d1, false)
    else if joining && type != 2 then (d1, false)
    else if h.type ≠ type ∨ h.keysel ≠ keyselOf type then (countBad d1, false)
    else if !hasKey d h then (d1, false)
    else if h.keysel ≠ 2 && !h.tagOk then (tagFailure (noteLost d1 h.src) h.east, false)
    else if h.keysel ≠ 2 && seenBefore (peerOf d1 h.src) h then (d1, false)
    else (raiseClock (if h.keysel = 2 then d1 else modPeer d1 h.src fun p => noteSeq p h) h.clock, true)

/-- A frame of another member taken by a meaning, or what its reception alone comes to. -/
def onFrame (h : Hdr) (type : Nat) (f : Dev → Dev) (d : Dev) : Dev :=
  match receive h type d with
  | (d1, true) => if h.src = memberNo d then d1 else f d1
  | (d1, false) => d1

/-! ## Joining (R349, R351) -/

/-- The message a JOIN frame's signatures cover. -/
def joinMessage (j : JoinInfo) : Bytes :=
  ascii [0x49, 0x57, 0x52, 0x4A] ++ natLe 8 j.serial ++ natLe 1 j.fwMajor ++ natLe 8 j.configSeq ++ natLe 8 j.ringId ++ j.mldsa ++ j.p384 ++ j.kem ++
    j.kemCt ++ natLe 1 (if j.answer then 1 else 0)

/-- FW_MAJOR of the running image. -/
def fwMajor (d : Dev) : Nat := match d.mnt.running with | some im => im.major | none => 0

/-- CONFIG_SEQ and RING_ID of the configuration held. -/
def heldCfg (d : Dev) : Bytes := d.ring.config.getD []

/-- A JOIN frame sent: to every member, or in answer to one, out of the port on which that member's frame arrived. -/
def sendJoin (d : Dev) (dst : Nat) (kem kemCt : Bytes) (answer : Bool) (port : Option Bool) : Dev :=
  let j : JoinInfo := { serial := d.otp.serial, fwMajor := fwMajor d, configSeq := cfgSeq (heldCfg d), ringId := cfgRingId (heldCfg d),
                        mldsa := identityPublic d 1, p384 := identityPublic d 2, kem, kemCt, answer, sigMldsa := [], sigP384 := [] }
  let s := signBoth d (joinMessage j)
  let body : FrameBody := .join { j with sigMldsa := s.1, sigP384 := s.2.1 }
  match port with
  | some east => sendVia east (!east) (applyRing s.2.2) dst body
  | none => sendFrame s.2.2 dst body

/-- The public key of this member's ML-KEM-768 pair. -/
def kemPublic (d : Dev) : Bytes := fitTo 1184 (pkPublicOf 0x41 d.ring.kemPriv)

/-- Whether RING_JOIN may go high (02 R48): identity, configuration and attachment, a running service, and no reason to stay out. -/
def canJoin (d : Dev) : Bool :=
  d.bay.fabric && d.bay.auxPower && !d.bay.seatHigh && d.glb.fwRunning && !d.glb.starting && !d.glb.failStop && !d.glb.locked && identityOk d && configNamesBay d && d.ring.joinEn &&
    !d.bay.ringBan && d.bay.removal == .idle && d.ring.st == 0x0F && !d.bay.ringJoin && d.vmp.st != 0xF0

/-- A port trained through the selector's loopback (R339, 02 R48). -/
def trained (p : Port) : Port := { p with lanes := if p.lanes = 0 then 4 else p.lanes, auth := false, neighbour := 255, replay := [], tagFails := [] }

/-- RING_JOIN high: JOINING, with a fresh ML-KEM-768 key, and the first JOIN frame. A port that has not all four lanes is not trained. -/
def beginJoin (d0 : Dev) : Dev :=
  let d := drbgBefore false d0
  let e := trained d.ring.east
  let w := trained d.ring.west
  if !canJoin d || !drbgUp d || e.lanes != 4 || w.lanes != 4 || e.failed || w.failed then d0
  else
    let priv := Config.pkPrivate 0x41 0 0 d.ent.draws
    let d1 := { (draw d 32).2 with
      bay.ringJoin := true, ring.st := 0x33, ring.retry := false, ring.kemPriv := priv, ring.foundRing := false
      ring.east := e, ring.west := w, ring.epoch := 0, ring.frameCount := 0 }
    sendJoin d1 255 (kemPublic d1) [] false none

/-- RING_JOIN_RAISE (02 R48, R49). -/
def execRingJoinRaise (s : State) := s.onDev beginJoin

/-- JOIN_RETRY_TIMER (R349): 1 s after a failed step. -/
def joinRetryTimerEff (d : Dev) : Dev := if d.ring.retry then beginJoin d else d
def execJoinRetryTimer (s : State) := s.onDev joinRetryTimerEff

/-- A join failed or refused: logged, RING_JOIN low, and a new attempt 1 s later (R349). -/
def joinFailed (d : Dev) (reason : Nat) : Dev := { leaveRing (logRing d 5 (natLe 1 reason)) with ring.retry := true }

/-- JOIN_AUTH_TIMEOUT (02 R49): 50 ms after RING_JOIN went high. -/
def joinAuthTimeoutEff (d : Dev) : Dev := if d.ring.st = 0x33 && !authDone d then joinFailed d 1 else d
def execJoinAuthTimeout (s : State) := s.onDev joinAuthTimeoutEff

/-- This member forms the ring and admits every member it has met. -/
def formRing (d : Dev) : Dev := formAlone { d with ring.joiners := (metMembers d).foldl insertNat d.ring.joiners }

/-- Whether a joining member may form the ring: authenticated, no ring found, none ahead of it (R351). -/
def mayForm (d : Dev) : Bool := d.ring.st == 0x33 && authDone d && !d.ring.foundRing && d.ring.epoch == 0 && firstInLine d

/-- The designated anchor forms the ring at once. -/
def formIfAnchor (d : Dev) : Dev := if mayForm d && cfgAnchor (heldCfg d) == memberNo d then formRing d else d

/-- RING_FORM_WAIT_EXPIRY (R351). -/
def ringFormWaitExpiryEff (d : Dev) : Dev := if mayForm d then formRing d else d
def execRingFormWaitExpiry (s : State) := s.onDev ringFormWaitExpiryEff

/-- Whether a JOIN frame authenticates member m: its serial and identity digest stand in the configuration, and both signatures verify. -/
def joinAuth (d : Dev) (m : Nat) (j : JoinInfo) : Bool :=
  let c := heldCfg d
  cfgUsed c m && cfgSerial c m == j.serial && cfgDigest c m == identityDigest j.mldsa j.p384 && verifyBoth j.mldsa j.p384 (joinMessage j) j.sigMldsa j.sigP384

/-- Whether the comparison of step 3 refuses: another ring, or FW_MAJOR more than one apart (R347, 18 R510). -/
def joinRefused (d : Dev) (j : JoinInfo) : Bool :=
  j.ringId != cfgRingId (heldCfg d) || decide (fwMajor d + 1 < j.fwMajor) || decide (j.fwMajor + 1 < fwMajor d)

/-- The pairwise key of two members from their shared secret (R348). -/
def pairKeyOf (secret : Bytes) (a b : Nat) : Bytes :=
  kdf108 secret (ascii [0x52, 0x49, 0x4E, 0x47, 0x2D, 0x50, 0x41, 0x49, 0x52]) (natLe 8 (min a b) ++ natLe 8 (max a b)) 32

/-- What a member learns of another from its JOIN frame. -/
def noteJoin (d : Dev) (m : Nat) (j : JoinInfo) (key : Option Bytes) : Dev :=
  modPeer d m fun p => { p with pairKey := if key.isSome then key else p.pairKey, cfgSeq := j.configSeq, mldsa := j.mldsa, p384 := j.p384 }

/-- A member authenticated by a frame on a port: the first one there is the neighbour on that side (02 R49; log entry 31). -/
def meetOn (d : Dev) (east : Bool) (m : Nat) : Dev := modPort d east fun p => if p.auth then p else { p with auth := true, neighbour := m }

/-- A joiner's JOIN answered: a secret encapsulated to its key, the same one for the same key (R349 steps 2 to 4). -/
def answerJoin (d0 : Dev) (h : Hdr) (j : JoinInfo) : Dev :=
  let d := drbgBefore false d0
  if !drbgUp d then d
  else
    let p := peerOf d h.src
    let again := p.pairKey.isSome && p.kem == j.kem
    let r := d.ent.draws
    let ct := if again then p.kemCt else Config.kemCiphertext 0x41 j.kem r
    let key := if again then p.pairKey else some (pairKeyOf (Config.kemSecret 0x41 j.kem r) d.otp.serial j.serial)
    let d1 := modPeer (noteJoin (if again then d else (draw d 32).2) h.src j key) h.src fun p => { p with kem := j.kem, kemCt := ct }
    sendJoin (if d.ring.st = 0x33 then meetOn d1 h.east h.src else d1) h.src [] ct true (some h.east)

/-- An answer to this member's JOIN: the key agreed, and, where a ring is found, its anchor told that this member may be admitted, once both
neighbours are authenticated. -/
def takeAnswer (d : Dev) (h : Hdr) (j : JoinInfo) : Dev :=
  let key := pairKeyOf (Config.kemDecaps 0x41 d.ring.kemPriv j.kemCt) d.otp.serial j.serial
  let d1 := meetOn (noteJoin d h.src j (some key)) h.east h.src
  if h.epoch = 0 then formIfAnchor d1
  else
    let d2 := { d1 with ring.foundRing := true }
    if authDone d2 then sendJoin d2 255 [] [] true none else d2

/-- A joiner that has agreed its keys is admitted by the acting anchor, which checks that it is absent from the view in force. -/
def recordJoiner (d : Dev) (m : Nat) (j : JoinInfo) : Dev :=
  if isAnchor d && (peerOf d m).pairKey.isSome && !bit d.ring.present m then
    admitJoiner { noteJoin d m j none with ring.joiners := insertNat d.ring.joiners m } m
  else d

/-- JOIN_FRAME (R349): checked, compared, answered. A frame refused is logged; a joining member that is refused by a member of its ring starts anew. -/
def joinFrameEff (h : Hdr) (j : JoinInfo) (d : Dev) : Dev :=
  if h.src = memberNo d then
    match receive h 2 d with
    | (d1, true) =>
      if d1.ring.st = 0x33 && !authDone d1 && !j.answer && (metMembers d1).isEmpty then formIfAnchor (meetOn d1 h.east (memberNo d1)) else d1
    | (d1, false) => d1
  else onFrame h 2 (fun d =>
    if d.ring.st = 0x0F || d.ring.st = 0xF0 then d
    else if !joinAuth d h.src j then logRing d 5 (natLe 1 2)
    else if joinRefused d j then (if j.answer && d.ring.st = 0x33 then joinFailed d 3 else logRing d 5 (natLe 1 3))
    else if !j.answer then answerJoin d h j
    else if h.dst = 255 then recordJoiner d h.src j
    else if d.ring.st = 0x33 then takeAnswer d h j
    else d) d
def execJoinFrame (h : Hdr) (j : JoinInfo) (s : State) := s.onDev (joinFrameEff h j)

/-! ## Beats (R352, R354, R494) -/

/-- Whether a member sends beats: joined, or in the minority. -/
def beats (d : Dev) : Bool := linksUp d && (joined d || d.ring.st == 0xF0)

/-- A new view of the same members asked for, or issued, before the frame count of the epoch ends (R494). -/
def renewEpoch (d : Dev) : Dev :=
  if d.ring.frameCount < 2 ^ 55 || !joined d then d
  else if isAnchor d then issueView d d.ring.present
  else sendFrame d d.ring.acting (.view { epoch := d.ring.epoch, present := d.ring.present, signer := memberNo d, sigMldsa := [], sigP384 := [] })

/-- BEAT_SEND_TIMER (R352): a BEAT to every member. -/
def beatSendTimerEff (d : Dev) : Dev := if beats d then renewEpoch (sendFrame d 255 (.beat d.glb.pace)) else d
def execBeatSendTimer (s : State) := s.onDev beatSendTimerEff

/-- BEAT_RECEIVED (R352): the member's pace, and the time of its beat; commands without a holder look again (R358). This member's own loop-proof
BEAT on its west port is the proof (R354). -/
def beatReceivedEff (h : Hdr) (pace : Nat) (d : Dev) : Dev :=
  if h.src = memberNo d then
    match receive h 1 d with
    | (d1, true) => if d1.ring.loopProof && h.dst = memberNo d && !h.east then { d1 with ring.proofHeld := true } else d1
    | (d1, false) => d1
  else onFrame h 1 (fun d =>
    let d1 := modPeer d h.src fun p => { p with pace, beatAt := some (now d), clock := h.clock }
    wakeWhere d1 fun c => c.wait == .holder) d
def execBeatReceived (h : Hdr) (pace : Nat) (s : State) := s.onDev (beatReceivedEff h pace)

/-! ## Losses (R352 to R354, R365) -/

/-- A member detected as lost: counted, its commands re-issued, its requests asked again, then the majority judged. -/
def loseMember (m : Nat) (d : Dev) : Dev :=
  let d1 := { d with ring.losses := holdAt 32 (d.ring.losses + 1), ring.event := setBit d.ring.event 1, ring.suspects := insertNat d.ring.suspects m }
  let d2 := (ctxsWhere d1 fun c => ctxHeld c && c.origin.isNone && c.sentTo == some m).foldl (reissue m) d1
  judgeLoss ((ctxsWhere d2 ctxHeld).foldl (reask m) d2)

/-- MEMBER_LOSS_DETECTED (R352): no BEAT of a present member for 120 µs. -/
def memberLossDetectedEff (m : Nat) (d : Dev) : Dev :=
  if linksUp d && joined d && bit d.ring.present m && m != memberNo d && !d.ring.suspects.contains m then loseMember m d else d
def execMemberLossDetected (m : Nat) (s : State) := s.onDev (memberLossDetectedEff m)

/-- Whether the members this one reaches are the majority (R354). -/
def inMajority (d : Dev) : Bool :=
  let n := (presentMembers d).length
  let r := (membersOf (reachable d)).length
  decide (n < 2 * r) || (decide (n = 2 * r) && (d.ring.proofHeld || match actingOf d d.ring.present with | some a => bit (reachable d) a | none => false))

/-- STANDBY_VIEW_DELAY (R353): the standby anchor is lost too, and the next in succession issues the view 1 ms later. -/
def standbyViewDelayEff (d : Dev) : Dev :=
  if linksUp d && joined d && !d.ring.suspects.isEmpty && inMajority d && actingOf d (reachable d) == some (memberNo d) then issueLoss d (reachable d) else d
def execStandbyViewDelay (s : State) := s.onDev standbyViewDelayEff

/-- LOOP_PROOF_TIMEOUT (R354): 1 ms after the loss; with the proof the majority, without it the minority. -/
def loopProofTimeoutEff (d : Dev) : Dev :=
  if joined d && d.ring.loopProof then
    let d1 := { d with ring.loopProof := false }
    if d.ring.proofHeld then majorityView d1 else enterParted d1
  else d
def execLoopProofTimeout (s : State) := s.onDev loopProofTimeoutEff

/-- PARTED_TIMEOUT (R354): after 10 ms in the minority RING_JOIN goes low; the member rejoins. -/
def partedTimeoutEff (d : Dev) : Dev := if d.ring.st = 0xF0 then { leaveRing d with ring.retry := true } else d
def execPartedTimeout (s : State) := s.onDev partedTimeoutEff

/-- PREV_EPOCH_KEY_EXPIRY (R348): 2 ms after a view came into force. -/
def prevEpochKeyExpiryEff (d : Dev) : Dev := { d with ring.prevKey := none }
def execPrevEpochKeyExpiry (s : State) := s.onDev prevEpochKeyExpiryEff

/-! ## Views and keys (R348, R353) -/

/-- KEYS_FRAME (R348): the ring key of an epoch to come. -/
def keysFrameEff (h : Hdr) (epoch : Nat) (key : Bytes) (d : Dev) : Dev :=
  onFrame h 4 (fun d => if d.ring.st != 0x0F && d.ring.st != 0xF0 && decide (d.ring.epoch < epoch) then { d with ring.nextKey := some (epoch, key) } else d) d
def execKeysFrame (h : Hdr) (epoch : Nat) (key : Bytes) (s : State) := s.onDev (keysFrameEff h epoch key)

/-- Whether the signer of a view is acting anchor by R351 for the members it names, or the acting anchor that hands over to one it admits. -/
def signerActs (d : Dev) (v : ViewInfo) : Bool :=
  actingOf d v.present == some v.signer ||
    (bit v.present v.signer && (membersOf v.present).any fun j =>
      !(bit d.ring.present j && joined d) && actingOf d v.present == some j && actingOf d (clearBits v.present (2 ^ j)) == some v.signer)

/-- Whether both signatures of member m over a message verify under its identity keys, whose digest stands in the configuration held. -/
def memberSigned (d : Dev) (m : Nat) (msg sigM sigP : Bytes) : Bool :=
  let p := peerOf d m
  cfgUsed (heldCfg d) m && cfgDigest (heldCfg d) m == identityDigest p.mldsa p.p384 && verifyBoth p.mldsa p.p384 msg sigM sigP

/-- A view that a member asks for: without those it suspects lost, or of the same members (R353, R494; 17 R482). -/
def viewAsked (d : Dev) (v : ViewInfo) : Dev :=
  let left := (gone d.ring.present v.present).filter (· != memberNo d)
  if actingOf d v.present ≠ some (memberNo d) then d
  else if left.isEmpty then issueView d d.ring.present
  else judgeLoss { d with ring.suspects := left.foldl insertNat d.ring.suspects }

/-- A view adopted with its key; a member that holds a later configuration than the ring sends it (R347, R349 step 3). -/
def takeView (d : Dev) (v : ViewInfo) (key : Bytes) : Dev :=
  let d1 := adoptView d v.epoch v.present key
  if d.ring.st = 0x33 && d1.ring.st = 0x33 && decide ((peerOf d v.signer).cfgSeq < cfgSeq (heldCfg d)) then sendConfig d1 v.signer else d1

/-- VIEW_FRAME (R353): accepted if its EPOCH is higher, its signer acts and its signatures verify; otherwise a ring-scope fault (17 R477). -/
def viewFrameEff (h : Hdr) (v : ViewInfo) (d : Dev) : Dev :=
  onFrame h 3 (fun d =>
    if d.ring.st = 0x0F || d.ring.st = 0xF0 then d
    else if v.sigMldsa.isEmpty && v.sigP384.isEmpty && v.epoch = d.ring.epoch && joined d then viewAsked d v
    else match d.ring.nextKey with
      | some (e, key) =>
        if e = v.epoch && decide (d.ring.epoch < v.epoch) && signerActs d v && memberSigned d v.signer (viewMessage v.epoch v.present) v.sigMldsa v.sigP384
        then takeView d v key else ringFault 9 (memberNo d) d
      | none => ringFault 9 (memberNo d) d) d
def execViewFrame (h : Hdr) (v : ViewInfo) (s : State) := s.onDev (viewFrameEff h v)

end Sys2Proof.Machine
end

