-- ==== Sys2Proof/Machine/RingFrames.lean ====
section
/-! DEFINITION. The frames of a joined member: maps and leaves, configurations, forwarded commands and replies, change locks, replication, transfers,
copies and saves (12 R345 to R347, R355 to R370). Choices: log entry 31. -/

namespace Sys2Proof.Machine

/-! ## Maps and leaves (R350, R355, R366) -/

/-- Whether a map's number follows that of the map in force: EPOCH first, MAP_SEQ second (17 R494). -/
def mapFollows (d : Dev) (epoch seq : Nat) : Bool :=
  decide (d.ring.mapEpoch < epoch) || (epoch == d.ring.mapEpoch && decide (d.ring.mapSeq < seq))

/-- MAP_FRAME (R355): the acting anchor's entries come into force; number 0 asks the acting anchor to return LOST buckets (R366). -/
def mapFrameEff (h : Hdr) (mapSeq : Nat) (entries : List (Nat × MapEntry)) (d : Dev) : Dev :=
  onFrame h 5 (fun d =>
    if d.ring.st = 0x0F || d.ring.st = 0xF0 then d
    else if mapSeq = 0 then (if isAnchor d then returnLost d (entries.map Prod.fst) else d)
    else if h.src = d.ring.acting && mapFollows d h.epoch mapSeq then applyMap d h.epoch mapSeq entries
    else ringFault 9 (memberNo d) d) d
def execMapFrame (h : Hdr) (mapSeq : Nat) (entries : List (Nat × MapEntry)) (s : State) := s.onDev (mapFrameEff h mapSeq entries)

/-- A leave asked of this member: as acting anchor, or as standby for the acting anchor. -/
def leaveAsked (d : Dev) (m : Nat) : Dev :=
  if isAnchor d || (d.ring.acting == m && standbyOf d d.ring.present == some (memberNo d)) then acceptLeave d m else d

/-- LEAVE_FRAME (R350): a request, or the confirmation on which the leaver drives RING_JOIN low. -/
def leaveFrameEff (h : Hdr) (confirm : Bool) (member : Nat) (d : Dev) : Dev :=
  onFrame h 6 (fun d =>
    if confirm then (if member = memberNo d && d.ring.st = 0x96 then leaveRing (logRing d 2 (natLe 1 member)) else d)
    else if joined d && h.src = member then leaveAsked d member
    else d) d
def execLeaveFrame (h : Hdr) (confirm : Bool) (member : Nat) (s : State) := s.onDev (leaveFrameEff h confirm member)

/-! ## Configurations (R347) -/

/-- The contexts of RING_CONFIG that wait for members to seal a configuration. -/
def configWaiters (d : Dev) : List Nat :=
  (d.ring.waitAcks.map Prod.fst).filter fun k => decide (k < 4096) && eOpcode (ctxOf d k).entry == 0x7001

/-- A member's word that it has sealed the configuration held here: a CONFIG frame without signatures. -/
def configSealed (d : Dev) (m : Nat) : Dev := (configWaiters d).foldl (fun d k => acked d k m) d

/-- A configuration received and adopted: every member is told; the acting anchor hands on what a member forwarded to it. -/
def configTaken (d : Dev) (config : Bytes) : Dev :=
  let d1 := adoptConfig d config
  let d2 := if isAnchor d1 then sendConfig d1 255 else d1
  if linksUp d2 then sendFrame d2 255 (.config config [] []) else d2

/-- CONFIG_FRAME (R347): adopted where RING_ID matches, CONFIG_SEQ is higher and the signer is a member of the configuration held. -/
def configFrameEff (h : Hdr) (config sigMldsa sigP384 : Bytes) (d : Dev) : Dev :=
  onFrame h 7 (fun d =>
    if d.ring.st = 0x0F || d.ring.st = 0xF0 then d
    else if sigMldsa.isEmpty && sigP384.isEmpty then (if config == heldCfg d then configSealed d h.src else d)
    else if config == heldCfg d then sendFrame d 255 (.config config [] [])
    else if configForm config && cfgRingId config == cfgRingId (heldCfg d) && decide (cfgSeq (heldCfg d) < cfgSeq config) &&
        memberSigned d h.src (configMessage config) sigMldsa sigP384 then configTaken d config
    else ringFault 9 (memberNo d) (refuseConfig d (cfgSeq config))) d
def execConfigFrame (h : Hdr) (config sigMldsa sigP384 : Bytes) (s : State) := s.onDev (configFrameEff h config sigMldsa sigP384)

/-! ## The horizon of a save, and its records (R370) -/

/-- SYNC_FRAME (R370): a request is answered with this member's clock once every change it has assigned is applied on every holder. -/
def syncFrameEff (h : Hdr) (answer : Bool) (c : Nat) (d : Dev) : Dev :=
  onFrame h 8 (fun d =>
    if !joined d then d
    else
      let d1 := raiseClock d c
      if answer then syncAnswered d1 h.src c
      else settleSyncs { d1 with ring.syncOwed := insertNat d1.ring.syncOwed h.src }) d
def execSyncFrame (h : Hdr) (answer : Bool) (c : Nat) (s : State) := s.onDev (syncFrameEff h answer c)

/-- The records of this member's buckets sent to the member that gathers. -/
def sendSave (d : Dev) (dest ctx : Nat) : Dev :=
  let l := primaryRecords d
  let parts := runs64 l.length l
  let body := if parts.isEmpty then [[]] else parts
  (body.zipIdx).foldl (fun d p => sendFrame d dest (.save ctx p.1 (decide (p.2 + 1 = body.length)))) d

/-- SAVE_FRAME (R370): records gathered, the last marked; an empty one without the mark asks for them. -/
def saveFrameEff (h : Hdr) (ctx : Nat) (recs : List Record) (last : Bool) (d : Dev) : Dev :=
  onFrame h 0x31 (fun d =>
    if !joined d then d
    else if recs.isEmpty && !last then sendSave d h.src ctx
    else if d.ring.gatherCtx = some ctx && d.ring.gatherLeft.contains h.src then
      let d1 := { d with ring.gathered := d.ring.gathered ++ recs }
      if last then gatherCheck { d1 with ring.gatherLeft := d1.ring.gatherLeft.filter (· != h.src) } else d1
    else d) d
def execSaveFrame (h : Hdr) (ctx : Nat) (recs : List Record) (last : Bool) (s : State) := s.onDev (saveFrameEff h ctx recs last)

/-! ## Notices of lock grants (R364) -/

/-- A grant that another member registers with PRIMARY; a version gone already is noticed at once. -/
def registerGrant (d : Dev) (handle m : Nat) : Dev :=
  if (resolveIn (recsOfKey d (keyOf handle)) handle).isNone then sendFrame d m (.notice handle)
  else if d.ring.grants.contains (handle, m) then d
  else { d with ring.grants := d.ring.grants ++ [(handle, m)] }

/-- NOTICE_FRAME (R364): from PRIMARY, the destruction of a version, which ends this member's grants on it. -/
def noticeFrameEff (h : Hdr) (handle : Nat) (d : Dev) : Dev :=
  onFrame h 9 (fun d =>
    if !joined d then d
    else if primaryOf d (keyOf handle) = memberNo d then registerGrant d handle h.src
    else endGrantsOn d handle) d
def execNoticeFrame (h : Hdr) (handle : Nat) (s : State) := s.onDev (noticeFrameEff h handle)

/-! ## Forwarded commands and replies (R21, R22, R358, R360) -/

/-- Contexts held by commands of an origin. -/
def shareOf (d : Dev) (m : Nat) : Nat := countCtx d fun c => match c.origin with | some o => ctxHeld c && o.member == m | none => false

/-- Whether a forwarded command is here already. -/
def hereAlready (d : Dev) (m issue : Nat) : Bool :=
  !(ctxsWhere d fun c => match c.origin with | some o => ctxHeld c && o.member == m && o.issue == issue | none => false).isEmpty

/-- A forwarded command taken into its origin's share and queued, with the level and the stamps it was given there. -/
def takeForward (d : Dev) (m : Nat) (f : Forwarded) : Dev :=
  let fn : Fn := if f.tenant = 0xFFFF then .pf else .vf f.tenant
  let c : Ctx := { code := csWaiting, level := f.level, fn, gen := f.gen, entry := f.entry, inputs := some f.inputs,
                   origin := some { member := m, ctx := f.originCtx, issue := f.issue } }
  let r := takeCtx d c
  pushReady r.2 r.1

/-- FORWARD_FRAME (R22, R358): a command beyond its origin's 28 contexts is not taken. -/
def forwardFrameEff (h : Hdr) (f : Forwarded) (d : Dev) : Dev :=
  onFrame h 0x10 (fun d => if joined d && decide (shareOf d h.src < 28) && !hereAlready d h.src f.issue then takeForward d h.src f else d) d
def execForwardFrame (h : Hdr) (f : Forwarded) (s : State) := s.onDev (forwardFrameEff h f)

/-- A reply taken by its command: its output data, its reply and its completion, with FORWARDED set (01 R21). -/
def takeReply (d : Dev) (k : Nat) (r : Reply) : Dev :=
  let i := (ctxOf d k).inputs.getD {}
  wakeWhere (finishWith d k (afterOuts i r) i.replyWriteOk true) fun c => c.wait == .holder

/-- REPLY_FRAME (R21): the command it names must still wait for this member's reply under its issue number. -/
def replyFrameEff (h : Hdr) (originCtx issue : Nat) (r : Reply) (d : Dev) : Dev :=
  onFrame h 0x11 (fun d =>
    let c := ctxOf d originCtx
    if ctxHeld c && !writesHeld c && c.origin.isNone && c.sentTo == some h.src && c.issue == issue then takeReply d originCtx r else d) d
def execReplyFrame (h : Hdr) (originCtx issue : Nat) (r : Reply) (s : State) := s.onDev (replyFrameEff h originCtx issue r)

/-! ## Change locks (R359) -/

/-- A lock granted to a command of this module that waits for it; one that no command waits for is given back. -/
def takeGrant (d : Dev) (src key k : Nat) : Dev :=
  if (ctxOf d k).wait == .changeLock key && (ctxOf d k).code == csWaiting then
    wake (modCtx d k fun c => { c with locksHeld := key :: c.locksHeld }) k
  else if (ctxOf d k).locksHeld.contains key && ctxHeld (ctxOf d k) then d
  else sendFrame d src (.changeLock true key k)

/-- Whether a member's command holds a lock that this member orders. -/
def lockHeldBy (d : Dev) (key : Nat) (who : Nat × Nat) : Bool := match lockOf d key with | some l => l.holder == who | none => false

/-- CHANGE_LOCK_FRAME (R359): at PRIMARY a request, or a lock given back (log entry 18); elsewhere a grant. A request of the holder is granted again. -/
def changeLockFrameEff (h : Hdr) (grant : Bool) (key ctx : Nat) (d : Dev) : Dev :=
  onFrame h 0x12 (fun d =>
    let known := match lockOf d key with
      | some l => l.holder == (h.src, ctx) || l.waiters.contains (h.src, ctx)
      | none => false
    if !joined d then d
    else if grant then
      if lockHeldBy d key (h.src, ctx) then releaseLock d key
      else if primaryOf d key = h.src then takeGrant d h.src key ctx else d
    else if primaryOf d key = memberNo d && !known then requestLock d key (h.src, ctx)
    else if lockHeldBy d key (h.src, ctx) then grantLock d key (h.src, ctx)
    else d) d
def execChangeLockFrame (h : Hdr) (grant : Bool) (key ctx : Nat) (s : State) := s.onDev (changeLockFrameEff h grant key ctx)

/-! ## Replication (R359, R360, R368, R369) -/

/-- Whether this member's vault takes changes: built, and holding the bucket or filling it. -/
def takesChange (d : Dev) (h : Nat) : Bool := vaultBuilt d && (holds d h || (mapOf d (bucketOf h)).incoming == memberNo d)

/-- A change that cannot be applied here: the status that its executor is told, or 0 where it is not acknowledged, and the state it leaves. -/
abbrev Applied := Except (Nat × Dev) Dev

/-- A record written as another member wrote it: VAULT_FULL with no slot left (06 R159), BUSY where its counters are frozen (07 R205); in a unit under
repair it waits, unacknowledged. -/
def putRecord (d : Dev) (r : Record) : Applied :=
  let own := slotOf d r.handle r.chainPos
  if own.isNone && !roomFor d 1 (usedSlots d) then .error (stVaultFull, d)
  else
    let s := own.getD ((freeSlots d 1 (usedSlots d)).headD 0)
    let old := if own.isSome then (tabGet {} d.vmp.slots s).invocations else 0
    if (slotLines s).any (lineLost d) then .error (0, d)
    else match writeSlots [s] (if own.isSome then [] else [s]) d with
      | (d1, false) => .error (stBusy, d1)
      | (d1, true) =>
        .ok (storeOne d1 (s, { r with poisoned := false, tag := [], invocations := if r.chainPos = 0 then max old (arrivalInvocations d r) else 0 }))

/-- A record destroyed as another member destroyed it: its slot and index entry written, its tombstone kept. -/
def dropRecord (d : Dev) (t : Record) : Applied :=
  let keep := fun e : Dev => if holds e t.handle then e else { e with vmp.tombs := keepTomb e.vmp.tombs (tombOf t) }
  match slotOf d t.handle t.chainPos with
  | none => .ok (dropOne (keep d) t)
  | some s =>
    if (slotLines s).any (lineLost d) then .error (0, d)
    else match writeSlots [s] [s] d with
      | (d1, false) => .error (stBusy, d1)
      | (d1, true) => .ok (dropOne (keep d1) t)

/-- A record that a load gives another member, loaded here by its CHANGE_SEQ (07 R222, R369). -/
def loadRecord (d : Dev) (r : Record) : Applied :=
  match loadHere d r with
  | .accepted d1 => .ok d1
  | .superseded => .ok d
  | .stopped st => .error (if st = stVaultFull ∨ st = stBusy then st else 0, d)
  | .rejected _ => .error (0, d)
  | .skipped => .error (0, d)

/-- A shared root slot written: in place of both banks, or in the bank not in force, at the SEQ given (R368). -/
def putRoot (d : Dev) (slot seq : Nat) (content kcv : Bytes) (fresh : Bool) : Option Dev :=
  if !d.glb.rootOk then none
  else
    let b : Bank := { seq, code := 0x55, wrapped := wrapRoot d content, kcv }
    some (setRoot d slot (if fresh then { a := b } else setBank (rootSlot d slot) (bankToWrite d (rootSlot d slot)) b))

/-- A shared root slot returned to its previous bank: the one of a SEQ is EMPTY, and keeps its SEQ (06 R171). -/
def backRoot (d : Dev) (slot seq : Nat) : Dev :=
  let x := rootSlot d slot
  setRoot d slot { a := if x.a.seq = seq then { seq } else x.a, b := if x.b.seq = seq then { seq } else x.b }

/-- One change of another member applied. `joining`: a joiner's vault is formatted afterwards, and shows FORMATTING until then (07 R223). -/
def applyChange (joining : Bool) (d : Dev) (c : Change) : Applied :=
  match c with
  | .put r =>
    let d1 := raiseClock d (r.changeSeq / 16)
    if !takesChange d1 r.handle then .ok d1
    else if d1.vmp.st = 0x55 ∨ r.st = 0xF0 then loadRecord d1 r
    else putRecord d1 r
  | .drop t =>
    let d1 := raiseClock d (t.changeSeq / 16)
    if !takesChange d1 t.handle then .ok (afterDestroy d1 t.handle) else dropRecord d1 t
  | .used h => .ok (rememberIndex d h)
  | .root slot seq content kcv fresh => match putRoot d slot seq content kcv fresh with | some d1 => .ok d1 | none => .error (stKeyTestFail, d)
  | .rootBack slot seq => .ok (backRoot d slot seq)
  | .format accept =>
    if joining then .ok { emptyVault (keepMarks d fun _ => true) with vmp.st := 0x33, ring.formatDue := some accept }
    else match population d with | some p => .ok (formatVault d p accept) | none => .error (0, d)
  | .loadEnd => .ok (vaultReady d)
  | .manifest seq => .ok { d with vmp.manifestSeq := max d.vmp.manifestSeq seq }

/-- Changes applied in order, as far as the first that cannot be. -/
def applyChanges (joining : Bool) : List Change → Dev → Applied
  | [], d => .ok d
  | c :: t, d => (applyChange joining d c).bind (applyChanges joining t)

/-- A joiner with everything step 6 of R349 gives it is a MEMBER. -/
def becomeMember (d : Dev) : Dev := { d with ring.st := if d.ring.st = 0x33 then 0x55 else d.ring.st, ring.formatDue := none }

/-- An acknowledgement sent to the executor. -/
def sendAck (d : Dev) (dest origin issue status : Nat) : Dev := sendFrame d dest (.replicate true origin issue [] (bare status))

/-- A change of another member applied, its outcome cached, and acknowledged; one whose outcome is cached already is only acknowledged. Of changes
that cannot all be applied none is: the executor is told why (06 R159, R368), or hears nothing while a unit is under repair. -/
def takeReplicate (d : Dev) (src origin issue : Nat) (changes : List Change) (outcome : Reply) : Dev :=
  let joining := d.ring.st = 0x33
  if (cachedOf d origin issue).isSome then sendAck d src origin issue stOk
  else match applyChanges joining changes d with
    | .error (st, tried) =>
      let d1 := keepFreezes d tried
      if st = 0 then d1 else sendAck d1 src origin issue st
    | .ok d1 =>
      if !cacheRoomFor d1 then d
      else
        let d2 := if issue = joinKey (memberNo d) then d1 else cachePut d1 origin issue outcome
        if joining && d2.ring.formatDue.isSome then d2
        else sendAck (if joining then becomeMember d2 else d2) src origin issue stOk

/-- The number under which this member awaits the acknowledgement of an identity. -/
def awaitedAs (d : Dev) (origin issue m : Nat) : Option Nat :=
  if issue = joinKey m then some issue
  else if d.ring.waitAcks.any (·.1 == 2 ^ 20 + issue) && origin == memberNo d then some (2 ^ 20 + issue)
  else (d.ring.waitAcks.map Prod.fst).find? fun k => decide (k < 4096) && ctxHeld (ctxOf d k) && identityOf d k == (origin, issue)

/-- A member could not commit a shared root slot: every member returns it to its previous bank, and the command returns KEY_TEST_FAIL (R368). -/
def rootFailed (d : Dev) (k : Nat) : Dev :=
  let back := (ctxOf d k).changes.filterMap fun c => match c with | .root slot seq _ _ _ => some (slot, seq) | _ => none
  let others := (membersOf d.ring.present).filter (· != memberNo d)
  let d1 := back.foldl (fun d p => backRoot d p.1 p.2) { d with ring.waitAcks := d.ring.waitAcks.filter (·.1 != k) }
  let d2 := others.foldl (fun d m => sendFrame d m (.replicate false (memberNo d) (d.ring.issueNo) (back.map fun p => Change.rootBack p.1 p.2) (bare stOk)))
    { d1 with ring.issueNo := d1.ring.issueNo + 1 }
  settleSyncs (finishWith (releaseLocks d2 k) k (bare stKeyTestFail) true false)

/-- The records that changes wrote where there were none before. -/
def madeNew (c : Ctx) : List Record :=
  c.changes.filterMap fun x => match x with
    | .put r => if c.undo.any fun u => u.handle == r.handle && u.chainPos == r.chainPos then none else some r
    | _ => none

/-- A holder has no room for a change, or its counters are frozen: every holder goes back to what the change replaced, and the command returns that
holder's status (06 R159); a load keeps what it has loaded, and stops (07 R226; log entry 97). -/
def changeRefused (d : Dev) (k status : Nat) : Dev :=
  let c := ctxOf d k
  let id := identityOf d k
  let reply := { c.held.getD (bare status) with status, data := [], outs := [] }
  let d1 := { d with ring.waitAcks := d.ring.waitAcks.filter (·.1 != k), ring.cache := d.ring.cache.filter fun x => !(x.origin == id.1 && x.issue == id.2) }
  let undoing := eOpcode c.entry != 0x0102
  let d2 := if undoing then (applyEdit d1 { puts := c.undo, drops := madeNew c }).1 else d1
  let l := d2.vmp.changes
  let d3 := (replicaTargets d2 l).foldl (fun d m =>
      sendFrame d m (.replicate false (memberNo d) d.ring.issueNo (l.filter fun x => (changeTargets d2 x).contains m) (bare stOk))) { d2 with vmp.changes := [] }
  settleSyncs (finishWith (releaseLocks { d3 with ring.issueNo := d3.ring.issueNo + flag undoing 0 } k) k (if undoing then bare status else reply) true false)

/-- An acknowledgement: the command ends with the last; a joiner's brings it its buckets. -/
def takeAck (d0 : Dev) (src origin issue status : Nat) : Dev :=
  let d := { d0 with flt.noAckRetried := false }
  match awaitedAs d origin issue src with
  | none => d
  | some k =>
    if status = stKeyTestFail && decide (k < 4096) then rootFailed d k
    else if (status = stVaultFull || status = stBusy) && decide (k < 4096) then changeRefused d k status
    else
      let d1 := acked d k src
      if k = joinKey src then placeJoiner d1 src else d1

/-- REPLICATE_FRAME (R360). -/
def replicateFrameEff (h : Hdr) (ack : Bool) (origin issue : Nat) (changes : List Change) (outcome : Reply) (d : Dev) : Dev :=
  onFrame h 0x20 (fun d =>
    if d.ring.st = 0x0F || d.ring.st = 0xF0 then d
    else if ack then takeAck d h.src origin issue outcome.status
    else takeReplicate d h.src origin issue changes outcome) d
def execReplicateFrame (h : Hdr) (ack : Bool) (origin issue : Nat) (changes : List Change) (outcome : Reply) (s : State) :=
  s.onDev (replicateFrameEff h ack origin issue changes outcome)

/-- JOINER_FORMAT_DONE (R349 step 6; 18 R500): the joiner's vault is formatted afresh and READY, and the anchor hears of it. -/
def joinerFormatDoneEff (d0 : Dev) : Dev :=
  match d0.ring.formatDue with
  | none => d0
  | some accept =>
    let d := drbgBefore false d0
    match population d with
    | none => d
    | some p =>
      if d.ring.st = 0x33 && linksUp d && drbgUp d then
        let d1 := becomeMember (vaultReady (formatVault d p accept))
        sendAck d1 d1.ring.acting d1.ring.acting (joinKey (memberNo d1)) stOk
      else d
def execJoinerFormatDone (s : State) := s.onDev joinerFormatDoneEff

/-- The commands that wait for room in the cache replicate while there is room. -/
def replicateWaiting (d : Dev) : Dev :=
  (ctxsWhere d fun c => c.code == csWaiting && c.wait == .cacheRoom).foldl (fun d k => if cacheRoomFor d then replicate d k else d) d

/-- OUTCOME_CACHE_ENTRY_AGED (R360): an entry reaches 5 ms. -/
def outcomeCacheEntryAgedEff (origin issue : Nat) (d : Dev) : Dev :=
  replicateWaiting { d with ring.cache := d.ring.cache.map fun x => if x.origin = origin ∧ x.issue = issue then { x with aged := true } else x }
def execOutcomeCacheEntryAged (origin issue : Nat) (s : State) := s.onDev (outcomeCacheEntryAgedEff origin issue)

/-! ## Sealed transfer (R363) -/

/-- The records asked for by a command arrive. -/
def takeRecords (d : Dev) (handle k : Nat) (recs : List Record) : Dev :=
  if (ctxOf d k).wait == .transfer handle && (ctxOf d k).code == csWaiting then
    let l := recs.map fun r : Record => if r.chainPos = 0 then { r with invocations := arrivalInvocations d r } else r
    wake (modCtx d k fun c => { c with transferred := c.transferred ++ l }) k
  else d

/-- TRANSFER_FRAME (R363): a holder answers a request; the answer serves the command, or the lock request, that asked. -/
def transferFrameEff (h : Hdr) (request : Bool) (handle ctx : Nat) (recs : List Record) (d : Dev) : Dev :=
  onFrame h 0x21 (fun d =>
    if !joined d then d
    else if request then (if holds d handle then sendFrame d h.src (.transfer false handle ctx (transferAnswer d handle)) else d)
    else if 4096 ≤ ctx then lockRecordsArrive (ctx - 4096) handle recs d
    else takeRecords d handle ctx recs) d
def execTransferFrame (h : Hdr) (request : Bool) (handle ctx : Nat) (recs : List Record) (s : State) := s.onDev (transferFrameEff h request handle ctx recs)

/-! ## Copies of a bucket (R356) -/

/-- The acting anchor learns that INCOMING has a bucket's last record: the entry changes, and a leaver's moves go on. -/
def copyDone (d : Dev) (b m : Nat) : Dev :=
  if (mapOf d b).incoming = m then
    let d1 := publish d (setMap d b (moveDone (mapOf d b))) false
    checkLeaves (d1.ring.leavers.foldl (fun d m => publish d (planLeave d m) false) d1)
  else d

/-- Records of a bucket written at INCOMING, as far as the first that cannot be. -/
def copyIn : List Record → Dev → Applied
  | [], d => .ok d
  | r :: t, d =>
    let d1 := raiseClock d (r.changeSeq / 16)
    if r.st = 0xF0 then copyIn t { d1 with vmp.tombs := keepTomb d1.vmp.tombs r }
    else match slotOf d1 r.handle r.chainPos with
      | some s => if r.changeSeq ≤ (tabGet {} d1.vmp.slots s).changeSeq then copyIn t d1 else (putRecord d1 r).bind (copyIn t)
      | none =>
        if d1.vmp.tombs.any fun x => x.handle == r.handle && x.chainPos == r.chainPos && decide (r.changeSeq ≤ x.changeSeq) then copyIn t d1
        else (putRecord d1 r).bind (copyIn t)

/-- COPY_FRAME (R356): INCOMING takes the records, and acknowledges the last to the acting anchor by an empty COPY. -/
def copyFrameEff (h : Hdr) (bucket : Nat) (recs : List Record) (last : Bool) (d : Dev) : Dev :=
  onFrame h 0x30 (fun d =>
    if !joined d then d
    else if (mapOf d bucket).incoming = memberNo d && h.src = (mapOf d bucket).primary then
      match copyIn recs d with
      | .error (_, tried) => keepFreezes d tried
      | .ok d1 =>
        if !last then d1
        else if isAnchor d1 then copyDone d1 bucket (memberNo d1)
        else sendFrame d1 d1.ring.acting (.copy bucket [] true)
    else if isAnchor d && recs.isEmpty && last then copyDone d bucket h.src
    else d) d
def execCopyFrame (h : Hdr) (bucket : Nat) (recs : List Record) (last : Bool) (s : State) := s.onDev (copyFrameEff h bucket recs last)

end Sys2Proof.Machine
end

