-- ==== Sys2Proof/Machine/VaultEvents.lean ====
section
/-! DEFINITION. Events of the vault (07 R206 to R217): the Frog's sweep, repairs of poisoned units, DIMM temperature (19 R521). -/

namespace Sys2Proof.Machine

/-! ## The Frog (R206 to R211; 18 R504, R505) -/

/-- Whether a group lies in an open poisoned range; one that has been reported is rebuilt (R211, R213). -/
def groupPoisoned (d : Dev) (g : Nat) : Bool :=
  d.vmp.poison.any fun e => e.2.outcome == 0 &&
    decide (e.2.first < 64 * (g + 1)) && decide (64 * g < e.2.first + poisonLines d.vmp.n e.2.level)

/-- The levels k = 1 to 6 of which group w is the last that a node covers. -/
def lastLevels (w : Nat) : List Nat := [1, 2, 3, 4, 5, 6].filter fun k => (w + 1) % 8 ^ k == 0

/-- A node's counter in its parent set to 0; a freeze of its range ends. -/
def clearNode (w : Nat) (d : Dev) (k : Nat) : Dev :=
  let key := nodeKey k (w / 8 ^ k)
  { d with vmp.nodes := tabPut 0 d.vmp.nodes key 0, vmp.frozenNodes := d.vmp.frozenNodes.filter (· != key) }

/-- A group re-encrypted under the new key: its level-1 node used, its counters 0, its freeze ended. -/
def sweepGroup (d : Dev) (g : Nat) : Dev :=
  if groupPoisoned d g then d
  else
    let d1 := useNode 8 1 (g / 8) 1 d
    { setGroup d1 g {} with vmp.frozenCount := if (groupOf d1 g).frozen then d1.vmp.frozenCount - 1 else d1.vmp.frozenCount }

/-- Activities that waited for the sweep go on (18 R504): FW_ACTIVATE drains, SELF_TEST runs. -/
def startWaiting (d : Dev) : Dev :=
  let d1 := match activityOf d 2 with | some a => if a.st = 1 then activateDrain d else d | none => d
  modActivity d1 7 fun a => if a.st = 1 then { a with st := 2 } else a

/-- The sweep over: the old key erased, the Frog IDLE; a sweep that is an activity ends with it. -/
def settleSweep (d : Dev) : Dev :=
  let d1 := { d with vmp.frog := 0x0F, vmp.oldKey := none, vmp.row := 0, vmp.sweeps := holdAt 32 (d.vmp.sweeps + 1), vmp.event := setBit d.vmp.event 4,
                     vmp.sweepHosted := false, vmp.sweepRate := d.vmp.frogRate }
  startWaiting (endActivity d1 4 3 stOk 0)

/-- The data lines of a group. -/
def groupLines (g : Nat) : List Nat := (List.range 64).map (64 * g + ·)

/-- FROG_GROUP_STEP (R208): the group at the working row, with the failed checks that reading it met. The Frog holds at its row while a handler holds
the VMP, and at an undefined FROG_STATE, which raises its alarm (15 R450). -/
def frogGroupStepEff (found : List LineFail) (d : Dev) : Dev :=
  if !frogKnown d.vmp.frog then invalidCode d 5 d.vmp.frog clsL
  else if d.vmp.frog ≠ 0x55 ∨ d.vmp.st ≠ 0x96 ∨ vmpHeld d ∨ d.glb.failStop then d
  else
    let d1 := found.foldl (fun d x => if onWalk d (groupLines d.vmp.row) x then meetFail x d else d) d
    if d1.vmp.st ≠ 0x96 ∨ d1.vmp.frog ≠ 0x55 then d1
    else
      let w := d1.vmp.row
      let d2 := (lastLevels w).foldl (clearNode w) (sweepGroup d1 w)
      let d3 := { d2 with vmp.row := w + 1 }
      if w + 1 < groupCount d3.vmp.n then d3 else settleSweep d3
def execFrogGroupStep (found : List LineFail) (s : State) := s.onDev (frogGroupStepEff found)

/-- FROG_PERIOD_EXPIRY (R206; 18 R504): FROG_PERIOD hours after the last sweep began, or after the vault became READY. -/
def frogPeriodExpiryEff (d : Dev) : Dev :=
  if d.vmp.frogPeriod = 0 ∨ d.vmp.st ≠ 0x96 ∨ d.vmp.frog ≠ 0x0F then d
  else if sweepHeldBack d then { d with vmp.sweepWaits := true }
  else frogTrigger d
def execFrogPeriodExpiry (s : State) := s.onDev frogPeriodExpiryEff

/-- FROG_DRAW_RETRY (R208): one second after the DRBG could not supply a key. -/
def frogDrawRetryEff (d : Dev) : Dev := if d.vmp.drawRetry then frogTrigger { d with vmp.drawRetry := false } else d
def execFrogDrawRetry (s : State) := s.onDev frogDrawRetryEff

/-! ## Repairs (R213, R214) -/

/-- Whether a record slot lies in a unit. -/
def slotIn (n : Nat) (p : Poison) (slot : Nat) : Bool :=
  p.level != 0xF && decide (2 * slot < p.first + poisonLines n p.level) && decide (p.first < 2 * slot + 2)

/-- The record slots in use that a unit covers. -/
def unitSlots (d : Dev) (p : Poison) : List Nat := (d.vmp.slots.filter fun s => slotIn d.vmp.n p s.1).map Prod.fst

/-- The handles whose records lie in a unit. -/
def unitHandles (d : Dev) (p : Poison) : List Nat := ((d.vmp.slots.filter fun s => slotIn d.vmp.n p s.1).map fun s => s.2.handle).eraseDups

/-- Whether an outcome can end the repair of a unit, by the first source of R213 that serves it: 1 from the mirror, 5 from the index copy, 6 rebuilt
empty, 2 from a ring peer, 3 reported. -/
def outcomeOk (d : Dev) (p : Poison) (outcome : Nat) (missing : List Nat) : Bool :=
  let h := unitHandles d p
  if mirrorServes d p then outcome == 1
  else if p.level = 0xF then outcome == 5
  else if h.isEmpty then outcome == 6
  else (outcome == 2 && joined d) ||
    (outcome == 3 && !missing.isEmpty && missing.all h.contains && (joined d || h.all missing.contains))

/-- Whether a node lies below the node of a unit, which covers groups g to g + 8^level − 1. -/
def nodeBelow (g level key : Nat) : Bool :=
  let k := key / 2 ^ 32
  let first := key % 2 ^ 32 * 8 ^ k
  decide (1 ≤ k) && decide (k < level) && decide (g ≤ first) && decide (first < g + 8 ^ level)

/-- Fresh counter blocks and nodes for a unit rebuilt, and the counter of its node in the parent raised by one; what was frozen in it is free. -/
def freshCounters (d : Dev) (p : Poison) : Dev :=
  if 6 < p.level then d
  else
    let g := p.first / 64
    let key := nodeKey p.level (g / 8 ^ p.level)
    let inside := fun c : Nat => decide (g ≤ c) && decide (c < g + 8 ^ p.level)
    let frozen := (d.vmp.groups.filter fun x => inside x.1 && x.2.frozen).length
    let kept := d.vmp.nodes.filter fun x => !nodeBelow g p.level x.1
    { d with vmp.groups := d.vmp.groups.filter fun x => !inside x.1
             vmp.frozenCount := d.vmp.frozenCount - frozen
             vmp.frozenNodes := d.vmp.frozenNodes.filter fun x => !nodeBelow g p.level x && x != key
             vmp.nodes := if p.level = 0 then kept else tabPut 0 kept key (tabGet 0 kept key + 1) }

/-- A record obtained from its other holder written in a unit rebuilt (08 R239). -/
def rebuildRecord (recs : List Record) (d : Dev) (slot : Nat) : Dev :=
  let old := recordAt d slot
  match recs.find? fun r => r.handle == old.handle && r.chainPos == old.chainPos with
  | none => d
  | some r => putAt d slot { r with poisoned := false, invocations := if r.chainPos = 0 then max old.invocations (arrivalInvocations d r) else 0 }

/-- The chain of a handle that no holder can supply leaves the vault for the poison report. -/
def reportHandle (e : Nat) (d : Dev) (h : Nat) : Dev :=
  let gone := (d.vmp.slots.filter fun p => p.2.handle == h).map Prod.fst
  { gone.foldl freeAt d with vmp.report := (d.vmp.report.filter (·.1 != h)) ++ [(h, e)] }

/-- The log entry and the event of an entry's outcome, and the commands that waited for the repair. -/
def closeEntry (d : Dev) (e outcome handles : Nat) : Dev :=
  let p := { tabGet {} d.vmp.poison e with outcome, handles }
  let d1 := { d with vmp.poison := tabPut {} d.vmp.poison e p, vmp.event := setBit d.vmp.event (if outcome = 3 then 2 else 1) }
  wakeWhere (logVault d1 4 (natLe 1 e ++ natLe 1 outcome)) fun c => c.wait == .repair

/-- POISON_REPAIR_DONE (R213): `missing` are the handles no holder can supply, `recs` the records that holders did. -/
def poisonRepairDoneEff (entry outcome : Nat) (missing : List Nat) (recs : List Record) (d : Dev) : Dev :=
  let p := tabGet {} d.vmp.poison entry
  if p.outcome ≠ 0 ∨ p.level = 0xC ∨ ¬ vaultBuilt d ∨ ¬ outcomeOk d p outcome missing then d
  else if outcome = 1 ∨ outcome = 5 then closeEntry d entry outcome 0
  else
    let slots := unitSlots d p
    let gone := if outcome = 3 then missing.eraseDups else []
    let d1 := slots.foldl (rebuildRecord recs) (freshCounters d p)
    closeEntry (gone.foldl (reportHandle entry) d1) entry outcome (holdAt 16 gone.length)
def execPoisonRepairDone (entry outcome : Nat) (missing : List Nat) (recs : List Record) (s : State) :=
  s.onDev (poisonRepairDoneEff entry outcome missing recs)

/-! ## DIMM temperature (19 R521) -/

/-- DIMM_TEMP_EXCURSION: above 85 °C the channel is refreshed at twice the rate. -/
def dimmTempExcursionEff (bay : Nat) (temp : Int) (d : Dev) : Dev :=
  let hot := decide (85 < temp)
  let d1 := { d with bay.hubTemps := modifyAt d.bay.hubTemps bay fun _ => some temp }
  if !d.bay.fabric || !(d.bay.dimms.getD bay {}).fitted then d
  else if hot == d.bay.refreshDouble.getD bay false then d1
  else logPower { d1 with bay.refreshDouble := modifyAt d.bay.refreshDouble bay fun _ => hot } (if hot then 7 else 8)
    (zeroBytes 1 ++ natLe 1 bay ++ natLe 1 (signed 8 temp))
def execDimmTempExcursion (bay : Nat) (temp : Int) (s : State) := s.onDev (dimmTempExcursionEff bay temp)

end Sys2Proof.Machine
end

