-- ==== Sys2Proof/Machine/Dispatch.lean ====
section
/-! DEFINITION. The dispatch of commands: one arm per row of the table. -/

namespace Sys2Proof.Machine

def exec (i : Instr) (s : State) : Host.Outcome State Fault Refusal :=
  match i with
  | .identify k inp => Sys2Proof.Machine.execIdentify k inp s
  | .getStatus k inp => Sys2Proof.Machine.execGetStatus k inp s
  | .setTenantConfig k inp => Sys2Proof.Machine.execSetTenantConfig k inp s
  | .getTenantConfig k inp => Sys2Proof.Machine.execGetTenantConfig k inp s
  | .resetTenant k inp => Sys2Proof.Machine.execResetTenant k inp s
  | .resetTenantDrainEnd k => Sys2Proof.Machine.execResetTenantDrainEnd k s
  | .logRead k inp => Sys2Proof.Machine.execLogRead k inp s
  | .vaultLoadBegin k inp => Sys2Proof.Machine.execVaultLoadBegin k inp s
  | .vaultLoadRecords k inp => Sys2Proof.Machine.execVaultLoadRecords k inp s
  | .vaultLoadEnd k inp => Sys2Proof.Machine.execVaultLoadEnd k inp s
  | .vaultSave k inp => Sys2Proof.Machine.execVaultSave k inp s
  | .vaultPoisonReport k inp => Sys2Proof.Machine.execVaultPoisonReport k inp s
  | .lifecycleTransition k inp => Sys2Proof.Machine.execLifecycleTransition k inp s
  | .lifecycleDrainEnd => Sys2Proof.Machine.execLifecycleDrainEnd s
  | .lifecycleWipeDone boot => Sys2Proof.Machine.execLifecycleWipeDone boot s
  | .unlockRequest k inp => Sys2Proof.Machine.execUnlockRequest k inp s
  | .unlockApprove k inp => Sys2Proof.Machine.execUnlockApprove k inp s
  | .approvalBegin k inp => Sys2Proof.Machine.execApprovalBegin k inp s
  | .approvalAdd k inp => Sys2Proof.Machine.execApprovalAdd k inp s
  | .approvalClose k inp => Sys2Proof.Machine.execApprovalClose k inp s
  | .custodian k inp => Sys2Proof.Machine.execCustodian k inp s
  | .rootInit k inp => Sys2Proof.Machine.execRootInit k inp s
  | .componentTransport k inp => Sys2Proof.Machine.execComponentTransport k inp s
  | .cardOpen k inp => Sys2Proof.Machine.execCardOpen k inp s
  | .maintStart k inp => Sys2Proof.Machine.execMaintStart k inp s
  | .maintStatus k inp => Sys2Proof.Machine.execMaintStatus k inp s
  | .maintStop k inp => Sys2Proof.Machine.execMaintStop k inp s
  | .shutdown k inp => Sys2Proof.Machine.execShutdown k inp s
  | .keyGenerate k inp => Sys2Proof.Machine.execKeyGenerate k inp s
  | .keyImport k inp => Sys2Proof.Machine.execKeyImport k inp s
  | .keyExport k inp => Sys2Proof.Machine.execKeyExport k inp s
  | .keyReplace k inp => Sys2Proof.Machine.execKeyReplace k inp s
  | .keyComponent k inp => Sys2Proof.Machine.execKeyComponent k inp s
  | .keyDestroy k inp => Sys2Proof.Machine.execKeyDestroy k inp s
  | .keyInfo k inp => Sys2Proof.Machine.execKeyInfo k inp s
  | .keyDerive k inp => Sys2Proof.Machine.execKeyDerive k inp s
  | .attest k inp => Sys2Proof.Machine.execAttest k inp s
  | .symCipher k inp => Sys2Proof.Machine.execSymCipher k inp s
  | .aead k inp => Sys2Proof.Machine.execAead k inp s
  | .cmac k inp => Sys2Proof.Machine.execCmac k inp s
  | .keyWrap k inp => Sys2Proof.Machine.execKeyWrap k inp s
  | .keyUnwrap k inp => Sys2Proof.Machine.execKeyUnwrap k inp s
  | .pkSign k inp => Sys2Proof.Machine.execPkSign k inp s
  | .pkVerify k inp => Sys2Proof.Machine.execPkVerify k inp s
  | .pkDecrypt k inp => Sys2Proof.Machine.execPkDecrypt k inp s
  | .pkKem k inp => Sys2Proof.Machine.execPkKem k inp s
  | .pkPublic k inp => Sys2Proof.Machine.execPkPublic k inp s
  | .emvCert k inp => Sys2Proof.Machine.execEmvCert k inp s
  | .tr34 k inp => Sys2Proof.Machine.execTr34 k inp s
  | .pinTranslate k inp => Sys2Proof.Machine.execPinTranslate k inp s
  | .pinVerify k inp => Sys2Proof.Machine.execPinVerify k inp s
  | .pinGenerate k inp => Sys2Proof.Machine.execPinGenerate k inp s
  | .pinChange k inp => Sys2Proof.Machine.execPinChange k inp s
  | .arqcVerify k inp => Sys2Proof.Machine.execArqcVerify k inp s
  | .cvc k inp => Sys2Proof.Machine.execCvc k inp s
  | .emvScript k inp => Sys2Proof.Machine.execEmvScript k inp s
  | .payMac k inp => Sys2Proof.Machine.execPayMac k inp s
  | .stsCreditToken k inp => Sys2Proof.Machine.execStsCreditToken k inp s
  | .stsDecoderKey k inp => Sys2Proof.Machine.execStsDecoderKey k inp s
  | .stsKeyChange k inp => Sys2Proof.Machine.execStsKeyChange k inp s
  | .stsMgmtToken k inp => Sys2Proof.Machine.execStsMgmtToken k inp s
  | .dlmsProtect k inp => Sys2Proof.Machine.execDlmsProtect k inp s
  | .dlmsUnprotect k inp => Sys2Proof.Machine.execDlmsUnprotect k inp s
  | .meterKeyRotate k inp => Sys2Proof.Machine.execMeterKeyRotate k inp s
  | .meterKeyLoad k inp => Sys2Proof.Machine.execMeterKeyLoad k inp s
  | .ringConfig k inp => Sys2Proof.Machine.execRingConfig k inp s
  | .ringCtrl k inp => Sys2Proof.Machine.execRingCtrl k inp s
  | .ringView k inp => Sys2Proof.Machine.execRingView k inp s
  | .placementMapRead k inp => Sys2Proof.Machine.execPlacementMapRead k inp s
  | .checkValue k inp => Sys2Proof.Machine.execCheckValue k inp s
  | .random k inp => Sys2Proof.Machine.execRandom k inp s
  | .sqTailDoorbell fn q idx => Sys2Proof.Machine.execSqTailDoorbell fn q idx s
  | .cqHeadDoorbell fn q idx => Sys2Proof.Machine.execCqHeadDoorbell fn q idx s
  | .qpEnable n q w => Sys2Proof.Machine.execQpEnable n q w s
  | .qpDisable n q w => Sys2Proof.Machine.execQpDisable n q w s
  | .adminQueueEnable w => Sys2Proof.Machine.execAdminQueueEnable w s
  | .adminQueueDisable w => Sys2Proof.Machine.execAdminQueueDisable w s
  | .queueFetch => Sys2Proof.Machine.execQueueFetch s
  | .fetchEntriesArrive j entries => Sys2Proof.Machine.execFetchEntriesArrive j entries s
  | .fetchRetryTimer fn q => Sys2Proof.Machine.execFetchRetryTimer fn q s
  | .irqCoalesceTimeout n q => Sys2Proof.Machine.execIrqCoalesceTimeout n q s
  | .eventFlagPost k useNo flag => Sys2Proof.Machine.execEventFlagPost k useNo flag s
  | .taskDispatch run => Sys2Proof.Machine.execTaskDispatch run s
  | .runLimitExpiry core => Sys2Proof.Machine.execRunLimitExpiry core s
  | .taskWaitTimer k => Sys2Proof.Machine.execTaskWaitTimer k s
  | .flrVf n => Sys2Proof.Machine.execFlrVf n s
  | .flrPf => Sys2Proof.Machine.execFlrPf s
  | .d3hotReturn fn => Sys2Proof.Machine.execD3hotReturn fn s
  | .vfEnableClear => Sys2Proof.Machine.execVfEnableClear s
  | .vfEnableSet numVFs => Sys2Proof.Machine.execVfEnableSet numVFs s
  | .busMasterEnableClear fn => Sys2Proof.Machine.execBusMasterEnableClear fn s
  | .busMasterEnableSet fn => Sys2Proof.Machine.execBusMasterEnableSet fn s
  | .perstOrLinkDown perst => Sys2Proof.Machine.execPerstOrLinkDown perst s
  | .perstRelease => Sys2Proof.Machine.execPerstRelease s
  | .glbTimeLowRead fn => Sys2Proof.Machine.execGlbTimeLowRead fn s
  | .profileWrite w => Sys2Proof.Machine.execProfileWrite w s
  | .profileSlewDone => Sys2Proof.Machine.execProfileSlewDone s
  | .paceWindowClose laps die hubs => Sys2Proof.Machine.execPaceWindowClose laps die hubs s
  | .interfaceStall iface unit => Sys2Proof.Machine.execInterfaceStall iface unit s
  | .attachAck w => Sys2Proof.Machine.execAttachAck w s
  | .commitGo block w => Sys2Proof.Machine.execCommitGo block w s
  | .vfcfgCommitWrite w => Sys2Proof.Machine.execVfcfgCommitWrite w s
  | .commitApply block => Sys2Proof.Machine.execCommitApply block s
  | .registerWrite a => Sys2Proof.Machine.execRegisterWrite a s
  | .lockRequest n => Sys2Proof.Machine.execLockRequest n s
  | .lockRelease n => Sys2Proof.Machine.execLockRelease n s
  | .lockGrant lane => Sys2Proof.Machine.execLockGrant lane s
  | .lockExpiry n => Sys2Proof.Machine.execLockExpiry n s
  | .actClaimRead k => Sys2Proof.Machine.execActClaimRead k s
  | .actUpdateGo k => Sys2Proof.Machine.execActUpdateGo k s
  | .actUpdateAbandon k => Sys2Proof.Machine.execActUpdateAbandon k s
  | .actDrainDone => Sys2Proof.Machine.execActDrainDone s
  | .actDrainTimeout => Sys2Proof.Machine.execActDrainTimeout s
  | .smbusStatusRead => Sys2Proof.Machine.execSmbusStatusRead s
  | .smbusAlertResponse => Sys2Proof.Machine.execSmbusAlertResponse s
  | .smbusWrite code value => Sys2Proof.Machine.execSmbusWrite code value s
  | .auxPowerUp => Sys2Proof.Machine.execAuxPowerUp s
  | .auxLogicResetRelease straps seatHigh record cell => Sys2Proof.Machine.execAuxLogicResetRelease straps seatHigh record cell s
  | .keeperCheckDone boot => Sys2Proof.Machine.execKeeperCheckDone boot s
  | .bayIdChange straps => Sys2Proof.Machine.execBayIdChange straps s
  | .mainPowerArrival => Sys2Proof.Machine.execMainPowerArrival s
  | .p12vRampDone boot => Sys2Proof.Machine.execP12vRampDone boot s
  | .startupComplete => Sys2Proof.Machine.execStartupComplete s
  | .mainPowerLoss => Sys2Proof.Machine.execMainPowerLoss s
  | .auxPowerLoss => Sys2Proof.Machine.execAuxPowerLoss s
  | .seatNHigh => Sys2Proof.Machine.execSeatNHigh s
  | .attentionPress => Sys2Proof.Machine.execAttentionPress s
  | .removalAbortWindowEnd => Sys2Proof.Machine.execRemovalAbortWindowEnd s
  | .removalDrainDone => Sys2Proof.Machine.execRemovalDrainDone s
  | .ringLeaveTimeout => Sys2Proof.Machine.execRingLeaveTimeout s
  | .cellPackSeated cell => Sys2Proof.Machine.execCellPackSeated cell s
  | .cellPackRemoved => Sys2Proof.Machine.execCellPackRemoved s
  | .cellVoltageLow millivolts => Sys2Proof.Machine.execCellVoltageLow millivolts s
  | .cardInserted slot serial classB => Sys2Proof.Machine.execCardInserted slot serial classB s
  | .cardWithdrawn slot => Sys2Proof.Machine.execCardWithdrawn slot s
  | .cardExchangeTimeout slot => Sys2Proof.Machine.execCardExchangeTimeout slot s
  | .cardOpeningExpiry slot => Sys2Proof.Machine.execCardOpeningExpiry slot s
  | .approvalSessionExpiry j => Sys2Proof.Machine.execApprovalSessionExpiry j s
  | .componentSessionExpiry n => Sys2Proof.Machine.execComponentSessionExpiry n s
  | .tokenSessionExpiry => Sys2Proof.Machine.execTokenSessionExpiry s
  | .retiringVersionExpiry handle => Sys2Proof.Machine.execRetiringVersionExpiry handle s
  | .sentinelScan scan => Sys2Proof.Machine.execSentinelScan scan s
  | .windowedSourceSecond src measured => Sys2Proof.Machine.execWindowedSourceSecond src measured s
  | .keeperTick => Sys2Proof.Machine.execKeeperTick s
  | .keeperRemask => Sys2Proof.Machine.execKeeperRemask s
  | .logAppend => Sys2Proof.Machine.execLogAppend s
  | .logReleaseWrite seq => Sys2Proof.Machine.execLogReleaseWrite seq s
  | .logReleaseDone => Sys2Proof.Machine.execLogReleaseDone s
  | .timeAdjWrite w => Sys2Proof.Machine.execTimeAdjWrite w s
  | .timeSetWrite v => Sys2Proof.Machine.execTimeSetWrite v s
  | .ringJoinRaise => Sys2Proof.Machine.execRingJoinRaise s
  | .joinAuthTimeout => Sys2Proof.Machine.execJoinAuthTimeout s
  | .joinRetryTimer => Sys2Proof.Machine.execJoinRetryTimer s
  | .ringFormWaitExpiry => Sys2Proof.Machine.execRingFormWaitExpiry s
  | .beatSendTimer => Sys2Proof.Machine.execBeatSendTimer s
  | .beatReceived h pace => Sys2Proof.Machine.execBeatReceived h pace s
  | .memberLossDetected m => Sys2Proof.Machine.execMemberLossDetected m s
  | .standbyViewDelay => Sys2Proof.Machine.execStandbyViewDelay s
  | .prevEpochKeyExpiry => Sys2Proof.Machine.execPrevEpochKeyExpiry s
  | .partedTimeout => Sys2Proof.Machine.execPartedTimeout s
  | .joinFrame h j => Sys2Proof.Machine.execJoinFrame h j s
  | .viewFrame h v => Sys2Proof.Machine.execViewFrame h v s
  | .keysFrame h epoch key => Sys2Proof.Machine.execKeysFrame h epoch key s
  | .mapFrame h mapSeq entries => Sys2Proof.Machine.execMapFrame h mapSeq entries s
  | .leaveFrame h confirm member => Sys2Proof.Machine.execLeaveFrame h confirm member s
  | .configFrame h config sigMldsa sigP384 => Sys2Proof.Machine.execConfigFrame h config sigMldsa sigP384 s
  | .syncFrame h answer c => Sys2Proof.Machine.execSyncFrame h answer c s
  | .noticeFrame h handle => Sys2Proof.Machine.execNoticeFrame h handle s
  | .forwardFrame h f => Sys2Proof.Machine.execForwardFrame h f s
  | .replyFrame h originCtx issue r => Sys2Proof.Machine.execReplyFrame h originCtx issue r s
  | .changeLockFrame h grant key ctx => Sys2Proof.Machine.execChangeLockFrame h grant key ctx s
  | .replicateFrame h ack origin issue changes outcome => Sys2Proof.Machine.execReplicateFrame h ack origin issue changes outcome s
  | .transferFrame h request handle ctx recs => Sys2Proof.Machine.execTransferFrame h request handle ctx recs s
  | .copyFrame h bucket recs last => Sys2Proof.Machine.execCopyFrame h bucket recs last s
  | .saveFrame h ctx recs last => Sys2Proof.Machine.execSaveFrame h ctx recs last s
  | .frameAckTimeout east => Sys2Proof.Machine.execFrameAckTimeout east s
  | .linkRetrainTimer east trained => Sys2Proof.Machine.execLinkRetrainTimer east trained s
  | .ringLaneFail east lane => Sys2Proof.Machine.execRingLaneFail east lane s
  | .frogPeriodExpiry => Sys2Proof.Machine.execFrogPeriodExpiry s
  | .frogGroupStep found => Sys2Proof.Machine.execFrogGroupStep found s
  | .frogDrawRetry => Sys2Proof.Machine.execFrogDrawRetry s
  | .poisonRepairDone entry outcome missing recs => Sys2Proof.Machine.execPoisonRepairDone entry outcome missing recs s
  | .dimmTempExcursion bay temp => Sys2Proof.Machine.execDimmTempExcursion bay temp s
  | .noiseSourceTestFail src test => Sys2Proof.Machine.execNoiseSourceTestFail src test s
  | .noiseSourceRetest src passes => Sys2Proof.Machine.execNoiseSourceRetest src passes s
  | .drbgReseedDue => Sys2Proof.Machine.execDrbgReseedDue s
  | .entReseedWrite w => Sys2Proof.Machine.execEntReseedWrite w s
  | .entropyWaitTimeout k => Sys2Proof.Machine.execEntropyWaitTimeout k s
  | .cvuStart u w => Sys2Proof.Machine.execCvuStart u w s
  | .cvuJobDone u data => Sys2Proof.Machine.execCvuJobDone u data s
  | .faultDetected f => Sys2Proof.Machine.execFaultDetected f s
  | .commandScopeHandling again second => Sys2Proof.Machine.execCommandScopeHandling again second s
  | .tenantScopeHandling queuePairInError => Sys2Proof.Machine.execTenantScopeHandling queuePairInError s
  | .ringScopeHandling ok => Sys2Proof.Machine.execRingScopeHandling ok s
  | .moduleScopeHandling restored => Sys2Proof.Machine.execModuleScopeHandling restored s
  | .handlerTimeLimit scope => Sys2Proof.Machine.execHandlerTimeLimit scope s
  | .fwWriteDone boot => Sys2Proof.Machine.execFwWriteDone boot s
  | .fwActivateRestart boot => Sys2Proof.Machine.execFwActivateRestart boot s
  | .fuseDisableDone => Sys2Proof.Machine.execFuseDisableDone s
  | .cellReplaceDone => Sys2Proof.Machine.execCellReplaceDone s
  | .cellReplaceTimeout => Sys2Proof.Machine.execCellReplaceTimeout s
  | .selfTestDone failed => Sys2Proof.Machine.execSelfTestDone failed s
  | .ringReceiverRelock east => Sys2Proof.Machine.execRingReceiverRelock east s
  | .ringLinkAck east seq good => Sys2Proof.Machine.execRingLinkAck east seq good s
  | .loopProofTimeout => Sys2Proof.Machine.execLoopProofTimeout s
  | .holdoverExhausted => Sys2Proof.Machine.execHoldoverExhausted s
  | .joinerFormatDone => Sys2Proof.Machine.execJoinerFormatDone s
  | .outcomeCacheEntryAged origin issue => Sys2Proof.Machine.execOutcomeCacheEntryAged origin issue s
  | .serviceUartStatusLine => Sys2Proof.Machine.execServiceUartStatusLine s
  | .serviceUartInput byte addr bytes kind => Sys2Proof.Machine.execServiceUartInput byte addr bytes kind s
  | .jtagAccess addr bytes kind value start => Sys2Proof.Machine.execJtagAccess addr bytes kind value start s
  | .journalFlashRefresh slot => Sys2Proof.Machine.execJournalFlashRefresh slot s

end Sys2Proof.Machine
end

