-- ==== Sys2Proof/WellFormed.lean ====
section
/-! DEFINITION. Well-formed commands: each operand within the field, pin or register that carries it. -/

namespace Sys2Proof

/-- A number below a bound. -/
def lt (v bound : Nat) : Bool := decide (v < bound)

/-- A function of the module: the PF or one of 4,096 VFs (03 R71). -/
def fnWf : Fn → Bool
  | .pf => true
  | .vf n => lt n 4096

/-- A frame header within its fields (12 R340). -/
def hdrWf (h : Hdr) : Bool :=
  lt h.type 256 && lt h.src 16 && lt h.dst 256 && lt h.cls 256 && lt h.epoch (2^32) && lt h.seq (2^64) && lt h.length (2^32) && lt h.keysel 256 && lt h.clock (2^64)

/-- A register access within its bus (03 R75, 13 R379). -/
def accessWf : RegAccess → Bool
  | .host fn _ off n v _ => fnWf fn && lt off (2^26) && lt n 9 && lt v (2^64)
  | .internal cls ctx addr n _ v => lt cls 16 && lt ctx 4096 && lt addr (2^40) && lt n 65 && lt v (2^64)
  | .config fn _ off v => fnWf fn && lt off 4096 && lt v (2^32)

/-- A signed number of magnitude below a bound. -/
def within (v : Int) (bound : Nat) : Bool := decide (-(bound : Int) < v) && decide (v < bound)

/-- A failed vault check within its fields (07 R212, R223). -/
def failWf (x : LineFail) : Bool := lt x.kind 3 && lt x.channel 4 && (lt x.level 7 || x.level == 13 || x.level == 14 || x.level == 15) && lt x.first (2^32)

/-- Whether every operand of a command lies within its field. -/
def Instr.wf : Instr → Bool
  | .identify k _ => lt k (4096)
  | .getStatus k _ => lt k (4096)
  | .setTenantConfig k _ => lt k (4096)
  | .getTenantConfig k _ => lt k (4096)
  | .resetTenant k _ => lt k (4096)
  | .resetTenantDrainEnd k => lt k (4096)
  | .logRead k _ => lt k (4096)
  | .vaultLoadBegin k _ => lt k (4096)
  | .vaultLoadRecords k _ => lt k (4096)
  | .vaultLoadEnd k _ => lt k (4096)
  | .vaultSave k _ => lt k (4096)
  | .vaultPoisonReport k _ => lt k (4096)
  | .lifecycleTransition k _ => lt k (4096)
  | .lifecycleDrainEnd => true
  | .lifecycleWipeDone _ => true
  | .unlockRequest k _ => lt k (4096)
  | .unlockApprove k _ => lt k (4096)
  | .approvalBegin k _ => lt k (4096)
  | .approvalAdd k _ => lt k (4096)
  | .approvalClose k _ => lt k (4096)
  | .custodian k _ => lt k (4096)
  | .rootInit k _ => lt k (4096)
  | .componentTransport k _ => lt k (4096)
  | .cardOpen k _ => lt k (4096)
  | .maintStart k _ => lt k (4096)
  | .maintStatus k _ => lt k (4096)
  | .maintStop k _ => lt k (4096)
  | .shutdown k _ => lt k (4096)
  | .keyGenerate k _ => lt k (4096)
  | .keyImport k _ => lt k (4096)
  | .keyExport k _ => lt k (4096)
  | .keyReplace k _ => lt k (4096)
  | .keyComponent k _ => lt k (4096)
  | .keyDestroy k _ => lt k (4096)
  | .keyInfo k _ => lt k (4096)
  | .keyDerive k _ => lt k (4096)
  | .attest k _ => lt k (4096)
  | .symCipher k _ => lt k (4096)
  | .aead k _ => lt k (4096)
  | .cmac k _ => lt k (4096)
  | .keyWrap k _ => lt k (4096)
  | .keyUnwrap k _ => lt k (4096)
  | .pkSign k _ => lt k (4096)
  | .pkVerify k _ => lt k (4096)
  | .pkDecrypt k _ => lt k (4096)
  | .pkKem k _ => lt k (4096)
  | .pkPublic k _ => lt k (4096)
  | .emvCert k _ => lt k (4096)
  | .tr34 k _ => lt k (4096)
  | .pinTranslate k _ => lt k (4096)
  | .pinVerify k _ => lt k (4096)
  | .pinGenerate k _ => lt k (4096)
  | .pinChange k _ => lt k (4096)
  | .arqcVerify k _ => lt k (4096)
  | .cvc k _ => lt k (4096)
  | .emvScript k _ => lt k (4096)
  | .payMac k _ => lt k (4096)
  | .stsCreditToken k _ => lt k (4096)
  | .stsDecoderKey k _ => lt k (4096)
  | .stsKeyChange k _ => lt k (4096)
  | .stsMgmtToken k _ => lt k (4096)
  | .dlmsProtect k _ => lt k (4096)
  | .dlmsUnprotect k _ => lt k (4096)
  | .meterKeyRotate k _ => lt k (4096)
  | .meterKeyLoad k _ => lt k (4096)
  | .ringConfig k _ => lt k (4096)
  | .ringCtrl k _ => lt k (4096)
  | .ringView k _ => lt k (4096)
  | .placementMapRead k _ => lt k (4096)
  | .checkValue k _ => lt k (4096)
  | .random k _ => lt k (4096)
  | .sqTailDoorbell fn q idx => fnWf fn && lt q (8) && lt idx (2^16)
  | .cqHeadDoorbell fn q idx => fnWf fn && lt q (8) && lt idx (2^16)
  | .qpEnable n q w => lt n (4096) && lt q (8) && lt w (2^32)
  | .qpDisable n q w => lt n (4096) && lt q (8) && lt w (2^32)
  | .adminQueueEnable w => lt w (2^32)
  | .adminQueueDisable w => lt w (2^32)
  | .queueFetch => true
  | .fetchEntriesArrive j entries => lt j (4096) && ((entries.getD []).all fun e => e.length == 128) && lt (entries.getD []).length 9
  | .fetchRetryTimer fn q => fnWf fn && lt q (8)
  | .irqCoalesceTimeout n q => lt n (4096) && lt q (8)
  | .eventFlagPost k useNo flag => lt k (4096) && lt useNo (256) && lt flag (32)
  | .taskDispatch _ => true
  | .runLimitExpiry core => lt core (24)
  | .taskWaitTimer k => lt k (4096)
  | .flrVf n => lt n (4096)
  | .flrPf => true
  | .d3hotReturn fn => fnWf fn
  | .vfEnableClear => true
  | .vfEnableSet numVFs => lt numVFs (4097)
  | .busMasterEnableClear fn => fnWf fn
  | .busMasterEnableSet fn => fnWf fn
  | .perstOrLinkDown _ => true
  | .perstRelease => true
  | .glbTimeLowRead fn => fnWf fn
  | .profileWrite w => lt w (2^32)
  | .profileSlewDone => true
  | .paceWindowClose laps die hubs => laps.length == 4 && laps.all (fun l => lt l 65536000) && within die 32768 && hubs.length == 4 && (hubs.filterMap id).all fun t => within t 128
  | .interfaceStall iface unit => lt iface 11 && lt unit 4
  | .attachAck w => lt w (2^32)
  | .commitGo block w => lt block (16) && lt w (2^32)
  | .vfcfgCommitWrite w => lt w (2^32)
  | .commitApply block => lt block (16)
  | .registerWrite a => accessWf a
  | .lockRequest n => lt n (4096)
  | .lockRelease n => lt n (4096)
  | .lockGrant lane => lt lane (64)
  | .lockExpiry n => lt n (4096)
  | .actClaimRead k => lt k (4096)
  | .actUpdateGo k => lt k (4096)
  | .actUpdateAbandon k => lt k (4096)
  | .actDrainDone => true
  | .actDrainTimeout => true
  | .smbusStatusRead => true
  | .smbusAlertResponse => true
  | .smbusWrite code value => lt code (256) && lt value (2^64)
  | .auxPowerUp => true
  | .auxLogicResetRelease straps _ _ _ => lt straps (16)
  | .keeperCheckDone _ => true
  | .bayIdChange straps => lt straps (16)
  | .mainPowerArrival => true
  | .p12vRampDone _ => true
  | .startupComplete => true
  | .mainPowerLoss => true
  | .auxPowerLoss => true
  | .seatNHigh => true
  | .attentionPress => true
  | .removalAbortWindowEnd => true
  | .removalDrainDone => true
  | .ringLeaveTimeout => true
  | .cellPackSeated _ => true
  | .cellPackRemoved => true
  | .cellVoltageLow millivolts => lt millivolts (65536)
  | .cardInserted slot serial _ => lt slot (2) && lt serial (2^64)
  | .cardWithdrawn slot => lt slot (2)
  | .cardExchangeTimeout slot => lt slot (2)
  | .cardOpeningExpiry slot => lt slot (2)
  | .approvalSessionExpiry j => lt j (8)
  | .componentSessionExpiry n => lt n (4096)
  | .tokenSessionExpiry => true
  | .retiringVersionExpiry handle => lt handle (2^64)
  | .sentinelScan _ => true
  | .windowedSourceSecond src _ => lt src (32)
  | .keeperTick => true
  | .keeperRemask => true
  | .logAppend => true
  | .logReleaseWrite seq => lt seq (2^64)
  | .logReleaseDone => true
  | .timeAdjWrite w => lt w (2^32)
  | .timeSetWrite v => lt v (2^64)
  | .ringJoinRaise => true
  | .joinAuthTimeout => true
  | .joinRetryTimer => true
  | .ringFormWaitExpiry => true
  | .beatSendTimer => true
  | .beatReceived h pace => hdrWf h && lt pace (65536)
  | .memberLossDetected m => lt m (16)
  | .standbyViewDelay => true
  | .prevEpochKeyExpiry => true
  | .partedTimeout => true
  | .joinFrame h _ => hdrWf h
  | .viewFrame h _ => hdrWf h
  | .keysFrame h epoch _ => hdrWf h && lt epoch (2^64)
  | .mapFrame h mapSeq _ => hdrWf h && lt mapSeq (2^64)
  | .leaveFrame h _ member => hdrWf h && lt member (16)
  | .configFrame h _ _ _ => hdrWf h
  | .syncFrame h _ c => hdrWf h && lt c (2^64)
  | .noticeFrame h handle => hdrWf h && lt handle (2^64)
  | .forwardFrame h f => hdrWf h && lt f.originCtx 4096 && lt f.tenant 65536 && lt f.level 8 && decide (f.entry.length = 128)
  | .replyFrame h originCtx issue _ => hdrWf h && lt originCtx (4096) && lt issue (2^64)
  | .changeLockFrame h _ key ctx => hdrWf h && lt key (2^64) && lt ctx (4096)
  | .replicateFrame h _ origin issue _ _ => hdrWf h && lt origin (16) && lt issue (2^64)
  | .transferFrame h _ handle ctx _ => hdrWf h && lt handle (2^64) && lt ctx (8192)
  | .copyFrame h bucket _ _ => hdrWf h && lt bucket (4096)
  | .saveFrame h ctx _ _ => hdrWf h && lt ctx (4096)
  | .frameAckTimeout _ => true
  | .linkRetrainTimer _ _ => true
  | .ringLaneFail _ lane => lt lane (16)
  | .frogPeriodExpiry => true
  | .frogGroupStep l => l.all failWf
  | .frogDrawRetry => true
  | .poisonRepairDone entry outcome _ _ => lt entry (128) && lt outcome (8)
  | .dimmTempExcursion bay temp => lt bay (4) && within temp 128
  | .noiseSourceTestFail src test => lt src (32) && lt test (16)
  | .noiseSourceRetest src _ => lt src (32)
  | .drbgReseedDue => true
  | .entReseedWrite w => lt w (2^32)
  | .entropyWaitTimeout k => lt k (4096)
  | .cvuStart u w => lt u (4) && lt w (2^32)
  | .cvuJobDone u _ => lt u (4)
  | .faultDetected f => lt f.scope 4 && lt f.cause 256
  | .commandScopeHandling _ _ => true
  | .tenantScopeHandling _ => true
  | .ringScopeHandling _ => true
  | .moduleScopeHandling _ => true
  | .handlerTimeLimit scope => lt scope (4)
  | .fwWriteDone _ => true
  | .fwActivateRestart _ => true
  | .fuseDisableDone => true
  | .cellReplaceDone => true
  | .cellReplaceTimeout => true
  | .selfTestDone l => l.all fun u => lt u 102
  | .ringReceiverRelock _ => true
  | .ringLinkAck _ seq _ => lt seq (2^64)
  | .loopProofTimeout => true
  | .holdoverExhausted => true
  | .joinerFormatDone => true
  | .outcomeCacheEntryAged origin issue => lt origin (16) && lt issue (2^64)
  | .serviceUartStatusLine => true
  | .serviceUartInput byte addr bytes _ => lt byte (256) && lt addr (2^64) && lt bytes (9)
  | .jtagAccess addr bytes _ value _ => lt addr (2^64) && lt bytes (9) && lt value (2^64)
  | .journalFlashRefresh slot => lt slot (4)

end Sys2Proof
end

