-- ==== Sys2Proof/Safety.lean ====
section
/-! DEFINITION. What claims mean by a sound state and by a command that reaches its effect: every addressed store in its canonical form; the
conditions, all on the state and the command's operands, under which every check of 04 R101 passes and the command's own effect is next. -/

namespace Sys2Proof.Safety

open Sys2Proof.Machine

/-- Every addressed store of the device is in its canonical form: keys rising, nothing listed that an unlisted place reads as. -/
def canonical (d : Dev) : Bool :=
  tabWf {} d.tenants && tabWf {} d.host.pfMsix && tabWf {} d.sch.ctxs && tabWf {} d.keys.root && tabWf 0 d.keys.marks &&
  tabWf [] d.keys.everUsed && tabWf {} d.vmp.groups && tabWf 0 d.vmp.nodes && tabWf {} d.vmp.slots && tabWf {} d.vmp.poison &&
  tabWf {} d.ring.map && tabWf {} d.ring.peers && tabWf {} d.act.entries && tabWf {} d.act.stage && tabWf {} d.sen.hist &&
  tabWf 0 d.sen.invalidAt

/-- The command in context k runs for the first time, on the module that fetched it: it is RUNNING with the card's opcode, its function has not
been reset since (03 R83), has Bus Master Enable 1 (03 R73), and the sled is seated (02 R54). -/
def runsHere (card : Card) (d : Dev) (k : Nat) : Bool :=
  let x := ctxOf d k
  x.code == csRunning && eOpcode x.entry == card.opcode && x.origin.isNone && x.inputs.isNone && x.gen == genOf d x.fn && bmeOf d x.fn &&
    !d.bay.seatHigh

/-- Nothing of the command concerns another ring member: outside a ring, or where it changes no key and this member holds every key it names
(12 R21, R359, R363). -/
def staysHere (card : Card) (d : Dev) (c : Cmd) : Bool :=
  !joined d || ((card.locks c).isEmpty && (card.handles c).all (holds d) && (card.route c).all (holds d))

/-- Whether a command takes exclusive holds on a module outside a ring (06 R165). -/
def holdsHere (card : Card) (d : Dev) (c : Cmd) : Bool := !joined d && holdsAlone card && !(lockKeys card d c).isEmpty

/-- The device with the records of a command read and the holds it takes, where they can be read, nothing of the command concerns another member, and
no other command holds its keys. -/
def recordsAtHand (card : Card) (d : Dev) (c : Cmd) : Option Dev :=
  let e := fetchRecords card d c
  if !staysHere card d c || !staysHere card e c || !ctxHeld (ctxOf e c.k) || (vaultStop card e c).isSome then none
  else if !holdsHere card e c then some e
  else if (lockKeys card e c).any (heldByOther e c.k) then none
  else some (holdKeys e c.k (lockKeys card e c))

/-- The command and the device as the card's own checks find them, where every check of 04 R101 before them passes in its order: the entry is
accepted, what it needs of host memory is read and well formed, its records can be read, nothing of it concerns another member,
an approval it needs is READY. -/
def ready (card : Card) (d : Dev) (k : Nat) (i : Inputs) : Option (Cmd × Dev) :=
  if !runsHere card d k || (entryFail card d (ctxOf d k)).isSome then none
  else match readCommand card (passEntry d k) k i with
    | .error _ => none
    | .ok c =>
      match card.origin c (passEntry d k) with
      | (_, some _) => none
      | (d1, none) =>
        match recordsAtHand card d1 c with
        | none => none
        | some e => if (card.preCheck c e).isSome then none else (approvedBy card e c).map fun d2 => (c, d2)

/-- The device as a command's effect finds it, where a unit is free, randomness at hand and its output may be written. -/
def served (card : Card) (d : Dev) (c : Cmd) : Option Dev :=
  match takeUnit d c.k (card.unit c) (laneKey card d c) (lockedLane card d c) with
  | .got d2 =>
    let n := drbgNeed card c
    let d3 := if n = 0 then d2 else drbgBefore (n = 2) d2
    if decide (0 < n) && !drbgUp d3 then none
    else if card.writesOut c && !bmeOf d3 c.fn then none
    else some (if card.unit c = .lane then drawMasks d3 else d3)
  | _ => none

/-- The command and the device as its effect finds them, where every check passes, the card's own among them, and nothing is waited for. -/
def reach (card : Card) (d : Dev) (k : Nat) (i : Inputs) : Option (Cmd × Dev) :=
  match ready card d k i with
  | some (c, d1) => if (card.check c d1).isSome then none else (served card d1 c).map fun e => (c, e)
  | none => none

/-- The reply of a command that succeeds. -/
def rep (result data : Bytes) : Reply := { status := stOk, result := fitTo 16 result, data }

/-- The reply of a command that succeeds with keys: OK_RETIRING_KEY where one of them was RETIRING (06 R158). -/
def repUsing (used : List Record) (result data : Bytes) (outs : List (Nat × Bytes)) : Reply :=
  { status := if used.any (·.st == 0x96) then stOkRetiring else stOk, result := fitTo 16 result, data, outs }

/-- The row's step leaves what its command's effect, which took the device from `d` to `e`, and the end of its run with reply `r` leave, and what follows
every command. -/
def ends (row : Instr) (s : State) (d e : Dev) (k : Nat) (r : Reply) (i : Inputs) : Prop := exec row s = .next (s.after (endRun d e k r i))

/-- The row's step leaves its command waiting in context k, on the device `e`, with the answers of the world it was given. -/
def leavesWaiting (row : Instr) (s : State) (e : Dev) (k : Nat) (w : Wait) (i : Inputs) : Prop :=
  exec row s = .next (s.after (park (modCtx e k fun x => { x with inputs := some i }) k w))

/-- The row's step leaves the device `e`, and what follows every command. -/
def leaves (row : Instr) (s : State) (e : Dev) : Prop := exec row s = .next (s.after e)

/-- The row's command, whose effect found the device `old`, ends with reply r once an edit of the vault is applied to `d`; where a group of its lines is
frozen it ends BUSY (07 R205). -/
def edits (row : Instr) (s : State) (old d : Dev) (edit : Edit) (k : Nat) (r : Reply) (i : Inputs) : Prop :=
  match applyEdit d edit with
  | (e, true) => ends row s old e k r i
  | (e, false) => ends row s old e k (bare stBusy) i

/-- The edit that writes a key not held before. -/
def newKeyEdit (d : Dev) (n : NewKey) : Edit := { puts := n.chain d.keys.floor 0x55 0, drops := [] }

/-- A host write of a register goes through at once: its function answers, the access table is OPEN with nothing waiting and permits it
(03 R75, 13 R381, R390). -/
def hostMay (d : Dev) (fn : Fn) (off bytes : Nat) : Bool :=
  d.bay.fabric && d.act.st == 0x0F && d.act.waiting.isEmpty && hostReaches d fn off && (deniedPiece d 4 (imageAddr fn off) bytes .write).isNone

/-- The rows that are a host command (01 R18), each with its card. -/
def hostRows (k : Nat) (i : Inputs) : List (Instr × Card) :=
  [(.identify k i, cardIdentify), (.getStatus k i, cardGetStatus), (.setTenantConfig k i, cardSetTenantConfig),
    (.getTenantConfig k i, cardGetTenantConfig), (.resetTenant k i, cardResetTenant), (.logRead k i, cardLogRead),
    (.vaultLoadBegin k i, cardVaultLoadBegin), (.vaultLoadRecords k i, cardVaultLoadRecords), (.vaultLoadEnd k i, cardVaultLoadEnd),
    (.vaultSave k i, cardVaultSave), (.vaultPoisonReport k i, cardVaultPoisonReport), (.lifecycleTransition k i, cardLifecycleTransition),
    (.unlockRequest k i, cardUnlockRequest), (.unlockApprove k i, cardUnlockApprove), (.approvalBegin k i, cardApprovalBegin),
    (.approvalAdd k i, cardApprovalAdd), (.approvalClose k i, cardApprovalClose), (.custodian k i, cardCustodian),
    (.rootInit k i, cardRootInit), (.componentTransport k i, cardComponentTransport), (.cardOpen k i, cardCardOpen),
    (.maintStart k i, cardMaintStart), (.maintStatus k i, cardMaintStatus), (.maintStop k i, cardMaintStop), (.shutdown k i, cardShutdown),
    (.keyGenerate k i, cardKeyGenerate), (.keyImport k i, cardKeyImport), (.keyExport k i, cardKeyExport), (.keyReplace k i, cardKeyReplace),
    (.keyComponent k i, cardKeyComponent), (.keyDestroy k i, cardKeyDestroy), (.keyInfo k i, cardKeyInfo), (.keyDerive k i, cardKeyDerive),
    (.attest k i, cardAttest), (.symCipher k i, cardSymCipher), (.aead k i, cardAead), (.cmac k i, cardCmac), (.keyWrap k i, cardKeyWrap),
    (.keyUnwrap k i, cardKeyUnwrap), (.pkSign k i, cardPkSign), (.pkVerify k i, cardPkVerify), (.pkDecrypt k i, cardPkDecrypt),
    (.pkKem k i, cardPkKem), (.pkPublic k i, cardPkPublic), (.emvCert k i, cardEmvCert), (.tr34 k i, cardTr34),
    (.pinTranslate k i, cardPinTranslate), (.pinVerify k i, cardPinVerify), (.pinGenerate k i, cardPinGenerate),
    (.pinChange k i, cardPinChange), (.arqcVerify k i, cardArqcVerify), (.cvc k i, cardCvc), (.emvScript k i, cardEmvScript),
    (.payMac k i, cardPayMac), (.stsCreditToken k i, cardStsCreditToken), (.stsDecoderKey k i, cardStsDecoderKey),
    (.stsKeyChange k i, cardStsKeyChange), (.stsMgmtToken k i, cardStsMgmtToken), (.dlmsProtect k i, cardDlmsProtect),
    (.dlmsUnprotect k i, cardDlmsUnprotect), (.meterKeyRotate k i, cardMeterKeyRotate), (.meterKeyLoad k i, cardMeterKeyLoad),
    (.ringConfig k i, cardRingConfig), (.ringCtrl k i, cardRingCtrl), (.ringView k i, cardRingView),
    (.placementMapRead k i, cardPlacementMapRead), (.checkValue k i, cardCheckValue), (.random k i, cardRandom)]

end Sys2Proof.Safety
end

