-- ==== Sys2Proof/Certificates/Slice0/Obligations.lean ====
section
/-! DEFINITION. The statements for the provers: what a step does, what each command of the table leaves, the invariants every step keeps and the
rules of the spec that hold over the whole machine. -/

open Sys2Proof Sys2Proof.Machine Sys2Proof.Safety

/-- A step takes the command at the front of the queue and is that command's meaning with the queue's rest; a command leaves the queue as it is; with no
command waiting one microsecond passes (the model's choice, log entry 2); a command whose operand lies outside its field is refused. -/
def Obligations.StepRunsFrontCommand : Prop :=
  (∀ s c rest, s.pending = c :: rest → c.wf = true → step s = exec c { s with pending := rest }) ∧
  (∀ c s t, exec c s = .next t → t.pending = s.pending) ∧
  (∀ s, s.pending = [] → ∃ d, step s = .next { s with dev := d } ∧ d.keeper.usSinceTick = (if s.dev.bay.p12v then min 29 (s.dev.keeper.usSinceTick + 1)
    else s.dev.keeper.usSinceTick) ∧ { d with keeper.usSinceTick := s.dev.keeper.usSinceTick } = s.dev) ∧
  (∀ s c rest, s.pending = c :: rest → c.wf = false → step s = .refused .illFormed)

/-- Every command answers a next state, but for an access of a debug port outside the 40-bit address space of the interconnect (13 R377), on which the
model stops. -/
def Obligations.CommandsAnswer : Prop :=
  (∀ c s, (∃ t, exec c s = .next t) ∨ ((∃ a b k v, c = .jtagAccess a b k v false ∧ 2 ^ 40 ≤ a ∧ jtagOpen s.dev = true) ∨
      (∃ x a b k, c = .serviceUartInput x a b k ∧ 2 ^ 40 ≤ a ∧ uartInput s.dev.lcd.st = true ∧ s.dev.bay.fabric = true)) ∧
      exec c s = .fault .addressSpace) ∧
  (∀ s : State, ∀ addr bytes kind v, jtagOpen s.dev = true → 2 ^ 40 ≤ addr → exec (.jtagAccess addr bytes kind v false) s = .fault .addressSpace) ∧
  (∀ s : State, ∀ b addr bytes kind, uartInput s.dev.lcd.st = true → s.dev.bay.fabric = true → 2 ^ 40 ≤ addr →
    exec (.serviceUartInput b addr bytes kind) s = .fault .addressSpace)

/-- The state at reset: every store is in its canonical form, no command waits, and the registers hold the reset values that the manual gives (03 R78;
04 R110; 05 R133; 07 R223; 08 R230; 12 R371; 13 R388; 14 R418; 15 R460; 16 R466, R473). -/
def Obligations.ResetState : Prop :=
  canonical State.reset.dev = true ∧ State.reset.pending = [] ∧
  State.reset.dev.glb.profile = 2 ∧ State.reset.dev.glb.pace = 0 ∧ State.reset.dev.glb.pfGen = 1 ∧ State.reset.dev.host.rate = 6000 ∧
  State.reset.dev.host.burst = 4 ∧ State.reset.dev.sch.mgmtReserve = 1 ∧ State.reset.dev.sch.runLimit = 200 ∧ State.reset.dev.vmp.st = 0x0F ∧
  State.reset.dev.vmp.frogRate = 8 ∧ State.reset.dev.vmp.frogPeriod = 24 ∧ State.reset.dev.ring.st = 0x0F ∧ State.reset.dev.ring.formWait = 10 ∧
  State.reset.dev.act.st = 0x0F ∧ State.reset.dev.lcd.ttl = 600 ∧ State.reset.dev.lcd.remoteEn = false ∧ State.reset.dev.sen.response = 0x0F ∧
  State.reset.dev.sen.cls = [2, 2, 2, 2, 2] ∧ State.reset.dev.sen.threshold = 8 ∧ State.reset.dev.sen.window = 1000 ∧ State.reset.dev.ent.minSources = 2 ∧
  State.reset.dev.cvu.units = List.replicate 4 {} ∧ ({} : Cvu).poly = 0x04C11DB7 ∧ ({} : Cvu).width = 32

/-- Every step keeps every addressed store of the device in its canonical form. -/
def Obligations.StepKeepsCanonical : Prop :=
  ∀ s t, canonical s.dev = true → step s = .next t → canonical t.dev = true

/-- The event bits of the blocks follow the edges of the state in every command (03 R78; 07 R223; 12 R371; 15 R460; 16 R473): where a command makes
SAFE_TO_REMOVE, thermal fallback, CFG_REJECT or LOCKED 1, or changes CELL_STATE, the low byte of GLB_STATUS or, but where the fabric itself starts or
stops, the vault's state, DUAL, or the failure of the pool or the DRBG, the bit of that event stands after it; where it makes CHECK_DONE, SAFE_TO_REMOVE
or FAIL_STOP 1, the alert line is driven (02 R41). -/
def Obligations.EventBitsFollowEdges : Prop :=
  ∀ c s t, exec c s = .next t → ∀ a b, a = s.dev → b = t.dev →
    ((b.bay.checkDone = true ∧ a.bay.checkDone = false) ∨ (b.bay.safeToRemove = true ∧ a.bay.safeToRemove = false) ∨
      (b.glb.failStop = true ∧ a.glb.failStop = false) → b.bay.smbAlert = true) ∧
    (b.bay.safeToRemove = true → a.bay.safeToRemove = false → bit b.glb.event 1 = true) ∧
    (b.glb.thermalFallback = true → a.glb.thermalFallback = false → bit b.glb.event 3 = true) ∧
    (b.bay.cellState ≠ a.bay.cellState → bit b.glb.event 4 = true) ∧
    (glbLow b ≠ glbLow a → bit b.glb.event 5 = true) ∧
    (b.glb.cfgReject = true → a.glb.cfgReject = false → bit b.glb.event 7 = true) ∧
    (b.glb.locked = true → a.glb.locked = false → bit b.sen.event 1 = true) ∧
    (a.bay.fabric = true → b.bay.fabric = true → (b.glb.starting = true → a.glb.starting = true) →
      (b.vmp.st ≠ a.vmp.st → bit b.vmp.event 6 = true) ∧
      (ringDual b ≠ ringDual a → bit b.ring.event 3 = true) ∧
      (b.ent.poolFailed ≠ a.ent.poolFailed → bit b.ent.event 1 = true) ∧
      (b.ent.drbgFailed ≠ a.ent.drbgFailed → bit b.ent.event 2 = true))

/-- The events of a VF that exists (03 R81): where a command changes whether the module is in service, LOCKED or joined, MODULE_STATE stands in its
VF_EVENT, and where it changes whether the VF is admitted, ADMISSION, but where the command resets the VF, which leaves the register at its reset value
(03 R82); a tenant newly admitted starts with a credit of 16 (04 R106). -/
def Obligations.VfEventsFollowEdges : Prop :=
  ∀ c s t, exec c s = .next t → ∀ a b, a = s.dev → b = t.dev → ∀ n, vfExists b n = true →
    ((tn b n).gen = (tn a n).gen → inService a ≠ inService b ∨ a.glb.locked ≠ b.glb.locked ∨ a.bay.ringJoin ≠ b.bay.ringJoin →
      bit (tn b n).event 2 = true) ∧
    ((tn b n).gen = (tn a n).gen → admitted a n ≠ admitted b n → bit (tn b n).event 3 = true) ∧
    (admitted a n = false → admitted b n = true → (tn b n).credit = 16)

/-- What follows every command leaves unchanged: of a canonical device, everything but event bits and their messages, a credit begun, idle units given
to the commands that wait for them, commands woken, the alert and entries submitted; a unit at work keeps its command. -/
def Obligations.AfterFrame : Prop :=
  ∀ old d, canonical d = true → ∀ e, e = Dev.after old d →
    e.otp = d.otp ∧ e.keeper = d.keeper ∧ e.keys = d.keys ∧ { e.eng with lanes := d.eng.lanes, pins := d.eng.pins, pks := d.eng.pks } = d.eng ∧
    { e.act with dma := d.act.dma } = d.act ∧ e.lcd = d.lcd ∧ { e.cvu with units := d.cvu.units } = d.cvu ∧ e.mnt = d.mnt ∧ e.flt = d.flt ∧
    (∀ (j : Nat) (l : Lane), d.eng.lanes[j]? = some l → l.busy.isSome = true → e.eng.lanes[j]? = some l) ∧
    (∀ (j : Nat) (u : EngUnit), d.eng.pins[j]? = some u → u.busy.isSome = true → e.eng.pins[j]? = some u) ∧
    (∀ (j : Nat) (u : EngUnit), d.eng.pks[j]? = some u → u.busy.isSome = true → e.eng.pks[j]? = some u) ∧
    (∀ (j : Nat) (u : Cvu), d.cvu.units[j]? = some u → u.busy = true → e.cvu.units[j]? = some u) ∧
    { e.bay with smbAlert := d.bay.smbAlert } = d.bay ∧ { e.glb with event := d.glb.event } = d.glb ∧ { e.vmp with event := d.vmp.event } = d.vmp ∧
    { e.ring with event := d.ring.event } = d.ring ∧ { e.ent with event := d.ent.event } = d.ent ∧
    { e.sen with event := d.sen.event, submitted := d.sen.submitted } = d.sen ∧ { e.host with pfMsix := d.host.pfMsix } = d.host ∧
    { e.sch with ctxs := d.sch.ctxs, ready := d.sch.ready } = d.sch ∧
    (∀ n, ({ tn e n with event := (tn d n).event, credit := (tn d n).credit, credited := (tn d n).credited, msix := (tn d n).msix } : Tenant) = tn d n) ∧
    (∀ k, (ctxOf d k).code ≠ csWaiting → ctxOf e k = ctxOf d k) ∧
    ∃ l, e.out = d.out ++ l ∧ ∀ o ∈ l, ∃ fn v a x, o = .msix fn v a x

/-- What the end of a command of this module on a canonical device leaves unchanged (04 R102, R108): everything but its context, its queue pair, its
core and its engine, the claim and the card exchange it held, a format it began and did not complete, the count of discards, writes that wait on a closed
access table, an interrupt, and a fenced command woken. -/
def Obligations.EndFrame : Prop :=
  ∀ d k r replyOk fwd, canonical d = true → (ctxOf d k).origin = none → ∀ e, e = finishWith d k r replyOk fwd →
    e.otp = d.otp ∧ e.keeper = d.keeper ∧ e.bay = d.bay ∧ e.keys = d.keys ∧ { e.vmp with st := d.vmp.st } = d.vmp ∧
    (d.vmp.st ≠ 0x33 → e.vmp.st = d.vmp.st) ∧ e.ring = d.ring ∧ e.sen = d.sen ∧ e.ent = d.ent ∧
    e.mnt = d.mnt ∧ e.flt = d.flt ∧ { e.glb with admin := d.glb.admin } = d.glb ∧ { e.lcd with cards := d.lcd.cards } = d.lcd ∧
    { e.act with claim := d.act.claim, stage := d.act.stage, dma := d.act.dma } = d.act ∧ { e.host with pfMsix := d.host.pfMsix, discardTotal := d.host.discardTotal } = d.host ∧
    (∀ n, (tn e n).policySet = (tn d n).policySet ∧ (tn e n).credit = (tn d n).credit ∧ (tn e n).gen = (tn d n).gen ∧ (tn e n).grant = (tn d n).grant ∧
      (tn e n).component = (tn d n).component) ∧
    (∀ j, j ≠ k → (ctxOf d j).code ≠ csWaiting → ctxOf e j = ctxOf d j)

/-- A finished command's writes (01 R19; 04 R88, R89, R102, R103, R108; 03 R73), where the access table is not CLOSED and lets the queue manager write
host memory (13 R383): its output data (after a stream that failed its POISON trailer), its reply data and its completion entry go out in this
order, at most one interrupt after them, and its context is free; with a stale generation it ends without a write and is counted; with Bus Master Enable
0 its writes are held, in state WAITING where output data is among them. -/
def Obligations.CommandsAreAnswered : Prop :=
  ∀ d k r fwd, canonical d = true → ∀ c, c = ctxOf d k → c.origin = none → c.code ≠ csFree →
    (c.gen = genOf d c.fn → d.bay.seatHigh = false → bmeOf d c.fn = true → d.act.st ≠ 0x33 → (decideAccess d 5 hostWindow .write).1 = true →
      ∀ p, p = qpOf d c.fn c.qp → ∀ data, data = replyOf c.entry r →
      ∀ outs, outs = (if c.stream.isSome = true ∧ r.outs = [] then c.stream.toList else r.outs) → ∀ relaxed, relaxed = (fnCfg d c.fn).relaxed →
      ∃ l, (finishWith d k r true fwd).out = d.out ++ outs.map (fun o => .hostWrite c.fn o.1 o.2 (!streams c outs && relaxed)) ++
          (if data.isEmpty then [] else [.hostWrite c.fn (eReplyAddr c.entry) data relaxed]) ++
          [.hostWrite c.fn (p.cqBase + 32 * p.cqTail) (eTag c.entry ++ natLe 2 r.status ++ natLe 2 c.gen ++ natLe 4 data.length ++ natLe 2 p.sqHead ++
            natLe 2 ((if p.phase then 1 else 0) + (if fwd then 2 else 0)) ++ fitTo 16 r.result) false] ++ l ∧ l.length ≤ 1 ∧
        (ctxOf (finishWith d k r true fwd) k).code = csFree) ∧
    (c.gen ≠ genOf d c.fn → ∀ e, e = finishWith d k r true fwd → e.out = d.out ∧ e.host.discardTotal = d.host.discardTotal + 1 ∧ (ctxOf e k).code = csFree ∧
      ∀ n, c.fn = .vf n → (tn e n).discards = min ((tn d n).discards + 1) (2 ^ 32 - 1)) ∧
    (c.gen = genOf d c.fn → d.bay.seatHigh = false → bmeOf d c.fn = false → ∀ e, e = finishWith d k r true fwd → ∀ w, w = withTrailer c r →
      e.out = d.out ∧ (ctxOf e k).held = some w ∧ (w.outs = [] → (ctxOf e k).code = csHeld) ∧
      (w.outs ≠ [] → (ctxOf e k).code = csWaiting ∧ (ctxOf e k).wait = .hostMemory))

/-- The checks on a command's entry come in the order of 04 R101, the first that fails giving its status, and the command then ends with it; each status
stands for its own check. -/
def Obligations.ChecksInOrder : Prop :=
  (∀ card d k i, (ctxOf d k).code = csRunning → eOpcode (ctxOf d k).entry = card.opcode → abandoned d (ctxOf d k) = false →
    (ctxOf d k).policyPassed = false → ∀ st, entryChecks card d (ctxOf d k) = some st → execCard card k i d = endWith d k st) ∧
  (∀ card d c accepts, accepts = lcAccepts d.lcd.st card.opcode (readiness d == rdFirmwareLess) →
    (accepts = false → entryChecks card d c = some stBadOpcode) ∧
    (accepts = true → issuerOk card d c = false → entryChecks card d c = some stNotPermitted) ∧
    (accepts = true → issuerOk card d c = true → rdAccepts (readiness d) card.opcode = false →
      entryChecks card d c = some (rdStatus (readiness d))) ∧
    (entryChecks card d c = some stBadLength → accepts = true ∧ issuerOk card d c = true ∧ rdAccepts (readiness d) card.opcode = true ∧
      (paramLenOk c.entry = false ∨ card.lenOk c.entry = false ∨ eReplyBytes c.entry < card.capFor c.fn))) ∧
  (∀ card d k i, (ctxOf d k).code = csRunning → eOpcode (ctxOf d k).entry = card.opcode → abandoned d (ctxOf d k) = false →
    entryFail card d (ctxOf d k) = none → bmeOf d (ctxOf d k).fn = true →
    ∀ st, readCommand card (passEntry d k) k (inputsOf (ctxOf d k) i) = .error st → execCard card k i d = endWith (passEntry d k) k st) ∧
  (∀ d st op fw, (st ≠ 0x96 → op = 0x2001 → lcAccepts st op fw = false) ∧ (st = 0x96 → lcAccepts st op fw = true) ∧
    (d.glb.locked = true → d.glb.failStop = false → d.glb.fwRunning = true → d.glb.starting = false → op = 0x2001 →
      rdAccepts (readiness d) op = false ∧ rdStatus (readiness d) = stLocked))

/-- A command that names no key handle executes on the module that fetched it (01 R20): management commands, CHECK_VALUE and RANDOM have no routing
handle, and a command without one is not sent to another member. -/
def Obligations.LocalCommands : Prop :=
  (∀ card ∈ [cardIdentify, cardGetStatus, cardSetTenantConfig, cardGetTenantConfig, cardResetTenant, cardLogRead, cardVaultLoadBegin, cardVaultLoadRecords,
      cardVaultLoadEnd, cardVaultSave, cardVaultPoisonReport, cardLifecycleTransition, cardUnlockRequest, cardUnlockApprove, cardApprovalBegin,
      cardApprovalAdd, cardApprovalClose, cardCustodian, cardRootInit, cardCardOpen, cardMaintStart, cardMaintStatus, cardMaintStop, cardShutdown,
      cardCheckValue, cardRandom], ∀ c, card.route c = none) ∧
  (∀ card d c, card.route c = none → runRoute card d c = runRecords card d c)

/-- A use number that a post still bears is skipped when Starter takes a context (17 R492). -/
def Obligations.UseNumbersSkipped : Prop :=
  ∀ d c u, c.code ≠ csFree → u < 256 → (freeCtxNo d, u) ∉ d.sch.owed →
    (∀ e k, takeCtx d c = (k, e) → k = freeCtxNo d ∧ (k, (ctxOf e k).useNo) ∉ d.sch.owed)

/-- One tick of the keeper clock (15 R433), for a clock that runs: module time and its fraction advance by exactly 30 µs and 16,960 + TRIM + SLEW units
of 1/32,768 µs, the fraction staying below 32,768; SLEW is 100 towards an adjustment that remains and 0 without one. -/
def Obligations.KeeperClockTick : Prop :=
  ∀ s, keeperPowered s.dev = true → s.dev.keeper.clockValid = true → s.dev.keeper.frac < 32768 → -200 ≤ s.dev.keeper.trim → s.dev.keeper.trim ≤ 200 →
    ∃ e, leaves .keeperTick s e ∧ e.keeper.frac < 32768 ∧
      (32768 * e.keeper.timeUs + e.keeper.frac : Int) = 32768 * s.dev.keeper.timeUs + s.dev.keeper.frac + 32768 * 30 + 16960 + s.dev.keeper.trim +
        (if 0 < s.dev.keeper.adjust then 100 else if s.dev.keeper.adjust < 0 then -100 else 0)

/-- A PROTECTED range is denied to HOST, QM_DMA, CVU_DMA and DEBUG whatever its entry's mask holds (13 R382); a STOPPED table permits HOST its reads of the
GLB range (13 R392), which is no PROTECTED one. -/
def Obligations.ProtectedRanges : Prop :=
  ∀ d cls addr kind no e, d.act.st ≠ 0xF0 ∨ cls ≠ 4 → decider d addr = some (no, e) → e.prot = true → cls = 4 ∨ cls = 5 ∨ cls = 6 ∨ cls = 11 →
    (decideAccess d cls addr kind).1 = false

/-- APPROVAL_CLOSE closes its session; where the session is not open it returns NOT_READY (14 R425). -/
def Obligations.ApprovalClose : Prop :=
  (∀ s k i c d, reach cardApprovalClose s.dev k i = some (c, d) →
    cardApprovalClose.opcode = 0x0222 ∧ zeros c.p 1 7 = true ∧ ends (.approvalClose k i) s d (closeSession d (c.b1 0) false) k (rep [] []) i) ∧
  (∀ s k i c d, ready cardApprovalClose s.dev k i = some (c, d) → (sessionOf d (c.b1 0)).code = 0x0F →
    leaves (.approvalClose k i) s (refuse d k stNotReady)) ∧
  (∀ e, cardApprovalClose.lenOk e = true → eParamLen e = 8) ∧
  (∀ d j, j < d.lcd.sessions.length → (sessionOf (closeSession d j false) j).code = 0x0F)

/-- Every host command's row (04 R101): where every check passes, its step is the command's own effect and the end of its run; where a check of the card
itself fails, the command ends with that status; where its context does not run it, nothing occurs (the model's choice, log entry 20). -/
def Obligations.HostCommandsRun : Prop :=
  ∀ k i row card, (row, card) ∈ hostRows k i →
    (∀ s c d, reach card s.dev k i = some (c, d) → exec row s = .next (s.after (runEffect card d c)) ∧ c.k = k ∧ c.i = i) ∧
    (∀ s c d st, ready card s.dev k i = some (c, d) → card.check c d = some st → exec row s = .next (s.after (refuse (meetInvalid card d c) k st))) ∧
    (∀ s, (ctxOf s.dev k).code ≠ csRunning ∨ eOpcode (ctxOf s.dev k).entry ≠ card.opcode → exec row s = .next (s.after s.dev))

/-- The management commands (04 R115 to R120) complete: IDENTIFY and GET_STATUS answer what they read; SET_TENANT_CONFIG gives the tenant its policy,
logs it, writes the log through and answers the module time; GET_TENANT_CONFIG reads a policy back; RESET_TENANT without DRAIN, with no other reset of
its tenant before it, resets the tenant and answers the two generations; LOG_READ returns the entries it finds and moves READ_MAX up to the last of
them. RESET_TENANT waits its turn while a reset of its tenant is under way or an earlier one is in flight; with DRAIN it waits while commands of the old
generation are in flight, and RESET_TENANT_DRAIN_END completes it once none is left, with the count of those that ended without completion (04 R119). -/
def Obligations.ManagementCommandsComplete : Prop :=
  (∀ s k i c d, reach cardIdentify s.dev k i = some (c, d) →
    ends (.identify k i) s d d k (rep (natLe 8 d.otp.serial ++ natLe 2 (fnCode c.fn) ++ natLe 2 (genOf d c.fn)) (identifyReply c d)) i) ∧
  (∀ s k i c d, reach cardGetStatus s.dev k i = some (c, d) →
    ends (.getStatus k i) s d d k
      (rep (natLe 4 (if c.fn = .pf then glbStatus d else vfStatus d c.tenant) ++ natLe 1 (readiness d) ++ zeroBytes 1 ++
        natLe 2 d.glb.pace ++ natLe 8 (now d)) (statusReply c d)) i) ∧
  (∀ s k i c d, reach cardSetTenantConfig s.dev k i = some (c, d) →
    ends (.setTenantConfig k i) s d
      (drainLog (logTenant (modTn d (c.b2 0) fun t =>
        if bmeOf d .pf then
          { t with policySet := true, maxPrio := c.b1 2, contextCap := c.b2 4, classMask := c.b2 6, groupMask := c.b4 8, policyDue := none }
        else { t with policyDue := some { maxPrio := c.b1 2, contextCap := c.b2 4, classMask := c.b2 6, groupMask := c.b4 8 } })
        0 (c.b2 0) (slice c.p 2 10)))
      k (rep (natLe 8 (now d)) []) i) ∧
  (∀ s k i c d, reach cardGetTenantConfig s.dev k i = some (c, d) →
    ends (.getTenantConfig k i) s d d k (rep (policyBytes (c.b2 0) (tn d (c.b2 0))) []) i) ∧
  (∀ s k i c d, reach cardResetTenant s.dev k i = some (c, d) → tabWf {} d.tenants = true → resetWaits d (c.b2 0) (ctxOf d k).fetchNo = false → c.b1 2 = 0 →
    (tn (beginReset d k (c.b2 0) false) (c.b2 0)).drain = none ∧
    ends (.resetTenant k i) s d (beginReset d k (c.b2 0) false) k
      (rep (resetResult (tn d (c.b2 0)).gen (newGen d (.vf (c.b2 0))) 0 (((tn d (c.b2 0)).resetCount + 1) % 256)) []) i) ∧
  (∀ s k i c d, reach cardLogRead s.dev k i = some (c, d) → ∀ e t, logSlice c d = e :: t →
    ends (.logRead k i) s d
      { d with sen.readMax := if d.sen.readMax = 0xFFFFFFFFFFFFFFFF then ((e :: t).getLast (by simp)).seq
                              else max d.sen.readMax ((e :: t).getLast (by simp)).seq }
      k (rep (natLe 8 e.seq ++ natLe 4 (t.length + 1)) ((e :: t).flatMap logBytes)) i) ∧
  (∀ s k i c d, reach cardResetTenant s.dev k i = some (c, d) → tabWf {} d.tenants = true → resetWaits d (c.b2 0) (ctxOf d k).fetchNo = false → c.b1 2 = 1 →
    drained (beginReset d k (c.b2 0) true) (c.b2 0) (tn d (c.b2 0)).gen = false →
    leavesWaiting (.resetTenant k i) s (beginReset d k (c.b2 0) true) k (.tenantDrain (c.b2 0)) i) ∧
  (∀ s k i c d x, reach cardResetTenant s.dev k i = some (c, d) → resetWaits d (c.b2 0) (ctxOf d k).fetchNo = false → c.b1 2 = 1 →
    drained (beginReset d k (c.b2 0) true) (c.b2 0) (tn d (c.b2 0)).gen = true → (tn (beginReset d k (c.b2 0) true) (c.b2 0)).drain = some x →
    ends (.resetTenant k i) s d (modTn (beginReset d k (c.b2 0) true) (c.b2 0) fun t => { t with drain := none }) k
      (rep (resetResult x.oldGen x.newGen x.ended x.resets) []) i) ∧
  (∀ s k i c d, reach cardResetTenant s.dev k i = some (c, d) → resetWaits d (c.b2 0) (ctxOf d k).fetchNo = true →
    leavesWaiting (.resetTenant k i) s d k (.resetTurn (c.b2 0)) i) ∧
  (∀ s k n x, (ctxOf s.dev k).wait = .tenantDrain n → drainOf s.dev n = some x → x.ctx = k → (ctxOf s.dev k).code = csWaiting →
    drained s.dev n x.oldGen = true →
    leaves (.resetTenantDrainEnd k) s
      (finishWith (modTn s.dev n fun t => { t with drain := none }) k
        (rep (natLe 2 x.oldGen ++ natLe 2 x.newGen ++ natLe 4 x.ended ++ natLe 1 x.resets) []) true false))

/-- The vault commands complete (07 R225 to R229), on a module in no ring: VAULT_LOAD_BEGIN formats the vault for the fitted population;
VAULT_LOAD_RECORDS treats the sealed records one by one and answers the counts; VAULT_LOAD_END, its checks passed, drops the broken chains and makes the
vault READY; VAULT_SAVE issues the next manifest, or seals the wanted records in ascending CHANGE_SEQ under their tenants' banks in force;
VAULT_POISON_REPORT lists the report. -/
def Obligations.VaultCommandsComplete : Prop :=
  (∀ s k i c d, reach cardVaultLoadBegin s.dev k i = some (c, d) → joined d = false → ∀ p, population d = some p →
    ∃ e, e = formatVault d p (bit (c.b1 0) 0) ∧ e.vmp.st = 0x55 ∧ e.vmp.slots = [] ∧ e.vmp.mirrored = d.vmp.mirrorCfg ∧
      ends (.vaultLoadBegin k i) s d e k
        (rep (natLe 4 (slotCount e.vmp.n) ++ natLe 4 (groupCount e.vmp.n) ++ natLe 1 (if d.vmp.mirrorCfg then 1 else 0)) []) i) ∧
  (∀ s k i c d, reach cardVaultLoadRecords s.dev k i = some (c, d) →
    ∀ e n, loadAll (bit (c.b1 0) 0) (chunks 168 c.data) {} d = (e, n, stOk) →
    ends (.vaultLoadRecords k i) s d e k
      { status := stOk, result := natLe 4 n.accepted ++ natLe 4 n.rejected ++ natLe 4 n.superseded ++ natLe 4 n.skipped, data := [] } i) ∧
  (∀ s k i c d, reach cardVaultLoadEnd s.dev k i = some (c, d) → joined d = false →
    ∀ l e, l = (heldRecords d ++ d.vmp.tombs).filter isLive → loadEndFail c d l = none →
    applyEdit d { puts := [], drops := brokenChains l } = (e, true) → joined e = false →
    ends (.vaultLoadEnd k i) s d (logVault (vaultReady (logDropped e (brokenChains l))) 1 (natLe 8 (l.length - (brokenChains l).length))) k
      (rep (natLe 8 (l.length - (brokenChains l).length) ++ natLe 4 ((brokenChains l).map Record.handle).eraseDups.length) []) i) ∧
  (∀ s k i c d, reach cardVaultSave s.dev k i = some (c, d) → joined d = false → c.b1 0 = 1 → ∀ key, manifestKey d = some key →
    ∀ all live body, all = heldRecords d ++ d.vmp.tombs → live = all.filter (fun r => isLive r && decide (r.changeSeq ≤ highest all)) →
    body = manifestBody d.otp.serial (d.vmp.manifestSeq + 1) (highest all) (now d) live.length (imageDigest live) →
    ends (.vaultSave k i) s d { d with vmp.manifestSeq := d.vmp.manifestSeq + 1 } k
      (rep (natLe 8 (d.vmp.manifestSeq + 1) ++ natLe 8 (highest all)) (body ++ aesCmac key body)) i) ∧
  (∀ s k i c d, reach cardVaultSave s.dev k i = some (c, d) → joined d = false → c.b1 0 = 2 →
    ∀ l, l = (sortBy Record.changeSeq ((currentOf (heldRecords d ++ d.vmp.tombs)).filter fun r =>
        decide (c.b8 8 < r.changeSeq) && decide (r.changeSeq ≤ highest (heldRecords d ++ d.vmp.tombs)) &&
          (isLive r && hTenant r.handle == c.b2 2))) →
    ∀ b, bankInForce d (rootSlot d (0x1000 + c.b2 2)) = some b →
    ∀ bank, bank = (if b then (rootSlot d (0x1000 + c.b2 2)).b else (rootSlot d (0x1000 + c.b2 2)).a) → bank.code = 0x55 →
    ∀ n, n = min (c.b4 4) (c.cap / 168) →
    ends (.vaultSave k i) s d d k
      { status := stOk
        result := natLe 4 (l.take n).length ++ natLe 1 (if (l.take n).length < l.length then 1 else 0) ++ zeroBytes 3 ++
          natLe 8 (((l.take n).map Record.changeSeq).getLastD (c.b8 8))
        data := (l.take n).flatMap (sealRecord d bank) } i) ∧
  (∀ s k i c d, reach cardVaultPoisonReport s.dev k i = some (c, d) →
    ∀ l, l = ((d.vmp.report.map Prod.fst).drop (c.b4 0)).take (min (c.b4 4) (c.cap / 8)) →
    ends (.vaultPoisonReport k i) s d d k (rep (natLe 4 l.length ++ natLe 4 d.vmp.report.length) (l.flatMap (natLe 8))) i)

/-- LIFECYCLE_TRANSITION (14 R420): BEGIN opens a token session, SHARE adds a share to it, ABORT ends it, EXECUTE, whose token matches where it needs
one, begins the drain and waits, and fails on a token that does not match. The events of its course answer a next state: LIFECYCLE_DRAIN_END, wherever a drain
is under way (14 R401 steps 2 to 4), which programs INTENT, writes the EXECUTE's completion and frees every command still in flight, keys and records
untouched; LIFECYCLE_WIPE_DONE, wherever the wipe is (14 R401 steps 5 to 7), which wipes, programs DONE and restarts the fabric; TOKEN_SESSION_EXPIRY, in
every state (14 R400), which ends the token session and changes nothing else. -/
def Obligations.LifeCycleCommandsComplete : Prop :=
  (∀ s k i c d, reach cardLifecycleTransition s.dev k i = some (c, d) →
    (c.b1 0 = 0 → ends (.lifecycleTransition k i) s d { d with lcd.token := some { target := c.b1 1, shares := [], openedAt := now d } } k (rep [] []) i) ∧
    (c.b1 0 = 1 → ends (.lifecycleTransition k i) s d
      { d with lcd.token := d.lcd.token.map fun t => { t with shares := t.shares ++ [(c.b1 2, slice c.p 0x10 32)] } } k (rep [] []) i) ∧
    (c.b1 0 = 3 → ends (.lifecycleTransition k i) s d { d with lcd.token := none } k (rep [] []) i) ∧
    (c.b1 0 = 2 → lcNeedsToken d.lcd.st (c.b1 1) = false →
      leavesWaiting (.lifecycleTransition k i) s
        { d with lcd.token := none, lcd.phase := .draining, lcd.execCtx := some k, lcd.pendingTarget := c.b1 1 } k .lifecycle i) ∧
    (∀ t, c.b1 0 = 2 → lcNeedsToken d.lcd.st (c.b1 1) = true → d.lcd.token = some t →
      if tokenDigest d.otp.serial (c.b1 1) (tokenOf t) == otpDigest d.otp (c.b1 1) then
        leavesWaiting (.lifecycleTransition k i) s
          { d with lcd.token := none, lcd.phase := .draining, lcd.execCtx := some k, lcd.pendingTarget := c.b1 1 } k .lifecycle i
      else ends (.lifecycleTransition k i) s d (tokenFail d (c.b1 1)) k (bare stTokenInvalid) i)) ∧
  (∀ s, s.dev.lcd.phase = .draining →
    ∃ e, exec .lifecycleDrainEnd s = .next (s.after e) ∧ e.lcd.phase = .wiping ∧ e.lcd.execCtx = none ∧
      e.otp = { s.dev.otp with lcWord := setIntent s.dev.otp.lcWord (lcTransition s.dev.lcd.pendingTarget) } ∧
      e.keys = s.dev.keys ∧ { e.vmp with st := s.dev.vmp.st } = s.dev.vmp ∧ (s.dev.vmp.st ≠ 0x33 → e.vmp.st = s.dev.vmp.st) ∧
      (canonical s.dev = true → ∀ j, (ctxOf e j).code = csFree ∨ writesHeld (ctxOf e j) = true) ∧
      (∀ k d1, s.dev.lcd.execCtx = some k →
        d1 = logLifeCycle { s.dev with otp := e.otp, lcd.phase := .wiping } (lcTransition s.dev.lcd.pendingTarget) false →
        e.out = (finishWith d1 k { bare stOk with result := natLe 1 s.dev.lcd.pendingTarget ++ zeroBytes 7 ++ natLe 8 (now s.dev) } true false).out)) ∧
  (∀ s boot, s.dev.lcd.phase = .wiping →
    exec (.lifecycleWipeDone boot) s =
      .next (s.after (fabricRestart (completeTransition (lcTransition s.dev.lcd.pendingTarget) (drainLog s.dev)) boot))) ∧
  (∀ d t, 1 ≤ t → t ≤ 4 → (completeTransition t d).otp.lcWord = setDone (setIntent d.otp.lcWord t) t ∧
    (t = 1 ∨ t = 3 ∨ t = 4 → (completeTransition t d).keys.root = [] ∧ (completeTransition t d).keeper.cells0 = none ∧
      (completeTransition t d).keeper.cells1 = none)) ∧
  (∀ s : State, exec .tokenSessionExpiry s = .next (s.after { s.dev with lcd.token := none }))

/-- Approval sessions (14 R421 to R425): UNLOCK_REQUEST and APPROVAL_BEGIN open the lowest free session with a fresh challenge and answer it,
APPROVAL_ADD and UNLOCK_APPROVE add a valid approval, remote or of a card, the last one of an unlock session taking the module out of LOCKED,
APPROVAL_CLOSE and APPROVAL_SESSION_EXPIRY close a session. -/
def Obligations.ApprovalCommandsComplete : Prop :=
  (∀ s k i c d, reach cardUnlockRequest s.dev k i = some (c, d) → ∀ j, freeSession d = some j →
    ∀ e, e = { openSession d j 9 (unlockDigest d.sen.nextSeq) d.sen.nextSeq with lcd.unlockSession := some j } →
    ends (.unlockRequest k i) s d e k (rep (natLe 1 j ++ zeroBytes 7 ++ natLe 8 (now d)) ((sessionOf e j).challenge ++ (sessionOf e j).digest)) i) ∧
  (∀ s k i c d, reach cardApprovalBegin s.dev k i = some (c, d) → ∀ j, freeSession d = some j →
    ∀ e, e = openSession d j (c.b2 0) (slice c.p 8 32) 0 →
    (sessionOf e j).code = 0x33 ∧ (sessionOf e j).action = c.b2 0 ∧ (sessionOf e j).digest = slice c.p 8 32 ∧ (sessionOf e j).openedAt = now d ∧
      (sessionOf e j).challenge = drawBytes d.ent.draws 32 ∧
    ends (.approvalBegin k i) s d e k (rep (natLe 2 j ++ natLe 2 (c.b2 0) ++ zeroBytes 4 ++ natLe 8 (now d))
      (statement d 1 (c.b2 0) j 0xFF (now d) (drawBytes d.ent.draws 32) (slice c.p 8 32))) i) ∧
  (∀ (unlocking : Bool) s k i c d, reach (if unlocking then cardUnlockApprove else cardApprovalAdd) s.dev k i = some (c, d) → checkSessions d = d →
    ∀ x, x = sessionOf d (c.b1 0) → x.code ≠ 0x0F → (x.action == 9) = unlocking →
    ∀ j sig d', (c.b1 1 = 2 ∧ d.lcd.remoteEn = true ∧ j = c.b1 2 ∧ (enrolment d j).map enKind = some 1 ∧ sig = c.data ∧ d' = d) ∨
      (c.b1 1 ≠ 2 ∧ cardReason d (c.b1 1) = none ∧ cardEnrolment d (cardOf d (c.b1 1)).serial = some j ∧ i.card = .returned sig ∧ d' = useCard d (c.b1 1)) →
    ∀ b, enrolment d j = some b → mayApprove d x j = true →
    ∀ e y, e = recount { d' with lcd.sessions := modifyAt d'.lcd.sessions (c.b1 0) fun z => { z with approvedBy := insertNat z.approvedBy j } } →
      y = sessionOf e (c.b1 0) →
    ∀ row, row = (if unlocking then Instr.unlockApprove k i else Instr.approvalAdd k i) →
    ∀ result, result = natLe 1 (counted e y).length ++ natLe 1 (if y.code = 0x55 then 1 else 0) ++ natLe 1 j →
    if enVerify b (statement d 1 x.action (c.b1 0) j x.openedAt x.challenge x.digest) sig then
      (unlocking = false ∨ y.code ≠ 0x55 → ends row s d e k (rep result []) i) ∧
      (unlocking = true → y.code = 0x55 → unlockCause (closeSession e (c.b1 0) true) y.bound = 0 →
        (unlock (closeSession e (c.b1 0) true) (c.b1 0) (maskOf (counted e y))).glb.locked = false ∧
        ends row s d (unlock (closeSession e (c.b1 0) true) (c.b1 0) (maskOf (counted e y))) k (rep (result ++ natLe 1 1) []) i)
    else ends row s d d' k (bare stApprovalInvalid) i) ∧
  (∀ s j, (sessionOf s.dev j).code ≠ 0x0F → leaves (.approvalSessionExpiry j) s (closeSession s.dev j false)) ∧
  (∀ d j, j < d.lcd.sessions.length → (sessionOf (closeSession d j false) j) = {} ∧ (closeSession d j false).lcd.event = setBit d.lcd.event 1)

/-- Custodians and cards (14 R413, R414, R417, R426 to R428; 02 R63): CUSTODIAN lists the enrolments, adds or removes one and sets the quorum while the
policy stays satisfied, and writes or empties the slot of the countersigning key; ROOT_INIT begins a root store where its key pairs pass their test (09
R268), enrols custodians in it, finishes it with its policy and aborts it; CARD_OPEN opens the card it finds; a card inserted, withdrawn, out of time in
an exchange or past its opening changes its slot. -/
def Obligations.CustodianCommandsComplete : Prop :=
  (∀ s k i c d, reach cardCustodian s.dev k i = some (c, d) →
    (c.b1 0 = 0 → ends (.custodian k i) s d d k (rep (natLe 1 (quorum d) ++ natLe 1 (inForce d).length) ((List.range 15).flatMap (listEntry d))) i) ∧
    (c.b1 0 = 2 → policyOk (quorum d) ((inForce d).filter fun j => j != c.b1 1 && hasRole d 0 j).length = true →
      ends (.custodian k i) s d (setPolicy d (quorum d) (clearBits (enrolMask d) (2 ^ c.b1 1)) 2 (c.b1 1)) k (rep [] []) i) ∧
    (c.b1 0 = 3 → policyOk (c.b1 5) (approvers d) = true →
      ends (.custodian k i) s d (setPolicy d (c.b1 5) (enrolMask d) 3 0) k (rep [] []) i) ∧
    (∀ d1 b, c.b1 0 = 1 → bit (enrolMask d) (c.b1 1) = false → newEnrolment c d (c.b1 2) (fun n => (cardEnrolment d n).isSome) = .ok (d1, b) →
      policyOk (quorum d) (approvers d + if bit (enRoles b) 0 then 1 else 0) = true →
      ends (.custodian k i) s d (setPolicy (commitLogged d1 (0x10 + c.b1 1) b ((sha256 (enKey b)).take 5)) (quorum d) (setBit (enrolMask d) (c.b1 1)) 1 (c.b1 1))
        k (rep [] []) i) ∧
    (c.b1 0 = 4 → c.b1 4 = 0x49 →
      ends (.custodian k i) s d (commitLogged d 4 (natLe 1 0x49 ++ c.data) ((sha256 c.data).take 5)) k (rep [] []) i) ∧
    (c.b1 0 = 5 → canonical d = true → ∃ e, ends (.custodian k i) s d e k (rep [] []) i ∧ bankInForce e (rootSlot e 4) = none ∧
      ∀ n, n ≠ 4 → rootSlot e n = rootSlot d n)) ∧
  (∀ s k i c d, reach cardRootInit s.dev k i = some (c, d) →
    (c.b1 0 = 0 → d.lcd.rootInit = none → (d.lcd.st = 0x55 ∨ d.lcd.st = 0x96) → bankInForce d (rootSlot d 0) = none → d.bay.ringJoin = false →
      d.vmp.st = 0x0F → if c.i.testPasses then ends (.rootInit k i) s d (rootBegin d) k (rep [] []) i
        else ends (.rootInit k i) s d (draw d 32).2 k (bare stKeyTestFail) i) ∧
    (∀ l, d.lcd.rootInit = some l → c.b1 0 = 2 → l.contains (c.b1 1) = false → c.b1 4 = 0x49 →
      ends (.rootInit k i) s d { initSlot d (0x10 + c.b1 1) (enrolBytes (c.b1 1) 1 (c.b1 3) 0x49 0 (now d) (slice c.p 0x10 32) c.data)
          ((sha256 (enKey (enrolBytes (c.b1 1) 1 (c.b1 3) 0x49 0 (now d) (slice c.p 0x10 32) c.data))).take 5) with
        lcd.rootInit := some (insertNat l (c.b1 1)) } k (rep [] []) i) ∧
    (∀ l d1 b, d.lcd.rootInit = some l → c.b1 0 = 1 → l.contains (c.b1 1) = false →
      newEnrolment c d (c.b1 2) (fun n => l.any fun j => enKind (initContent d (0x10 + j)) == 0 && enSerial (initContent d (0x10 + j)) == n) = .ok (d1, b) →
      ends (.rootInit k i) s d { initSlot d1 (0x10 + c.b1 1) b ((sha256 (enKey b)).take 5) with lcd.rootInit := some (insertNat l (c.b1 1)) } k (rep [] []) i) ∧
    (∀ l, d.lcd.rootInit = some l → c.b1 0 = 3 →
      2 ≤ (l.filter fun j => enKind (initContent d (0x10 + j)) == 0 && bit (enRoles (initContent d (0x10 + j))) 0).length →
      policyOk (c.b1 5) (l.filter fun j => bit (enRoles (initContent d (0x10 + j))) 0).length = true →
      (rootFinish d (c.b1 5) l).glb.rootOk = true ∧ (rootFinish d (c.b1 5) l).lcd.rootInit = none ∧
      ends (.rootInit k i) s d (rootFinish d (c.b1 5) l) k
        (rep (fitTo 5 (rootSlot (rootFinish d (c.b1 5) l) 3).a.kcv ++ zeroBytes 3 ++ natLe 8 (now d)) []) i) ∧
    (∀ l, d.lcd.rootInit = some l → c.b1 0 = 4 → ends (.rootInit k i) s d { d with lcd.rootInit := none, keys.root := [] } k (rep [] []) i)) ∧
  (∀ s k i c d, reach cardCardOpen s.dev k i = some (c, d) → (cardOf d (c.b1 0)).present = true → ∀ b, i.card = .returned b →
    ends (.cardOpen k i) s d (modCard d (c.b1 0) fun x => { x with opened := true, openedAt := now d, used := false }) k
      (rep (natLe 8 (cardOf d (c.b1 0)).serial ++ natLe 1 (if (cardEnrolment d (cardOf d (c.b1 0)).serial).isSome then 1 else 0)) []) i) ∧
  (∀ s slot serial b, s.dev.bay.mainLoads = true → slot < 2 → s.dev.lcd.cards.length = 2 →
    ∃ e, leaves (.cardInserted slot serial b) s e ∧ (cardOf e slot).present = true ∧ (cardOf e slot).serial = serial ∧
      (cardOf e slot).classB = b ∧ (cardOf e slot).opened = false ∧ bit e.lcd.event 2 = true) ∧
  (∀ s slot, (cardOf s.dev slot).exchange = none → (cardOf s.dev slot).present = true →
    ∃ e, leaves (.cardWithdrawn slot) s e ∧ (cardOf e slot).present = false ∧ (cardOf e slot).opened = false ∧ bit e.lcd.event 2 = true) ∧
  (∀ s slot k, (cardOf s.dev slot).exchange = some k →
    ∃ e r, leaves (.cardExchangeTimeout slot) s (finishWith e k r true false) ∧ r.status = stCardFailed ∧ r.result = fitTo 16 (natLe 1 7) ∧
      (cardOf e slot).exchange = none ∧ (cardOf e slot).lastFail = 7) ∧
  (∀ s slot, (cardOf s.dev slot).opened = true →
    leaves (.cardOpeningExpiry slot) s (modCard s.dev slot fun c => { c with opened := false }))

/-- The key commands that create or replace (06 R165, R179, R180, R182, R183, R186; 08 R259) complete with the handle and the check value of the key
written, once the vault takes the edit: KEY_GENERATE a fresh symmetric key or pair, KEY_IMPORT the key of an authentic TR-31 block, KEY_REPLACE a fresh
or imported version or a root slot's bank, KEY_COMPONENT its session's steps, KEY_DERIVE the key its base derives, KEY_UNWRAP the key it unwraps, where
its check value passes. -/
def Obligations.KeyCreationCompletes : Prop :=
  (∀ s k i c d, reach cardKeyGenerate s.dev k i = some (c, d) → hClass (c.b8 0) ≠ 8 →
    ∀ n : NewKey, n = { handle := newHandle d (c.b8 0) [hClass (c.b8 0)], alg := c.b1 8, usage := c.b2 0x0A, mode := c.b1 0x0C, expo := c.b1 0x0D,
                        kcvMethod := c.b1 9, params := genParams c, notBefore := c.b8 0x10, notAfter := c.b8 0x18,
                        material := drawBytes d.ent.draws (symLen (c.b1 8)) } →
    ∀ e, applyEdit (draw d (symLen (c.b1 8))).2 { puts := n.chain d.keys.floor 0x55 0, drops := [] } = (e, true) →
    ends (.keyGenerate k i) s d e k (rep (natLe 8 n.handle ++ n.kcv) []) i) ∧
  (∀ s k i c d, reach cardKeyGenerate s.dev k i = some (c, d) → hClass (c.b8 0) = 8 →
    ∀ pair, pair = freshPair (c.b1 8) (genBits c) (c.b1 0x22) d.ent.draws →
    ∀ n : NewKey, n = { handle := newHandle d (c.b8 0) [8, 9], alg := c.b1 8, usage := c.b2 0x0A, mode := c.b1 0x0C, expo := c.b1 0x0D,
                        kcvMethod := c.b1 9, params := genParams c, notBefore := c.b8 0x10, notAfter := c.b8 0x18, material := pair.1 } →
    (i.testPasses = true → edits (.keyGenerate k i) s d (draw d 32).2
      { puts := n.chain d.keys.floor 0x55 0 ++ (publicTwin n pair.2).chain d.keys.floor 0x55 0, drops := [] } k
      (rep (natLe 8 n.handle ++ pubKcv n.alg pair.2) []) i) ∧
    (i.testPasses = false → ends (.keyGenerate k i) s d (draw d 32).2 k (bare stKeyTestFail) i)) ∧
  (∀ s k i c d1 d, ready cardKeyImport s.dev k i = some (c, d1) → existsCheck c d1 (c.b8 0) = none →
    firstError [useKey c d1 (c.b8 8) (importKek c.data) 1] = none → served cardKeyImport d1 c = some d →
    ∀ w, useKey c d (c.b8 8) (importKek c.data) 1 = .ok w →
    if blockFormOk c.data then
      match tr31Open w.2 c.data with
      | none => ends (.keyImport k i) s d (useOnce d k w.1) k (bare stMacMismatch) i
      | some b =>
        match blockFault b (hClass (c.b8 0)) (strength w.1.alg) (c.b1 0x10) (zeroBytes 7) with
        | some st => ends (.keyImport k i) s d (useOnce d k w.1) k (bare st) i
        | none =>
          match roomCheck (useOnce d k w.1) (c.b8 0) 1 with
          | some st => ends (.keyImport k i) s d (useOnce d k w.1) k (bare st) i
          | none =>
            ∃ n : NewKey, n = { handle := newHandle (useOnce d k w.1) (c.b8 0) [hClass (c.b8 0)], alg := blockAlg b, usage := b.usage,
                                mode := b.mode, expo := b.expo, kcvMethod := c.b1 0x10, params := zeroBytes 7, notBefore := 0,
                                notAfter := noLimit, material := b.key } ∧
              edits (.keyImport k i) s d (useOnce d k w.1) (newKeyEdit (useOnce d k w.1) n) k (repUsing [w.1] (natLe 8 n.handle ++ n.kcv) [] []) i
    else leaves (.keyImport k i) s (refuse (meetInvalid cardKeyImport d1 c) k stBadParam)) ∧
  (∀ s k i c d, reach cardKeyReplace s.dev k i = some (c, d) → c.b1 0 = 0 → c.b1 1 = 0 →
    ∀ v, activeNamed (storeOf d k (c.b8 8)) (c.b8 8) = some v →
    ∀ m, m = (if hClass (c.b8 8) = 8 then (freshPair v.alg (recBits v) (field v.params 2 1) d.ent.draws).1 else drawBytes d.ent.draws (symLen v.alg)) →
    ∀ n, n = nextVersion v m →
    ∀ e, replaceRun (draw d 32).2 (storeOf d k (c.b8 8)) v n (c.b8 0x18) (slice c.p 0x20 5) i.testPasses = (e, stOk) →
    ends (.keyReplace k i) s d e k (rep (natLe 8 (v.handle + 1) ++ n.kcv) []) i) ∧
  (∀ s k i c d, reach cardKeyReplace s.dev k i = some (c, d) → c.b1 0 = 0 → c.b1 1 = 1 →
    ∀ v w, activeNamed (storeOf d k (c.b8 8)) (c.b8 8) = some v → useKey c d (c.b8 0x10) (importKek c.data) 1 = .ok w →
    (tr31Open w.2 c.data = none → ends (.keyReplace k i) s d (useOnce d k w.1) k (bare stMacMismatch) i) ∧
    (∀ b d1 x n e, tr31Open w.2 c.data = some b → blockFault b (hClass (c.b8 8)) (strength w.1.alg) v.kcvMethod v.params = none →
      d1 = useOnce d k w.1 → activeNamed (storeOf d1 k (c.b8 8)) (c.b8 8) = some x →
      n = { nextVersion x b.key with alg := blockAlg b, usage := b.usage, mode := b.mode, expo := b.expo } →
      replaceRun d1 (storeOf d1 k (c.b8 8)) x n (c.b8 0x18) (slice c.p 0x20 5) i.testPasses = (e, stOk) →
      ends (.keyReplace k i) s d e k (repUsing [w.1] (natLe 8 (x.handle + 1) ++ n.kcv) [] []) i)) ∧
  (∀ s k i c d, reach cardKeyReplace s.dev k i = some (c, d) → c.b1 0 = 1 → joined d = false →
    ∀ slot seq m, slot = c.b2 4 →
    seq = (if (ctxOf d k).engineBegun then max (rootSlot d slot).a.seq (rootSlot d slot).b.seq else nextBankSeq (rootSlot d slot)) →
    m = rootMaterial d (rootAlg slot) →
    (i.testPasses = true → (slice c.p 0x20 5 = zeroBytes 5 ∨ slice c.p 0x20 5 = m.1.2.1) →
      ends (.keyReplace k i) s d (logRoot (writeBank m.2 slot seq 0x55 m.1.1 m.1.2.1) slot (bankToWrite d (rootSlot d slot)) seq 0)
        k (rep (natLe 8 seq ++ m.1.2.1) m.1.2.2) i) ∧
    (i.testPasses = false → slice c.p 0x20 5 = zeroBytes 5 →
      ends (.keyReplace k i) s d (logRoot (writeBank m.2 slot seq 0x0F m.1.1 m.1.2.1) slot (bankToWrite d (rootSlot d slot)) seq 1)
        k (bare stKeyTestFail) i)) ∧
  (∀ s k i c d, reach cardKeyComponent s.dev k i = some (c, d) →
    (c.b1 0 = 0 → if i.testPasses then ends (.keyComponent k i) s d (componentBegin c d) k (rep [] []) i
      else ends (.keyComponent k i) s d (draw d 32).2 k (bare stKeyTestFail) i) ∧
    (∀ x e, c.b1 0 = 1 → componentOf c d = some x → x.given.length < x.count →
      e = (if c.b1 1 = 2 then c.data else match i.card with | .returned p => p | _ => []) →
      match openEnvelope d c.tenant x (c.b1 1 == 2) e with
      | .badLength => ends (.keyComponent k i) s d d k (bare stBadParam) i
      | .refused => ends (.keyComponent k i) s d d k (bare stDualControl) i
      | .opened j m => ends (.keyComponent k i) s d (modTn d c.tenant fun t =>
          { t with component := some { x with given := insertNat x.given j, partialXor := xorBytes x.partialXor m } })
        k (rep (symKcv x.alg x.kcvMethod m ++ natLe 1 (x.given.length + 1)) []) i) ∧
    (∀ x n e, c.b1 0 = 2 → componentOf c d = some x → x.count ≤ x.given.length → x.expected = zeroBytes 5 → x.replace = false →
      createCheck c d x.handle true 1 = none → n = componentKey x (newHandle d x.handle [hClass x.handle]) →
      applyEdit d { puts := n.chain d.keys.floor 0x55 0, drops := [] } = (e, true) →
      ends (.keyComponent k i) s d (modTn e c.tenant fun t => { t with component := none }) k (rep (natLe 8 n.handle ++ n.kcv) []) i) ∧
    (c.b1 0 = 3 → ends (.keyComponent k i) s d (abortComponent d c.tenant) k (rep [] []) i)) ∧
  (∀ s k i c d, reach cardKeyDerive s.dev k i = some (c, d) → ∀ w, useKey c d (c.b8 0) derivePerm 1 = .ok w →
    ∀ n : NewKey, n = { handle := newHandle (useOnce d k w.1) (c.b8 8) [hClass (c.b8 8)], alg := c.b1 0x10, usage := c.b2 0x12, mode := c.b1 0x14,
                        expo := c.b1 0x15, kcvMethod := c.b1 0x11, params := zeroBytes 7, notBefore := c.b8 0x18, notAfter := c.b8 0x20,
                        material := kdf108 w.2 (slice c.p 0x30 (c.b1 0x16)) (slice c.p (0x30 + c.b1 0x16) (c.b1 0x17)) (symLen (c.b1 0x10)) } →
    ∀ e, applyEdit (useOnce d k w.1) { puts := n.chain (useOnce d k w.1).keys.floor 0x55 0, drops := [] } = (e, true) →
    ends (.keyDerive k i) s d e k (repUsing [w.1] (natLe 8 n.handle ++ n.kcv) [] []) i) ∧
  (∀ s k i c d, reach cardKeyUnwrap s.dev k i = some (c, d) → ∀ w, useKey c d (c.b8 8) (unwrapKekPerm c) 1 = .ok w →
    slice c.p 0x18 5 = zeroBytes 5 →
    match keyUnwrap w.2 c.data with
    | none => ends (.keyUnwrap k i) s d (useOnce d k w.1) k (bare stTagFail) i
    | some m => ∀ n, n = unwrapNew c (useOnce d k w.1) m →
      edits (.keyUnwrap k i) s d (useOnce d k w.1) (newKeyEdit (useOnce d k w.1) n) k (repUsing [w.1] (natLe 8 n.handle ++ n.kcv) [] []) i)

/-- The key commands that read, send or destroy (06 R181, R184, R185, R187; 14 R429; 08 R258): KEY_EXPORT answers the block that its wrapping key
builds, KEY_DESTROY the count of versions it destroyed, KEY_INFO the record's head or a root slot's banks, ATTEST the evidence block under its MAC or
signature, COMPONENT_TRANSPORT the session's challenge and encapsulation key, KEY_WRAP the wrapped material. -/
def Obligations.KeyReadingCompletes : Prop :=
  (∀ s k i c d1 d, ready cardKeyExport s.dev k i = some (c, d1) → ∀ x w, sentKey c d1 (c.b8 0) exportPerm = .ok x →
    useKey c d1 (c.b8 8) (exportKek (c.b1 0x10) x.1) 1 = .ok w → served cardKeyExport d1 c = some d →
    ∀ y v, sentKey c d (c.b8 0) exportPerm = .ok y → useKey c d (c.b8 8) (exportKek (c.b1 0x10) y.1) 1 = .ok v →
    if (exportBlock c d1 x w).length ≤ c.cap then
      ends (.keyExport k i) s d (useOnce d k v.1) k (repUsing [v.1] y.1.kcv
        (tr31Build (c.b1 0x10) v.2 y.2 (isAes y.1.alg) y.1.kcvMethod (y.1.usage, y.1.mode, y.1.expo) (y.1.kcv.take 3) d.ent.draws) []) i
    else leaves (.keyExport k i) s (refuse (meetInvalid cardKeyExport d1 c) k stBadLength)) ∧
  (∀ s k i c d, reach cardKeyDestroy s.dev k i = some (c, d) → reportedOf d (c.b8 0) = [] →
    ∀ gone, gone = destroyed (storeOf d k (c.b8 0)) (c.b8 0) → ∀ e, applyEdit d (destroyEdit (storeOf d k (c.b8 0)) gone) = (e, true) →
    ends (.keyDestroy k i) s d e k (rep (natLe 1 ((gone.map Record.handle).eraseDups).length) []) i) ∧
  (∀ s k i c d, reach cardKeyInfo s.dev k i = some (c, d) →
    (∀ x, c.b1 0 = 0 → infoKey c d = .ok x → ends (.keyInfo k i) s d d k
      (rep [] (headBytes x.1 ++ natLe 2 (activeVersion (storeOf d k (c.b8 8))) ++ zeroBytes 6)) i) ∧
    (c.b1 0 = 1 → ends (.keyInfo k i) s d d k (rep [] (bankInfo (rootSlot d (c.b2 2)).a ++ bankInfo (rootSlot d (c.b2 2)).b)) i)) ∧
  (∀ s k i c d, reach cardAttest s.dev k i = some (c, d) →
    (∀ n x, c.fn = .vf n → useKey c d (mkHandle n 3 0xFFFFFFFE 0) attestPerm 1 = .ok x →
      ends (.attest k i) s d (useOnce d k x.1) k (repUsing [x.1] (aesCmac x.2 (evidence c d)) (evidence c d) []) i) ∧
    (∀ key, c.fn = .pf → rootPrivate d 3 0x49 = some key →
      ends (.attest k i) s d (draw d 32).2 k
        (rep (natLe 8 (now d)) (evidence c d ++ fitTo 3309 (pkSign 0x30 0x49 3309 key (evidence c d) 0 [] d.ent.draws))) i)) ∧
  (∀ s k i c d, reach cardComponentTransport s.dev k i = some (c, d) → ∀ x, componentOf c d = some x →
    ends (.componentTransport k i) s d d k (rep [] (x.challenge ++ fitTo 1184 (pkPublicOf 0x41 x.kemPriv))) i) ∧
  (∀ s k i c d, reach cardKeyWrap s.dev k i = some (c, d) → ∀ x w, sentKey c d (c.b8 0) wrapKeyPerm = .ok x →
    useKey c d (c.b8 8) (wrapKekPerm x.1) 1 = .ok w →
    ends (.keyWrap k i) s d (useOnce d k w.1) k (repUsing [w.1] x.1.kcv (keyWrap w.2 x.2) []) i)

/-- The symmetric commands on data (08 R234 to R245, R255 to R257): SYM_CIPHER in CTR mode takes one counter value per block and forms its counter
blocks of the serial and that value, in ECB and CBC it transforms its input; AEAD encrypts under an IV of the serial and the value taken, and releases
the plaintext only of a chunk or message that its tag verifies; CMAC generates, and verifies a MAC that is right. -/
def Obligations.SymmetricCommandsComplete : Prop :=
  (∀ s k i c d, reach cardSymCipher s.dev k i = some (c, d) → ∀ x t, cipherKey c d (symPerm c) (symValues c) = .ok x →
    t = takeValues d k x.1 (symValues c) → c.data ≠ [] →
    ∀ iv, iv = slice c.p 0x18 (blockLen (isAes x.1.alg)) →
    (∀ own out, c.b1 9 = 2 → symEnc c = true → symHostIv c = false → own = natBe 8 d.otp.serial ++ natBe 8 t.1 → out = ctr x.2 own c.data → out ≠ [] →
      ends (.symCipher k i) s d t.2 k (repUsing [x.1] own [] [(c.b8 0x10, out)]) i) ∧
    (∀ own out, c.b1 9 = 1 → symEnc c = true → symHostIv c = false → own = drawBytes t.2.ent.draws (blockLen (isAes x.1.alg)) →
      out = cbcEnc (isAes x.1.alg) x.2 own c.data → out ≠ [] →
      ends (.symCipher k i) s d (draw t.2 32).2 k (repUsing [x.1] own [] [(c.b8 0x10, out)]) i) ∧
    (∀ out, c.b1 9 ≠ 0 → symEnc c = true → symHostIv c = true →
      out = (if c.b1 9 = 1 then cbcEnc (isAes x.1.alg) x.2 iv c.data else ctr x.2 iv c.data) → out ≠ [] →
      ends (.symCipher k i) s d t.2 k (repUsing [x.1] iv [] [(c.b8 0x10, out)]) i) ∧
    (∀ out, c.b1 9 = 0 → out = ecb (isAes x.1.alg) (!symEnc c) x.2 c.data → out ≠ [] →
      ends (.symCipher k i) s d t.2 k (repUsing [x.1] [] [] [(c.b8 0x10, out)]) i) ∧
    (∀ out, c.b1 9 ≠ 0 → symEnc c = false → out = (if c.b1 9 = 1 then cbcDec (isAes x.1.alg) x.2 iv c.data else ctr x.2 iv c.data) → out ≠ [] →
      ends (.symCipher k i) s d t.2 k (repUsing [x.1] (natLe 4 c.data.length) [] [(c.b8 0x10, out)]) i)) ∧
  (∀ s k i c d, reach cardAead s.dev k i = some (c, d) → ∀ x t, cipherKey c d (aeadPerm c) 1 = .ok x → t = takeValues d k x.1 1 →
    ∀ aad iv pass, aad = (i.aad.getD []).take (aeadAadLen c) →
    iv = (if aeadEnc c && !aeadCcm c && !bit (c.b1 0x0A) 2 then natBe 8 d.otp.serial ++ natBe 8 t.1 else slice c.p 0x28 (aeadIvLen c)) →
    pass = aeadPass c x.2 iv aad c.data →
    (aeadEnc c = true → c.data ≠ [] →
      (aeadCcm c = false → pass = (gcmText x.2 iv c.data, (gcmTag x.2 iv aad (gcmText x.2 iv c.data)).take (aeadTagLen c))) ∧
      ends (.aead k i) s d t.2 k (repUsing [x.1] pass.2 (fitTo 64 (fitTo 16 iv ++ natLe 1 iv.length)) [(c.b8 0x10, pass.1)]) i) ∧
    (aeadEnc c = false → bit (c.b1 0x0A) 1 = false →
      (pass.2 = slice c.p 0x38 (aeadTagLen c) →
        ends (.aead k i) s d t.2 k (repUsing [x.1] (natLe 8 c.data.length) [] (releaseWrites d c pass.1 true)) i) ∧
      (pass.2 ≠ slice c.p 0x38 (aeadTagLen c) →
        ends (.aead k i) s d t.2 k { status := stTagFail, result := fitTo 16 (natLe 8 (releasedOf c.data.length)), data := [],
                                     outs := releaseWrites d c pass.1 false } i)) ∧
    (aeadEnc c = false → bit (c.b1 0x0A) 1 = true →
      (pass.2 ≠ slice c.p 0x38 (aeadTagLen c) →
        ends (.aead k i) s d t.2 k { status := stTagFail, result := fitTo 16 (natLe 8 0), data := [], outs := refusedWrites d c c.data.length } i) ∧
      (∀ again second, pass.2 = slice c.p 0x38 (aeadTagLen c) → i.dataAgain = some again →
        second = aeadPass c x.2 iv aad (fitTo c.data.length again) → second.2 = slice c.p 0x38 (aeadTagLen c) →
        ends (.aead k i) s d t.2 k (repUsing [x.1] (natLe 8 c.data.length) [] (releaseWrites d c second.1 true)) i))) ∧
  (∀ s k i c d, reach cardCmac s.dev k i = some (c, d) → ∀ x, useKey c d (c.b8 0) (cmacPerm c) 1 = .ok x →
    (c.b1 8 = 0 → ends (.cmac k i) s d (useOnce d k x.1) k (repUsing [x.1] ((aesCmac x.2 c.data).take (c.b1 9)) [] []) i) ∧
    (c.b1 8 = 1 → (aesCmac x.2 c.data).take (c.b1 9) = slice c.p 0x10 (c.b1 9) →
      ends (.cmac k i) s d (useOnce d k x.1) k (repUsing [x.1] [] [] []) i) ∧
    (c.b1 8 = 1 → (aesCmac x.2 c.data).take (c.b1 9) ≠ slice c.p 0x10 (c.b1 9) →
      ends (.cmac k i) s d (useOnce d k x.1) k (bare stMacMismatch) i))

/-- The public-key commands (09 R271 to R279): PK_SIGN signs with one use of its key, PK_VERIFY answers whether a signature verifies, PK_DECRYPT the
plaintext or DECRYPT_FAIL, PK_KEM creates the key it encapsulates or recovers, PK_PUBLIC answers or imports a public key, EMV_CERT builds an ICC or
static certificate or recovers one, whose key TARGET receives, TR34 issues a nonce, imports the key of a token that is signed, fresh and sound, or
builds a token. -/
def Obligations.PublicKeyCommandsComplete : Prop :=
  (∀ s k i c d, reach cardPkSign s.dev k i = some (c, d) → ∀ x, useKey c d (c.b8 0) (signPerm c) 1 = .ok x →
    ∀ n, n = sigLen x.1.alg (recBits x.1) →
    ends (.pkSign k i) s d (useOnce (draw d 32).2 k x.1) k
      (repUsing [x.1] (natLe 2 n) (fitTo n (pkSign (c.b1 8) x.1.alg n x.2 c.data (c.b1 9) (schemeCtx c) d.ent.draws)) []) i) ∧
  (∀ s k i c d, reach cardPkVerify s.dev k i = some (c, d) → ∀ x, useKey c d (c.b8 0) (verifyPerm c) 1 = .ok x →
    ∀ sig, sig = slice c.p (0x10 + c.b1 0x0A) (c.b2 0x0C) →
    ends (.pkVerify k i) s d (useOnce d k x.1) k
      (if sig.length = sigLen x.1.alg (recBits x.1) ∧ pkVerify (c.b1 8) x.1.alg x.2 c.data (c.b1 9) (schemeCtx c) sig = true
       then repUsing [x.1] [] [] [] else bare stSignatureMismatch) i) ∧
  (∀ s k i c d, reach cardPkDecrypt s.dev k i = some (c, d) → ∀ x, useKey c d (c.b8 0) decryptPerm 1 = .ok x →
    ends (.pkDecrypt k i) s d (useOnce (draw d 32).2 k x.1) k
      (match oaepDecrypt x.2 c.data with
       | none => bare stDecryptFail
       | some m => repUsing [x.1] (natLe 2 (m.take (recBits x.1 / 8 - 66)).length) (m.take (recBits x.1 / 8 - 66)) []) i) ∧
  (∀ s k i c d, reach cardPkKem s.dev k i = some (c, d) → ∀ x, useKey c d (c.b8 0) (kemPerm c) 1 = .ok x →
    ∀ e n, e = useOnce (draw d 32).2 k x.1 →
      n = kemNew c e (if c.b1 8 = 0 then Config.kemSecret x.1.alg x.2 d.ent.draws else Config.kemDecaps x.1.alg x.2 c.data) →
    edits (.pkKem k i) s d e (newKeyEdit e n) k
      (repUsing [x.1] (natLe 8 n.handle ++ n.kcv)
        (if c.b1 8 = 0 then fitTo (kemLen x.1.alg) (Config.kemCiphertext x.1.alg x.2 d.ent.draws) else []) []) i) ∧
  (∀ s k i c d, reach cardPkPublic s.dev k i = some (c, d) →
    (∀ x, c.b1 0 = 0 → sentKey c d (c.b8 8) publicPerm = .ok x →
      ends (.pkPublic k i) s d d k (rep ((sha256 (encodingOf x)).take 5) (encodingOf x)) i) ∧
    (c.b1 0 = 1 → edits (.pkPublic k i) s d d (newKeyEdit d (publicNew c d)) k (rep (publicNew c d).kcv []) i)) ∧
  (∀ s k i c d, reach cardEmvCert s.dev k i = some (c, d) → ∀ x, useKey c d (c.b8 0) (emvPerm c) 1 = .ok x →
    ∀ N e, N = recBits x.1 / 8 → emvParse (c.b1 8) (c.b1 9) N c.data = some e →
    (c.b1 8 = 0 → ends (.emvCert k i) s d (useOnce (draw d 32).2 k x.1) k
      (repUsing [x.1] (natLe 2 N ++ natLe 2 (e.modulus.drop (N - 42)).length)
        (rsaRaw N x.2 (iccBlock N e) ++ e.modulus.drop (N - 42)) []) i) ∧
    (c.b1 8 = 1 → ends (.emvCert k i) s d (useOnce (draw d 32).2 k x.1) k (repUsing [x.1] [] (rsaRaw N x.2 (ssadBlock N e)) []) i) ∧
    (c.b1 8 = 2 → c.b8 0x10 = 0 → ends (.emvCert k i) s d (useOnce d k x.1) k
      (if recoveredOk (c.b1 9) N (fitTo N (rsaRecover x.2 e.head)) e then repUsing [x.1] [] (fitTo N (rsaRecover x.2 e.head)) []
       else bare stSignatureMismatch) i)) ∧
  (∀ s k i c d1 d, ready cardEmvCert s.dev k i = some (c, d1) → c.b1 8 = 2 → c.b8 0x10 ≠ 0 → served cardEmvCert d1 c = some d →
    ∀ x e, useKey c d1 (c.b8 0) (emvPerm c) 1 = .ok x → useKey c d (c.b8 0) (emvPerm c) 1 = .ok x →
    emvParse 2 (c.b1 9) (signerLen x.1) c.data = some e → signerLen x.1 ≤ c.cap →
    ∀ y f, y = emvRecovered x e → f = useOnce d k x.1 →
    if recoveredOk (c.b1 9) (signerLen x.1) y e then
      match recoveredModulus (c.b1 9) (signerLen x.1) y e with
      | none => leaves (.emvCert k i) s (refuse (meetInvalid cardEmvCert d1 c) k stBadLength)
      | some m =>
        match orElse (tenantStep c d1 (c.b8 0x10)) (orElse (firstFail [(rsaCode (8 * m.length) == 0 || expOf (beNat e.expo) == 3, stKeyUsage)])
            (createCheck c d1 (c.b8 0x10) true (chainLenOf (m.length + 4)))) with
        | some st => leaves (.emvCert k i) s (refuse (meetInvalid cardEmvCert d1 c) k st)
        | none => edits (.emvCert k i) s d f (newKeyEdit f (emvNew f (c.b8 0x10) m e.expo)) k (repUsing [x.1] [] y []) i
    else ends (.emvCert k i) s d f k (bare stSignatureMismatch) i) ∧
  (∀ s k i c d, reach cardTr34 s.dev k i = some (c, d) → c.b1 0 = 0 →
    ends (.tr34 k i) s d (issueNonce (draw d 16).2 c.tenant (c.b8 8) (drawBytes d.ent.draws 16)) k (rep (drawBytes d.ent.draws 16) []) i) ∧
  (∀ s k i c d1 d, ready cardTr34 s.dev k i = some (c, d1) → c.b1 0 = 1 → served cardTr34 d1 c = some d →
    ∀ x y, krdKey c d1 1 = .ok x → kdhKey c d1 = .ok y → krdKey c d 1 = .ok x → kdhKey c d = .ok y → tenantStep c d1 (c.b8 0x18) = none →
    match tokenIn c with
    | none => leaves (.tr34 k i) s (refuse (meetInvalid cardTr34 d1 c) k stBadParam)
    | some t =>
      if Config.tr34Verify y.2 c.data then
        match freshness c (useOnce d k y.1) t y.1 with
        | (false, e) => ends (.tr34 k i) s d e k (bare stTokenRejected) i
        | (true, e) => ∀ f, f = useOnce (draw e 32).2 k x.1 →
          match Config.tr34Open x.2 t.envelope with
          | none => ends (.tr34 k i) s d f k (bare stDecryptFail) i
          | some b =>
            match orElse (blockFault b (hClass (c.b8 0x18)) (contentStrength t) (c.b1 2) (zeroBytes 7)) (createCheck c f (c.b8 0x18) true 1) with
            | some st => ends (.tr34 k i) s d f k (bare st) i
            | none => ∀ n : NewKey, n = { handle := newHandle f (c.b8 0x18) [hClass (c.b8 0x18)], alg := blockAlg b, usage := b.usage, mode := b.mode,
                                          expo := b.expo, kcvMethod := c.b1 2, params := zeroBytes 7, notBefore := 0, notAfter := noLimit,
                                          material := b.key } →
              ∃ e' r, tr34Create c f t n [x.1, y.1] = (e', .done r) ∧ ends (.tr34 k i) s d e' k r i ∧
                (r = repUsing [x.1, y.1] (natLe 8 n.handle ++ n.kcv) [] [] ∨ r = bare stBusy)
      else ends (.tr34 k i) s d (useOnce d k y.1) k (bare stSignatureMismatch) i) ∧
  (∀ s k i c d1 d, ready cardTr34 s.dev k i = some (c, d1) → c.b1 0 = 2 → served cardTr34 d1 c = some d →
    ∀ x y z, krdKey c d1 1 = .ok x → kdhKey c d1 = .ok y → tr34Sent c d1 = .ok z → krdKey c d 1 = .ok x → kdhKey c d = .ok y → tr34Sent c d = .ok z →
    if (builtToken c d1).length ≤ c.cap then
      ends (.tr34 k i) s d (useOnce (useOnce (draw d 64).2 k x.1) k y.1) k
        (repUsing [x.1, y.1] (natLe 4 (builtToken c d).length ++ z.1.kcv) (builtToken c d) []) i
    else leaves (.tr34 k i) s (refuse (meetInvalid cardTr34 d1 c) k stBadLength))

/-- The PIN commands (10 R286 to R304): a block that does not hold a PIN ends PIN_BLOCK_INVALID; otherwise PIN_TRANSLATE answers the PIN in a block
under the other key, PIN_VERIFY whether it verifies, PIN_CHANGE the new reference unless the new PIN is refused, PIN_GENERATE a block and a reference.
Each takes one use of each of its keys. -/
def Obligations.PinCommandsComplete : Prop :=
  (∀ s k i c d, reach cardPinTranslate s.dev k i = some (c, d) → ∀ src dst, translateSrc c d = .ok src → translateDst c d = .ok dst →
    ∀ e, e = useBoth d k src.1 dst.1 →
    match pinOf (c.b1 0x20) (panOf c 0x23 0x24) (workingKey c 0 0 src) (blockOf c (c.b1 0x20) 0x30) with
    | none => ends (.pinTranslate k i) s d e k (bare stPinBlockInvalid) i
    | some pin => ∀ b, b = encipherPin e (c.b1 0x21) pin (panOf c 0x23 0x24) dst.2 →
        ends (.pinTranslate k i) s d b.2 k (repUsing [src.1, dst.1] b.1 [] []) i) ∧
  (∀ s k i c d, reach cardPinVerify s.dev k i = some (c, d) → ∀ src pvk, translateSrc c d = .ok src → pvkKey c d [mC, mV] = .ok pvk →
    ends (.pinVerify k i) s d (useBoth d k src.1 pvk.1) k
      (match pinOf (c.b1 0x20) (panOf c 0x23 0x24) (workingKey c 0 0 src) (blockOf c (c.b1 0x20) 0x30) with
       | none => bare stPinBlockInvalid
       | some pin =>
         if pinVerifies pvk (c.b1 0x21) (c.b1 0x22) (panOf c 0x23 0x24) (slice c.p 0x40 8) (givenReference c 0x40) pin
         then repUsing [src.1, pvk.1] [] [] [] else bare stPinMismatch) i) ∧
  (∀ s k i c d, reach cardPinChange s.dev k i = some (c, d) → ∀ src pvk, translateSrc c d = .ok src → pvkKey c d [mC] = .ok pvk →
    ends (.pinChange k i) s d (useBoth d k src.1 pvk.1) k
      (match pinOf (c.b1 0x20) (panOf c 0x23 0x24) (workingKey c 0 0 src) (blockOf c (c.b1 0x20) 0x30) with
       | none => bare stPinBlockInvalid
       | some old =>
         if !pinVerifies pvk (c.b1 0x21) (c.b1 0x22) (panOf c 0x23 0x24) (slice c.p 0x50 8) (givenReference c 0x50) old then bare stPinMismatch
         else match pinOf (c.b1 0x20) (panOf c 0x23 0x24) (workingKey c 0 0 src) (blockOf c (c.b1 0x20) 0x40) with
           | none => bare stPinBlockInvalid
           | some new =>
             if newPinRefused pvk.1 (c.b1 0x21) (c.b1 0x22) new then bare stPinPolicy
             else repUsing [src.1, pvk.1]
               (referenceBytes (referenceOf pvk (c.b1 0x21) (c.b1 0x22) (panOf c 0x23 0x24) (slice c.p 0x50 8) new)) [] []) i) ∧
  (∀ s k i c d, reach cardPinGenerate s.dev k i = some (c, d) → ∀ pvk dst, genPvk c d = .ok pvk → genDst c d = .ok dst →
    ∀ p b, p = (if c.b1 0x12 = 1 then (naturalPin pvk (slice c.p 0x20 8) (c.b1 0x14), useBoth d k pvk.1 dst.1)
                else randomPin (c.b1 0x13) 64 (useBoth d k pvk.1 dst.1)) →
      b = encipherPin p.2 (c.b1 0x10) p.1 (panOf c 0x15 0x16) dst.2 →
    ends (.pinGenerate k i) s d b.2 k
      (repUsing [pvk.1, dst.1] b.1
        (fitTo 64 (referenceBytes (referenceOf pvk (c.b1 0x11) (c.b1 0x14) (panOf c 0x15 0x16) (slice c.p 0x20 8) p.1))) []) i)

/-- The 0x5xxx commands (10 R305 to R314): ARQC_VERIFY answers the ARPC where the cryptogram is right, EMV_SCRIPT the MAC or the enciphered script, CVC
generates or verifies a card verification code, PAY_MAC generates or verifies a MAC. Each takes one use of its key. -/
def Obligations.PaymentCommandsComplete : Prop :=
  (∀ s k i c d, reach cardArqcVerify s.dev k i = some (c, d) → ∀ x, arqcKey c d = .ok x →
    ∀ sk, sk = arqcSession c x →
    ends (.arqcVerify k i) s d (useOnce d k x.1) k
      (if emvMac (isAes x.1.alg) (c.b1 0x0B) sk (slice c.p 0x38 (c.b1 0x1B)) = slice c.p 0x20 8
       then repUsing [x.1] (arpcOf c (isAes x.1.alg) sk) [] [] else bare stCryptogramMismatch) i) ∧
  (∀ s k i c d, reach cardEmvScript s.dev k i = some (c, d) → ∀ x, scriptKey c d = .ok x →
    ∀ sk out, sk = sessionKey (isAes x.1.alg) 0 (cardKey (c.b1 9) x.2 (panOf c 0x0A 0x10) (psnOf (c.b1 0x0B))) (slice c.p 0x0C 2) →
      out = cbcEnc (isAes x.1.alg) sk (zeroBytes (blockLen (isAes x.1.alg))) (pad2 (blockLen (isAes x.1.alg)) c.data) →
    ends (.emvScript k i) s d (useOnce d k x.1) k
      (if c.b1 8 = 0 then repUsing [x.1] (emvMac (isAes x.1.alg) 2 sk c.data) [] [] else repUsing [x.1] (natLe 4 out.length) out []) i) ∧
  (∀ s k i c d, reach cardCvc s.dev k i = some (c, d) → ∀ x, cvcKey c d = .ok x →
    ∀ code, code = packNibbles (padRight 6 15 (cvcOf c x)) →
    ends (.cvc k i) s d (useOnce d k x.1) k
      (if c.b1 8 = 0 then repUsing [x.1] code [] [] else if code = slice c.p 0x1A 3 then repUsing [x.1] [] [] [] else bare stCvcMismatch) i) ∧
  (∀ s k i c d, reach cardPayMac s.dev k i = some (c, d) → ∀ x, payMacKey c d = .ok x →
    ∀ mac, mac = (payMacOf c (workingKey c (1 + c.b1 0x1C) (1 + c.b1 0x18) x)).take (c.b1 0x1B) →
    ends (.payMac k i) s d (useOnce d k x.1) k
      (if c.b1 0x18 = 0 then repUsing [x.1] mac [] [] else if mac = slice c.p 0x20 (c.b1 0x1B) then repUsing [x.1] [] [] [] else bare stMacMismatch) i)

/-- The metering commands (11 R315 to R338): STS_CREDIT_TOKEN and STS_MGMT_TOKEN issue a token that carries the next TID of their decoder key and raise
its LAST_TID, STS_DECODER_KEY creates a decoder key, STS_KEY_CHANGE replaces one and answers its token set, DLMS_PROTECT and DLMS_UNPROTECT protect and
open a frame, METER_KEY_ROTATE treats its batch entry by entry, METER_KEY_LOAD creates the key it unwraps. -/
def Obligations.MeteringCommandsComplete : Prop :=
  (∀ s k i c d, reach cardStsCreditToken s.dev k i = some (c, d) → ∀ x, tokenKey c d = .ok x → ∀ a t, amountField (c.b4 0x0C) = some a →
    nextTid d x.1 = some t → ∀ token, token = stsTokenOf 0 x (tokenBlock 0 (c.b1 8) (((drawBytes d.ent.draws 1).headD 0).toNat % 16) t a) →
    ∀ e, issueTid (draw d 1).2 k x.1 (some t) = (e, true) →
    ends (.stsCreditToken k i) s d e k (repUsing [x.1] (natLe 9 token ++ natLe 3 t ++ natLe 2 a) (tokenEntry token) []) i) ∧
  (∀ s k i c d1 d, ready { cardStsMgmtToken with paramOk := fun c => decide (c.b1 8 ≤ 15) && zeros c.p 9 3 && zeros c.p 0x0E 2 } s.dev k i = some (c, d1) →
    served cardStsMgmtToken d1 c = some d → ∀ x, tokenKey c d1 = .ok x → tokenKey c d = .ok x → now d = now d1 →
    if Config.stsSubclassHasValue (c.b1 8) then
      if Config.stsSubclassHasTid (c.b1 8) && (nextTid d x.1).isNone then
        leaves (.stsMgmtToken k i) s (refuse (meetInvalid cardStsMgmtToken d1 c) k stTidRange)
      else
        ∃ tid t token, tid = (if Config.stsSubclassHasTid (c.b1 8) then nextTid d x.1 else none) ∧
          t = tid.getD (Config.freeNat 11 (c.b1 8) % 2 ^ 24) ∧
          token = stsTokenOf 2 x (tokenBlock 2 (c.b1 8) (((drawBytes d.ent.draws 1).headD 0).toNat % 16) t (c.b2 0x0C)) ∧
          match issueTid (draw d 1).2 k x.1 tid with
          | (e, true) => ends (.stsMgmtToken k i) s d e k (repUsing [x.1] (natLe 9 token ++ natLe 3 t ++ natLe 2 (c.b2 0x0C)) (tokenEntry token) []) i
          | (e, false) => ends (.stsMgmtToken k i) s d e k (bare stBusy) i
    else leaves (.stsMgmtToken k i) s (endWith (passEntry s.dev k) k stBadParam)) ∧
  (∀ s k i c d, reach cardStsDecoderKey s.dev k i = some (c, d) → ∀ x, stsVending c d 0 = .ok x →
    ∀ e, e = useOnce d k x.1 → ∀ n : NewKey,
      n = { handle := newHandle e (c.b8 8) [10], alg := x.1.alg, usage := uOwn 3, mode := mB, expo := c.b1 0x1E, kcvMethod := 1,
            params := decoderParams (c.b1 0x1C) (field x.1.params 4 1) (c.b1 0x1A) (c.b1 0x1B), notBefore := c.b8 0x20, notAfter := c.b8 0x28,
            material := decoderKey x (slice c.p 0x10 10) (c.b1 0x1A) (c.b1 0x1B) } →
    edits (.stsDecoderKey k i) s d e (newKeyEdit e n) k (repUsing [x.1] (natLe 8 n.handle ++ n.kcv) [] []) i) ∧
  (∀ s k i c d, reach cardStsKeyChange s.dev k i = some (c, d) → ∀ x old, stsVending c d 8 = .ok x →
    useKey c d (changedVersion c d).handle decoderPerm 1 = .ok old →
    ∀ e n r, e = useBoth d k x.1 old.1 →
      n = { nextVersion (changedVersion c e) (decoderKey x (slice c.p 0x10 10) (c.b1 0x1A) (c.b1 0x1B)) with
            params := decoderParams (c.b1 0x1C) (field x.1.params 4 1) (c.b1 0x1A) (c.b1 0x1B) } →
      r = replaceRun e (storeOf e k (c.b8 0)) (changedVersion c e) n (c.b8 0x20) (slice c.p 0x28 5) i.testPasses →
    ends (.stsKeyChange k i) s d r.1 k
      (if r.2 = stOk then repUsing [x.1] (natLe 8 n.handle ++ n.kcv ++ natLe 1 (changeTokens old.1.alg)) ((changeSet old n).flatMap tokenEntry) []
       else bare r.2) i) ∧
  (∀ s k i c d, reach cardDlmsProtect s.dev k i = some (c, d) → ∀ ek, frameEk c d = .ok ek → scA (c.b1 0x20) = false →
    ∀ iv out, iv = slice c.p 0x10 8 ++ slice c.p 0x24 4 → out = natLe 1 (c.b1 0x20) ++ slice c.p 0x24 4 ++ gcmText ek.2 iv c.data →
    ends (.dlmsProtect k i) s d (useOnce d k ek.1) k (repUsing [ek.1] (natLe 4 out.length) [] [(c.b8 0x18, out)]) i) ∧
  (∀ s k i c d, reach cardDlmsProtect s.dev k i = some (c, d) → ∀ ek ak, frameEk c d = .ok ek → frameAk c d = .ok ak → scA (c.b1 0x20) = true →
    ∀ iv body out, iv = slice c.p 0x10 8 ++ slice c.p 0x24 4 → body = (if scE (c.b1 0x20) then gcmText ek.2 iv c.data else c.data) →
    out = natLe 1 (c.b1 0x20) ++ slice c.p 0x24 4 ++ body ++
      (gcmTag ek.2 iv (natLe 1 (c.b1 0x20) ++ ak.2 ++ if scE (c.b1 0x20) then [] else c.data) (if scE (c.b1 0x20) then body else [])).take 12 →
    ends (.dlmsProtect k i) s d (useOnce (useOnce d k ek.1) k ak.1) k (repUsing [ek.1, ak.1] (natLe 4 out.length) [] [(c.b8 0x18, out)]) i) ∧
  (∀ s k i c d, reach cardDlmsUnprotect s.dev k i = some (c, d) → ∀ ek, frameEk c d = .ok ek → scA (field c.data 0 1) = false →
    ∀ iv n, iv = slice c.p 0x10 8 ++ slice c.data 1 4 → n = c.data.length - 5 →
    ends (.dlmsUnprotect k i) s d (useOnce d k ek.1) k
      (repUsing [ek.1] (slice c.data 1 4 ++ natLe 1 (field c.data 0 1) ++ zeroBytes 3 ++ natLe 4 n) [] [(c.b8 0x18, gcmText ek.2 iv (slice c.data 5 n))]) i) ∧
  (∀ s k i c d, reach cardDlmsUnprotect s.dev k i = some (c, d) → ∀ ek ak, frameEk c d = .ok ek → frameAk c d = .ok ak → scA (field c.data 0 1) = true →
    ∀ iv n body apdu, iv = slice c.p 0x10 8 ++ slice c.data 1 4 → n = c.data.length - 17 → body = slice c.data 5 n →
    apdu = (if scE (field c.data 0 1) then gcmText ek.2 iv body else body) →
    ends (.dlmsUnprotect k i) s d (useOnce (useOnce d k ek.1) k ak.1) k
      (if (gcmTag ek.2 iv (natLe 1 (field c.data 0 1) ++ ak.2 ++ if scE (field c.data 0 1) then [] else apdu)
            (if scE (field c.data 0 1) then body else [])).take 12 = c.data.drop (5 + n)
       then repUsing [ek.1, ak.1] (slice c.data 1 4 ++ natLe 1 (field c.data 0 1) ++ zeroBytes 3 ++ natLe 4 n) []
              (if n = 0 then [] else [(c.b8 0x18, apdu)])
       else bare stTagFail) i) ∧
  (∀ s k i c d, reach cardMeterKeyRotate s.dev k i = some (c, d) → ∀ r, r = rotateAll c (rotateEntries c.data) (d, 0, []) →
    ends (.meterKeyRotate k i) s d r.1 k (rep (natLe 4 r.2.1 ++ natLe 4 ((rotateEntries c.data).length - r.2.1)) r.2.2) i) ∧
  (∀ s k i c d, reach cardMeterKeyLoad s.dev k i = some (c, d) → ∀ w, useKey c d (c.b8 8) (meterWrapPerm c) 1 = .ok w →
    match keyUnwrap w.2 c.data with
    | none => ends (.meterKeyLoad k i) s d (useOnce d k w.1) k (bare stTagFail) i
    | some m => ∀ n, n = unwrapNew c (useOnce d k w.1) m →
        if (slice c.p 0x18 5).any (· != 0) = true ∧ n.kcv ≠ slice c.p 0x18 5 then ends (.meterKeyLoad k i) s d (useOnce d k w.1) k (bare stKeyCheckFail) i
        else edits (.meterKeyLoad k i) s d (useOnce d k w.1) (newKeyEdit (useOnce d k w.1) n) k (repUsing [w.1] (natLe 8 n.handle ++ n.kcv) [] []) i)

/-- The maintenance commands (18 R514 to R517): MAINT_START puts its activity in the slot, begins it and answers the module time; MAINT_STATUS reports
the occupant, the companion and the last activity; MAINT_STOP stops the activities named and answers how many; SHUTDOWN begins the drain and waits for
it, or joins the one under way, answers at once where the module is safe already, and with CANCEL returns the module to service. -/
def Obligations.MaintenanceCommandsComplete : Prop :=
  (∀ s k i c d, reach cardMaintStart s.dev k i = some (c, d) → ∀ a, a = newActivity c d →
    a.code = c.b1 0 ∧ a.arg = c.b4 4 ∧ a.started = now d ∧ (startActivity d a).sen.submitted.length = d.sen.submitted.length + 1 ∧
    (d.mnt.occupant = none → (startActivity d a).mnt.occupant = some a) ∧
    (d.mnt.occupant.isSome = true → (startActivity d a).mnt.occupant = d.mnt.occupant ∧ (startActivity d a).mnt.companion = some a) ∧
    ends (.maintStart k i) s d (beginActivity a (startActivity d a)) k
      (rep (natLe 1 (c.b1 0) ++ natLe 1 (if d.mnt.occupant.isSome then 1 else 0) ++ zeroBytes 6 ++ natLe 8 (now d)) []) i) ∧
  (∀ s k i c d, reach cardMaintStatus s.dev k i = some (c, d) →
    ends (.maintStatus k i) s d d k
      (rep (natLe 2 (maintCode d) ++ natLe 1 ((if d.mnt.activeB then 1 else 0) + (if d.mnt.trial then 2 else 0) + (if d.mnt.tried then 4 else 0)) ++
          zeroBytes 1 ++ natLe 4 (minSecurity d) ++ natLe 8 (now d))
        (slotBytes d d.mnt.occupant ++ slotBytes d d.mnt.companion ++ activityBytes d.mnt.last d.mnt.last.done')) i) ∧
  (∀ s k i c d, reach cardMaintStop s.dev k i = some (c, d) →
    ends (.maintStop k i) s d ((namedActivities d (c.b1 0)).foldl stopActivity d) k (rep (natLe 1 (namedActivities d (c.b1 0)).length) []) i) ∧
  (∀ s k i c d, reach cardShutdown s.dev k i = some (c, d) →
    (c.b1 0 = 1 → ends (.shutdown k i) s d
      { d with bay.removal := .idle, bay.removalPending := false, bay.safeToRemove := false, bay.drainKind := 0 } k (rep [] []) i) ∧
    (c.b1 0 = 0 → d.bay.removal = .safe → d.bay.drainKind ≠ 2 → ends (.shutdown k i) s d d k (rep (natLe 8 d.bay.safeAt) []) i) ∧
    (c.b1 0 = 0 → d.bay.removal = .draining ∨ d.bay.removal = .leaving → d.bay.drainKind ≠ 2 →
      leavesWaiting (.shutdown k i) s { d with bay.shutdownCtxs := d.bay.shutdownCtxs ++ [k] } k .removal i) ∧
    (c.b1 0 = 0 → d.bay.removal = .idle ∨ d.bay.removal = .abortWindow ∨ d.bay.drainKind = 2 → ∀ e, e = startDrain d 1 →
      leavesWaiting (.shutdown k i) s { e with bay.shutdownCtxs := e.bay.shutdownCtxs ++ [k] } k .removal i))

/-- The activities end (18 R507 to R511, R502; 15 R442): an image written and sound stands in its slot, an unsound one is rejected; an activated image
is tried by a restart of the fabric, which waits for the commands that the module has fetched (the model's choice, log entry 89); fuses named are
programmed full; a replaced cell pack in order is recorded; a self test takes the units that failed out of service; a CELL_REPLACE out of time ends
stopped. Each leaves the slot and is the last activity. -/
def Obligations.ActivitiesEnd : Prop :=
  (∀ s boot a, activityOf s.dev 1 = some a →
    (imageFault s.dev (a.image.getD {}) = none → firmwareLess s.dev = false →
      leaves (.fwWriteDone boot) s (endActivity (setImage s.dev (a.detail == 1) (some (a.image.getD {}))) 1 3 stOk a.detail)) ∧
    (imageFault s.dev (a.image.getD {}) = none → firmwareLess s.dev = true → fetchedInFlight s.dev = true → leaves (.fwWriteDone boot) s s.dev) ∧
    (imageFault s.dev (a.image.getD {}) = none → firmwareLess s.dev = true → fetchedInFlight s.dev = false →
      leaves (.fwWriteDone boot) s (fabricRestart
        { endActivity (setImage s.dev (a.detail == 1) (some (a.image.getD {}))) 1 3 stOk a.detail with mnt.activeB := a.detail == 1, mnt.trial := false } boot)) ∧
    (imageFault s.dev (a.image.getD {}) ≠ none → leaves (.fwWriteDone boot) s (endActivity s.dev 1 4 stImageRejected a.detail))) ∧
  (∀ s boot a, activityOf s.dev 2 = some a → s.dev.bay.drainKind = 2 → s.dev.bay.removal = .safe →
    leaves (.fwActivateRestart boot) s
      (if fetchedInFlight s.dev then s.dev else fabricRestart (endActivity s.dev 2 3 stOk a.detail) boot)) ∧
  (∀ s a, activityOf s.dev 5 = some a →
    ∃ e, leaves .fuseDisableDone s e ∧ e.mnt.last.code = 5 ∧ e.mnt.last.st = 3 ∧ e.mnt.last.detail = a.arg ∧
      ∀ j, j < 5 → s.dev.otp.tamperFuses.length = 5 → e.otp.tamperFuses.getD j 0 = if bit a.arg j then 15 else s.dev.otp.tamperFuses.getD j 0) ∧
  (∀ s a, activityOf s.dev 6 = some a → a.withdrawn = true → s.dev.bay.cell.seated = true →
    (s.dev.bay.cellState = 0 → leaves .cellReplaceDone s (endActivity (recordCell s.dev) 6 3 stOk 0)) ∧
    (s.dev.bay.cellState ≠ 0 → leaves .cellReplaceDone s (endActivity s.dev 6 4 (openStatus 6 4) s.dev.bay.cellState))) ∧
  (∀ s a, activityOf s.dev 6 = some a → leaves .cellReplaceTimeout s (endActivity s.dev 6 5 (openStatus 6 5) a.detail)) ∧
  (∀ s a failed, activityOf s.dev 7 = some a → a.st = 2 → (bit a.arg 4 && sweepRuns s.dev) = false →
    ∀ l, l = failed.eraseDups.filter (fun u => bit a.arg (unitKindOf u)) →
    leaves (.selfTestDone failed) s (endActivity (l.foldl failUnit s.dev) 7 3 stOk l.length)) ∧
  (∀ d code st status detail a, activityOf d code = some a →
    (endActivity d code st status detail).mnt.last = endedActivity d a st status detail ∧
    (endedActivity d a st status detail).st = st ∧ (endedActivity d a st status detail).status = status ∧
    (endedActivity d a st status detail).detail = detail ∧ (endedActivity d a st status detail).ended = now d)

/-- The ring commands (12 R373 to R376) complete: RING_CONFIG reads the identity, adopts a configuration, which a joined member sends round and waits
for, reads the one held; RING_CTRL of a joined module begins its orderly leave, and returns LOST buckets to service, by the acting anchor; RING_VIEW
answers the view and its sixteen members; PLACEMENT_MAP_READ answers map entries, or the bucket of a handle. -/
def Obligations.RingCommandsComplete : Prop :=
  (∀ s k i c d, reach cardRingConfig s.dev k i = some (c, d) →
    (c.b1 0 = 0 → ends (.ringConfig k i) s d d k
      (rep (natLe 8 d.otp.serial) (identityDigest (identityPublic d 1) (identityPublic d 2) ++ identityPublic d 1 ++ identityPublic d 2)) i) ∧
    (∀ e others, c.b1 0 = 1 → e = adoptConfig d c.data → others = (presentMembers e).filter (· != memberNo e) →
      (joined e = false ∨ others = [] → ends (.ringConfig k i) s d e k (rep [] []) i) ∧
      (joined e = true → others ≠ [] → ∃ f, f.ring.config = e.ring.config ∧ leavesWaiting (.ringConfig k i) s f k (.joinedAcks others.length) i)) ∧
    (∀ cfg, c.b1 0 = 2 → d.ring.config = some cfg → ends (.ringConfig k i) s d d k (rep (natLe 8 (cfgSeq cfg)) cfg) i)) ∧
  (∀ s k i c d, reach cardRingCtrl s.dev k i = some (c, d) →
    (c.b1 0 = 0 → if (startLeave d).bay.ringJoin then leavesWaiting (.ringCtrl k i) s (startLeave d) k .ringLeave i
                  else ends (.ringCtrl k i) s d (startLeave d) k (rep [] []) i) ∧
    (c.b1 0 = 1 → isAnchor d = true → ∀ l, l = allBuckets.filter (fun x => (c.b2 4 == 0xFFFF || x == c.b2 4) && (mapOf d x).st == 5) →
      ends (.ringCtrl k i) s d (returnLost d l) k (rep (natLe 2 l.length) []) i) ∧
    (c.b1 0 = 1 → isAnchor d = false → ∀ l, l = allBuckets.filter (fun x => (c.b2 4 == 0xFFFF || x == c.b2 4) && (mapOf d x).st == 5) →
      ends (.ringCtrl k i) s d (sendFrame d d.ring.acting (.map 0 (l.map fun b => (b, mapOf d b)))) k (rep (natLe 2 l.length) []) i)) ∧
  (∀ s k i c d, reach cardRingView s.dev k i = some (c, d) →
    ends (.ringView k i) s d d k
      (rep (natLe 4 d.ring.epoch ++ natLe 2 d.ring.present ++ natLe 1 ((actingOf d d.ring.present).getD 0) ++ natLe 1 (memberNo d) ++
          natLe 4 d.ring.mapSeq ++ natLe 1 (if ringDual d then 1 else 0)) ((List.range 16).flatMap (viewEntry d))) i) ∧
  (∀ s k i c d, reach cardPlacementMapRead s.dev k i = some (c, d) →
    (c.b1 0 = 0 → ends (.placementMapRead k i) s d d k
      (rep (natLe 4 d.ring.mapSeq ++ natLe 2 (min (c.b2 4) (c.cap / 4)))
        ((List.range (min (c.b2 4) (c.cap / 4))).flatMap fun j => mapEntryBytes (mapOf d (c.b2 2 + j)))) i) ∧
    (c.b1 0 = 1 → ends (.placementMapRead k i) s d d k
      (rep (natLe 2 (bucketOf (c.b8 8)) ++ mapEntryBytes (mapOf d (bucketOf (c.b8 8))) ++ zeroBytes 2 ++ natLe 4 d.ring.mapSeq) []) i))

/-- CHECK_VALUE and RANDOM (16 R475, R476) complete with the check value of their data and with one request's bytes. A CVU_START on an idle unit that
the PF takes reads the unit's data; CVU_JOB_DONE puts the check value of the data, in the unit's own form, in its result, or ends the job in error (16
R464). -/
def Obligations.CheckValuesComplete : Prop :=
  (∀ s k i c d, reach cardCheckValue s.dev k i = some (c, d) →
    ends (.checkValue k i) s d
      { d with cvu.units := d.cvu.units.map fun u => if u.cmd = some k then { u with jobs := (u.jobs + 1) % 2 ^ 24 } else u } k
      (rep (natLe 8 (crc (c.b1 0) (c.b8 8) (c.b8 0x10) (c.b8 0x18) (bit (c.b1 1) 0) (bit (c.b1 1) 1) (bit (c.b1 1) 2) c.data)) []) i) ∧
  (∀ s k i c d, reach cardRandom s.dev k i = some (c, d) →
    (c.b4 0 ≤ 16 → ends (.random k i) s d (draw d (c.b4 0)).2 k (rep (drawBytes d.ent.draws (c.b4 0)) []) i) ∧
    (16 < c.b4 0 → ends (.random k i) s d (draw d (c.b4 0)).2 k (rep (natLe 4 (c.b4 0)) (drawBytes d.ent.draws (c.b4 0))) i)) ∧
  (∀ s u w, u < 4 → w < 2 ^ 32 → hostMay s.dev .pf (0x302C + 0x100 * u) 4 = true → bit w 0 = true → u < s.dev.cvu.units.length →
    (cvuOf s.dev u).busy = false →
    (bit w 1 = true → s.dev.host.pfBme = true →
      ∃ e, leaves (.cvuStart u w) s e ∧ (cvuOf e u).busy = true ∧ (cvuOf e u).cmd = none ∧ (cvuOf e u).owner = true ∧ (cvuOf e u).irqEn = bit w 2 ∧
        ((decideAccess s.dev 6 hostWindow .read).1 = true → e.out = s.dev.out ++ [.hostRead .pf (cvuOf e u).addr (cvuOf e u).len])) ∧
    (bit w 1 = true → s.dev.host.pfBme = false → leaves (.cvuStart u w) s (rejectPf s.dev false (0x302C + 0x100 * u))) ∧
    (bit w 1 = false → leaves (.cvuStart u w) s (modCvu s.dev u fun c => { c with owner := false, irqEn := bit w 2 }))) ∧
  (∀ s u data, u < s.dev.cvu.units.length → runsJob (cvuOf s.dev u) = true → (cvuOf s.dev u).pend = false → s.dev.cvu.pending = false →
    s.dev.act.st ≠ 0xF0 →
    leaves (.cvuJobDone u (some data)) s (signalCvu (modCvu s.dev u fun x =>
      { x with jobs := (x.jobs + 1) % 2 ^ 24, busy := false, isDone := true, err := 0,
               result := crc x.width x.poly x.crcInit x.xorout x.refin x.refout x.raw (data.take x.len) }) u) ∧
    leaves (.cvuJobDone u none) s (signalCvu (modCvu s.dev u fun x => { x with busy := false, error := true, err := 1 }) u)) ∧
  (∀ s u data, runsJob (cvuOf s.dev u) = true → s.dev.act.st = 0xF0 →
    leaves (.cvuJobDone u data) s (signalCvu (modCvu s.dev u fun x => { x with busy := false, error := true, err := 2 }) u))

/-- The entropy source (16 R467 to R472): a failed health test takes its source offline and counts, the third in succession retires it; a passed
start-up test brings it back; a reseed falls due after a second and by ENT_CTRL; a request that has waited 10 ms for the pool ends ENTROPY_FAIL. -/
def Obligations.EntropyEventsComplete : Prop :=
  (∀ s src test, s.dev.bay.fabric = true → src < 4 → bit s.dev.ent.online src = true → s.dev.ent.fails.length = 4 →
    ∃ e, leaves (.noiseSourceTestFail src test) s e ∧ e.ent.online = clearBits s.dev.ent.online (2 ^ src) ∧ bit e.ent.event 0 = true ∧
      e.ent.fails.getD src 0 = min (s.dev.ent.fails.getD src 0 + 1) 255 ∧
      e.ent.retired = (if 3 ≤ s.dev.ent.inRow.getD src 0 + 1 then setBit s.dev.ent.retired src else s.dev.ent.retired) ∧
      e.ent.poolFailed = decide (ones4 (clearBits s.dev.ent.online (2 ^ src)) < s.dev.ent.minSources)) ∧
  (∀ s src, s.dev.bay.fabric = true → src < 4 → bit s.dev.ent.online src = false → bit s.dev.ent.retired src = false → s.dev.ent.inRow.length = 4 →
    (∃ e, leaves (.noiseSourceRetest src true) s e ∧ e.ent.online = setBit s.dev.ent.online src ∧ e.ent.inRow.getD src 0 = 0 ∧
      e.ent.poolFailed = decide (ones4 (setBit s.dev.ent.online src) < s.dev.ent.minSources)) ∧
    (∃ e, leaves (.noiseSourceRetest src false) s e ∧ e.ent.online = s.dev.ent.online ∧ e.ent.inRow.getD src 0 = s.dev.ent.inRow.getD src 0 + 1 ∧
      e.ent.retired = (if 3 ≤ s.dev.ent.inRow.getD src 0 + 1 then setBit s.dev.ent.retired src else s.dev.ent.retired))) ∧
  (∀ s, s.dev.bay.fabric = true → s.dev.ent.seeded = true → leaves .drbgReseedDue s (judgePool { s.dev with ent.reseedDue := true })) ∧
  (∀ s w, w < 2 ^ 32 → hostMay s.dev .pf 0x8008 4 = true → bit w 0 = true →
    leaves (.entReseedWrite w) s (judgePool { s.dev with ent.reseedDue := true })) ∧
  (∀ s k, (ctxOf s.dev k).code = csWaiting → (ctxOf s.dev k).wait = .entropy → leaves (.entropyWaitTimeout k) s (refuse s.dev k stEntropyFail))

/-- Doorbells and queue pairs (04 R88 to R93, 03 R78), on a module that takes the write: a doorbell in range moves its index, one out of range or of a
disabled or unadmitted queue pair is ignored and marks a tenant's DOORBELL_ERR; a legal CFG word enables a queue pair with its indices 0 and phase 1, or
disables it; an illegal one is rejected. -/
def Obligations.DoorbellsAndQueuePairs : Prop :=
  (∀ s fn q idx, (fn = .pf → q = 0) → q < 8 → qpExists s.dev fn q = true → idx < 2 ^ 16 → ∀ p, p = qpOf s.dev fn q →
    (hostMay s.dev fn (qpOffset fn q 0x18) 4 = true →
      (p.enable = true → mayFetch s.dev fn = true → idx < 2 ^ p.sqSize → leaves (.sqTailDoorbell fn q idx) s (setQp s.dev fn q { p with sqTail := idx })) ∧
      (∀ n, fn = .vf n → (p.enable = false ∨ mayFetch s.dev fn = false ∨ 2 ^ p.sqSize ≤ idx) →
        leaves (.sqTailDoorbell fn q idx) s (setQp s.dev fn q { p with doorbellErr := true })) ∧
      (fn = .pf → (p.enable = false ∨ 2 ^ p.sqSize ≤ idx) → leaves (.sqTailDoorbell fn q idx) s s.dev)) ∧
    (hostMay s.dev fn (qpOffset fn q 0x1C) 4 = true →
      (p.enable = true → mayFetch s.dev fn = true → idx < 2 ^ p.cqSize → headPast p idx = false →
        leaves (.cqHeadDoorbell fn q idx) s (setQp s.dev fn q { p with cqHead := idx })) ∧
      (∀ n, fn = .vf n → (p.enable = false ∨ mayFetch s.dev fn = false ∨ 2 ^ p.cqSize ≤ idx ∨ headPast p idx = true) →
        leaves (.cqHeadDoorbell fn q idx) s (setQp s.dev fn q { p with doorbellErr := true })) ∧
      (fn = .pf → (p.enable = false ∨ 2 ^ p.cqSize ≤ idx ∨ headPast p idx = true) → leaves (.cqHeadDoorbell fn q idx) s s.dev))) ∧
  (∀ s n q w, q < 8 → w < 2 ^ 32 → qpExists s.dev (.vf n) q = true → hostMay s.dev (.vf n) (qpOffset (.vf n) q 0x10) 4 = true →
    ∀ p, p = qpOf s.dev (.vf n) q →
    (cfgFault (p.enable || decide (p.inflight ≠ 0)) p w = none → bit w 0 = true →
      leaves (.qpEnable n q w) s (modQp (modQp s.dev (.vf n) q fun p =>
          { p with irqEn := bit w 1, vector := bits w 5 4, sqSize := bits w 11 8, cqSize := bits w 15 12 }) (.vf n) q fun p =>
        if p.enable then p
        else { p with enable := true, sqHead := 0, cqTail := 0, phase := true, sqTail := 0, cqHead := 0, unsignalled := 0, retryHold := false })) ∧
    (cfgFault (p.enable || decide (p.inflight ≠ 0)) p w = none → bit w 0 = false →
      leaves (.qpDisable n q w) s (disableQp (modQp s.dev (.vf n) q fun p =>
          { p with irqEn := bit w 1, vector := bits w 5 4, sqSize := bits w 11 8, cqSize := bits w 15 12 }) (.vf n) q)) ∧
    (cfgFault (p.enable || decide (p.inflight ≠ 0)) p w ≠ none →
      leaves (if bit w 0 then .qpEnable n q w else .qpDisable n q w) s (rejectVf s.dev n))) ∧
  (∀ s w, w < 2 ^ 32 → hostMay s.dev .pf 0x50 4 = true →
    (cfgFault (adminBusy s.dev) s.dev.glb.admin w = none → bit w 0 = true → s.dev.glb.admin.enable = false →
      leaves (.adminQueueEnable w) s { s.dev with glb.admin := { s.dev.glb.admin with
        irqEn := bit w 1, fetchErr := s.dev.glb.admin.fetchErr && !bit w 2, sqSize := bits w 11 8, cqSize := bits w 15 12, enable := true, sqHead := 0,
        cqTail := 0, phase := true, sqTail := 0, cqHead := 0, unsignalled := 0, retryHold := false } }) ∧
    (cfgFault (adminBusy s.dev) s.dev.glb.admin w = none → bit w 0 = true → s.dev.glb.admin.enable = true →
      leaves (.adminQueueEnable w) s { s.dev with glb.admin := { s.dev.glb.admin with
        irqEn := bit w 1, fetchErr := s.dev.glb.admin.fetchErr && !bit w 2, sqSize := bits w 11 8, cqSize := bits w 15 12 } }) ∧
    (cfgFault (adminBusy s.dev) s.dev.glb.admin w = none → bit w 0 = false →
      leaves (.adminQueueDisable w) s { s.dev with
        glb.admin := { s.dev.glb.admin with irqEn := bit w 1, fetchErr := s.dev.glb.admin.fetchErr && !bit w 2, sqSize := bits w 11 8,
                                            cqSize := bits w 15 12, enable := false, retryHold := false }
        host.reads := s.dev.host.reads.filter (fun r => !(r.fn == .pf && r.q == 0)) }) ∧
    (∀ cause, cfgFault (adminBusy s.dev) s.dev.glb.admin w = some cause →
      leaves (if bit w 0 then .adminQueueEnable w else .adminQueueDisable w) s (rejectPf s.dev cause 0x50)))

/-- Fetching (04 R91, R104 to R107, R536): QUEUE_FETCH reads the admin queue pair's next entries where it may fetch, otherwise those of the next tenant
in turn; entries that arrive are charged, stamped and take contexts, a failed read holds its queue pair until the retry timer; a coalesced interrupt
goes out when its time is up. A read holds at most 8 entries, as many as contexts, credit and room for completions allow. -/
def Obligations.FetchingCompletes : Prop :=
  (∀ s, fetchOpen s.dev .pf = true → 0 < fetchCount s.dev .pf 0 → s.dev.act.st ≠ 0x33 → (decideAccess s.dev 5 hostWindow .read).1 = true →
    leaves .queueFetch s { s.dev with
      host.reads := s.dev.host.reads ++ [{ fn := .pf, q := 0, first := s.dev.glb.admin.sqHead, count := fetchCount s.dev .pf 0 }]
      out := s.dev.out ++ [.hostRead .pf (s.dev.glb.admin.sqBase + 128 * s.dev.glb.admin.sqHead) (128 * fetchCount s.dev .pf 0)] }) ∧
  (∀ s, fetchOpen s.dev .pf = true → 0 < fetchCount s.dev .pf 0 → s.dev.act.st = 0x33 →
    leaves .queueFetch s { s.dev with
      host.reads := s.dev.host.reads ++ [{ fn := .pf, q := 0, first := s.dev.glb.admin.sqHead, count := fetchCount s.dev .pf 0 }]
      act.dma := s.dev.act.dma ++
        [(5, .hostRead .pf (s.dev.glb.admin.sqBase + 128 * s.dev.glb.admin.sqHead) (128 * fetchCount s.dev .pf 0))] }) ∧
  (∀ s n q, (fetchOpen s.dev .pf && decide (0 < fetchCount s.dev .pf 0)) = false → (∀ m, (tn s.dev m).commitMarked = false) →
    (tenantOrder s.dev).find? (fun n => (nextQp s.dev n).isSome) = some n → nextQp s.dev n = some q →
    leaves .queueFetch s (modTn { issueFetch s.dev (.vf n) q with host.rrTenant := (n + 1) % 4096 } n fun t => { t with rrNext := q + 1 })) ∧
  (∀ s j r l, s.dev.host.reads[j]? = some r → r.count ≤ l.length →
    leaves (.fetchEntriesArrive j (some l)) s
      ((upToFence (l.take r.count)).foldl (takeEntry r.fn r.q) { s.dev with host.reads := s.dev.host.reads.eraseIdx j })) ∧
  (∀ s j r, s.dev.host.reads[j]? = some r →
    leaves (.fetchEntriesArrive j none) s
      (modQp { s.dev with host.reads := s.dev.host.reads.eraseIdx j } r.fn r.q fun p => { p with fetchErr := true, retryHold := true })) ∧
  (∀ s fn q, (qpOf s.dev fn q).retryHold = true → (∀ n, fn = .vf n → (tn s.dev n).commitMarked = false) →
    ∀ e, e = modQp s.dev fn q (fun p => { p with retryHold := false }) →
    leaves (.fetchRetryTimer fn q) s (if fetchOpen e fn && decide (0 < fetchCount e fn q) then issueFetch e fn q else e)) ∧
  (∀ s n q, ∀ p, p = qpOf s.dev (.vf n) q → p.irqEn = true → p.time ≠ 0 → 0 < p.unsignalled →
    leaves (.irqCoalesceTimeout n q) s (signalVector (setQp s.dev (.vf n) q { p with unsignalled := 0 }) (.vf n) p.vector)) ∧
  (∀ d fn q, fetchCount d fn q ≤ 8 ∧ fetchCount d fn q ≤ contextsFree d fn ∧ fetchCount d fn q ≤ creditFor d fn ∧
    ((qpOf d fn q).enable = false → fetchCount d fn q = 0)) ∧
  (∀ d fn q e, e.length = 128 → ∀ x, x = takeEntry fn q d e →
    x.host.fetchTotal = d.host.fetchTotal + 1 ∧ (qpOf x fn q).inflight = (qpOf d fn q).inflight + 1 ∧
      (qpOf x fn q).sqHead = ((qpOf d fn q).sqHead + 1) % 2 ^ (qpOf d fn q).sqSize ∧
      (∀ n, fn = .vf n → (tn x n).credit = (tn d n).credit - 1 - (eDataLen e / 65536 : Nat)))

/-- Event flags (05 R123, R126 to R128): a post that names a held context and its use number is counted in its flag, and a context that waits for the
flag consumes it, becomes ready and pre-empts where R130 says; a post to a full flag is counted and raises a fault; a stray post is discarded and
counted; a deadline posts flag 31; a context of undefined state met by a post ends under its fault. -/
def Obligations.EventFlagsComplete : Prop :=
  (∀ s k u f, s.dev.bay.fabric = true → f < 32 → ctxHeld (ctxOf s.dev k) = true → (ctxOf s.dev k).useNo = u →
    codeKnown (ctxOf s.dev k).code = true → tabGet 0 (ctxOf s.dev k).flags f < 15 →
    ∀ d, d = modCtx { s.dev with sch.owed := s.dev.sch.owed.erase (k, u) } k (fun c => { c with flags := tabPut 0 c.flags f (tabGet 0 c.flags f + 1) }) →
    (((ctxOf d k).code ≠ csWaiting ∨ (ctxOf d k).wait ≠ .nothing ∨ flagUp (ctxOf d k) = none) → leaves (.eventFlagPost k u f) s d) ∧
    (∀ g, (ctxOf d k).code = csWaiting → (ctxOf d k).wait = .nothing → flagUp (ctxOf d k) = some g →
      leaves (.eventFlagPost k u f) s (preemptAtPost
        (pushReady (modCtx d k fun c => { c with flags := tabPut 0 c.flags g (tabGet 0 c.flags g - 1), mask := 0 }) k)))) ∧
  (∀ s k u f, s.dev.bay.fabric = true → ctxHeld (ctxOf s.dev k) = true → (ctxOf s.dev k).useNo = u → codeKnown (ctxOf s.dev k).code = false →
    leaves (.eventFlagPost k u f) s (badContext { s.dev with sch.owed := s.dev.sch.owed.erase (k, u) } k) ∧
    leaves (.taskWaitTimer k) s (badContext s.dev k)) ∧
  (∀ s k u f, s.dev.bay.fabric = true → f < 32 → ctxHeld (ctxOf s.dev k) = true → (ctxOf s.dev k).useNo = u →
    codeKnown (ctxOf s.dev k).code = true → 15 ≤ tabGet 0 (ctxOf s.dev k).flags f →
    leaves (.eventFlagPost k u f) s
      (raiseFault { scope := 0, cause := 2, subsystem := 3, unit := 0xFF, object := k, detail := 0, inHandler := none }
        { s.dev with sch.owed := s.dev.sch.owed.erase (k, u), sch.flagOverrun := min (s.dev.sch.flagOverrun + 1) (2 ^ 32 - 1) })) ∧
  (∀ s k u f, s.dev.bay.fabric = true → (ctxHeld (ctxOf s.dev k) = false ∨ (ctxOf s.dev k).useNo ≠ u) →
    leaves (.eventFlagPost k u f) s
      { s.dev with sch.owed := s.dev.sch.owed.erase (k, u), sch.stray := min (s.dev.sch.stray + 1) (2 ^ 32 - 1) }) ∧
  (∀ s k, (ctxOf s.dev k).code = csWaiting → (ctxOf s.dev k).wait = .nothing →
    leaves (.taskWaitTimer k) s (takePost s.dev k 31)) ∧
  (∀ d k c, 0 < c.level → (pushReady (setCtx d k c) k).sch.ready = modifyAt d.sch.ready c.level fun l => l ++ [k])

/-- Dispatch and the run limit (05 R129, R130, R132; 17 R480): the head of the lowest list that may take a core runs, on a free core or in the place of
the task it pre-empts, which joins the head of its list; the task that overruns its limit leaves its core and a command-scope fault is raised. A
decision takes the head of a ready list, at the lowest level whose head may take a core: a free core its level allows, or that of a running task with
the greatest level above its own. -/
def Obligations.DispatchCompletes : Prop :=
  (∀ s k l, s.dev.bay.fabric = true → s.dev.glb.failStop = false → s.dev.sch.toRun = k :: l → ∀ d, d = { s.dev with sch.toRun := l } →
    leaves (.taskDispatch .stays) s (markPassed d k) ∧ (∀ i, leaves (.taskDispatch (.ends i)) s (runTask d k i)) ∧
    (∀ mask begun, leaves (.taskDispatch (.yields mask begun)) s (yieldTask d k mask begun))) ∧
  (∀ d k j, decideDispatch d = some (k, j, true) → d.sch.pending = false → d.glb.failStop = false → (ctxOf d k).code = csReady →
    ∃ v, (d.sch.cores.getD j {}).running = some v ∧
      preemptAtPost d = { onCore (preempt d j) k j with sch.toRun := (onCore (preempt d j) k j).sch.toRun ++ [k] }) ∧
  (∀ s k j, s.dev.bay.fabric = true → s.dev.glb.failStop = false → s.dev.sch.toRun = [] → s.dev.sch.pending = false →
    decideDispatch s.dev = some (k, j, false) → (ctxOf s.dev k).code = csReady →
    leaves (.taskDispatch .stays) s (markPassed (onCore s.dev k j) k) ∧
    (∀ i, leaves (.taskDispatch (.ends i)) s (runTask (onCore s.dev k j) k i)) ∧
    (∀ mask begun, leaves (.taskDispatch (.yields mask begun)) s (yieldTask (onCore s.dev k j) k mask begun))) ∧
  (∀ s k j v, s.dev.bay.fabric = true → s.dev.glb.failStop = false → s.dev.sch.toRun = [] → s.dev.sch.pending = false →
    decideDispatch s.dev = some (k, j, true) → (s.dev.sch.cores.getD j {}).running = some v → (ctxOf s.dev k).code = csReady →
    leaves (.taskDispatch .stays) s (markPassed (onCore (preempt s.dev j) k j) k) ∧
    (∀ i, leaves (.taskDispatch (.ends i)) s (runTask (onCore (preempt s.dev j) k j) k i)) ∧
    (∀ mask begun, leaves (.taskDispatch (.yields mask begun)) s (yieldTask (onCore (preempt s.dev j) k j) k mask begun))) ∧
  (∀ d k j, j < d.sch.cores.length →
    (onCore d k j).sch.cores.getD j {} = { d.sch.cores.getD j {} with running := some k, order := d.sch.dispatchOrder + 1 } ∧
    (onCore d k j).sch.dispatchTotal = (d.sch.dispatchTotal + 1) % 2 ^ 64 ∧ (ctxOf (onCore d k j) k).code = csRunning) ∧
  (∀ s core k, (s.dev.sch.cores.getD core {}).running = some k →
    leaves (.runLimitExpiry core) s
      (raiseFault { scope := 0, cause := 1, subsystem := 3, unit := core, object := k, detail := 0, inHandler := none }
        (modCtx (leaveCore { s.dev with sch.runLimitHits := min (s.dev.sch.runLimitHits + 1) (2 ^ 32 - 1) } k) k fun c =>
          { c with code := csWaiting, wait := .nothing, mask := 0 }))) ∧
  (∀ d k j pre, decideDispatch d = some (k, j, pre) →
    ∃ level, level < 8 ∧ (d.sch.ready.getD level []).head? = some k ∧
      (∀ m, m < level → (d.sch.ready.getD m []) = [] ∨ ((mayTakeFree d m = false ∨ freeCore d = none) ∧ victimCore d m = none)) ∧
      (pre = false → (d.sch.cores.getD j {}).online = true ∧ (d.sch.cores.getD j {}).running = none ∧
        (level < 2 ∨ tenantCores d < onlineCores d - d.sch.mgmtReserve)) ∧
      (pre = true → ∃ v, (d.sch.cores.getD j {}).online = true ∧ (d.sch.cores.getD j {}).running = some v ∧ level < (ctxOf d v).level ∧
        ∀ w c, c ∈ d.sch.cores → c.online = true → c.running = some w → (ctxOf d w).level ≤ (ctxOf d v).level))

/-- Resets of functions (03 R67 to R73, R82 to R85): FLR, the return from D3hot and VF Enable reset the function and its tenants, VF Enable set makes
the VFs exist and opens their windows, Bus Master Enable lets held writes and waiting requests go on, PERST_N or a lost link resets the host interface.
-/
def Obligations.ResetsComplete : Prop :=
  (∀ s n, vfExists s.dev n = true → s.dev.glb.failStop = false →
    leaves (.flrVf n) s (modTn (resetTenantFn s.dev n) n fun t => { t with bme := false, cfg := {} }) ∧
    leaves (.d3hotReturn (.vf n)) s (modTn (resetTenantFn s.dev n) n fun t => { t with bme := false, cfg := {} })) ∧
  (∀ s, s.dev.host.linkUp = true → s.dev.glb.failStop = false →
    leaves .flrPf s (dropVfs { resetPf s.dev with host.pfBme := false, host.numVFs := 0, host.pfCfg := {} }) ∧
    leaves (.d3hotReturn .pf) s (dropVfs { resetPf s.dev with host.pfBme := false, host.numVFs := 0, host.pfCfg := {} })) ∧
  (∀ s, s.dev.host.linkUp = true → s.dev.host.vfEnable = true → leaves .vfEnableClear s (dropVfs (resetTenants s.dev))) ∧
  (∀ s v, s.dev.host.linkUp = true →
    leaves (.vfEnableSet v) s (openVfWindows { s.dev with host.vfEnable := true, host.numVFs := v })) ∧
  (∀ s fn, fnExists s.dev fn = true → leaves (.busMasterEnableClear fn) s (setBme s.dev fn false)) ∧
  (∀ s fn, fnExists s.dev fn = true → ∀ d1 d2 d3, d1 = setBme s.dev fn true →
    d2 = (ctxsWhere d1 fun c => writesHeld c && c.origin.isNone && c.fn == fn).foldl writeHeld d1 →
    d3 = wakeWhere (if fn = .pf then takePolicies d2 else d2) (fun c => c.origin.isNone && c.fn == fn && c.wait == .hostMemory) →
    leaves (.busMasterEnableSet fn) s ((List.range (match fn with | .pf => 64 | .vf _ => 4)).foldl (fun d v => releaseVector d fn v) d3)) ∧
  (∀ s perst, s.dev.bay.fabric = true → s.dev.host.linkUp = true →
    leaves (.perstOrLinkDown perst) s (hostReset { s.dev with bay.perst := s.dev.bay.perst || perst })) ∧
  (∀ s, leaves .perstRelease s { s.dev with bay.perst := false, host.linkUp := s.dev.host.linkUp || s.dev.bay.fabric })

/-- What a reset of a tenant does (03 R82 to R84): its generation moves on to one that no command in flight bears, its RESET_COUNT counts, its registers
return to their reset values, its lock request and grant end, its fetches bring nothing; its policy and its VFCFG entry stay. The new generation is
never 0, never the one before it, and none of the function's commands in flight bears it, as long as fewer commands than generations are in flight (03
R84). -/
def Obligations.ResetTenantEffect : Prop :=
  (∀ d n, tabWf {} d.tenants = true → ∀ t, t = tn (resetTenantFn d n) n →
      t.gen = newGen d (.vf n) ∧ t.resetCount = ((tn d n).resetCount + 1) % 256 ∧ t.gen ≠ 0 ∧
      t.qps = [] ∧ t.msix = [] ∧ t.event = 0 ∧ t.eventEn = 0 ∧ t.lockKey = 0 ∧ t.lockReq = false ∧ t.grant = none ∧
      t.enable = (tn d n).enable ∧ t.policySet = (tn d n).policySet ∧ t.maxPrio = (tn d n).maxPrio ∧ t.contextCap = (tn d n).contextCap ∧
      t.classMask = (tn d n).classMask ∧ t.groupMask = (tn d n).groupMask ∧
      n ∉ (resetTenantFn d n).eng.lockQueue ∧ (∀ r ∈ (resetTenantFn d n).host.reads, r.fn ≠ .vf n) ∧
      (resetTenantFn d n).keys = d.keys ∧ (d.vmp.st ≠ 0x33 → (resetTenantFn d n).vmp = d.vmp) ∧ (resetTenantFn d n).otp = d.otp) ∧
  (∀ d fn, 1 ≤ genOf d fn → genOf d fn < 2 ^ 16 → (stampsOf d fn).length ≤ 4096 →
      1 ≤ newGen d fn ∧ newGen d fn < 2 ^ 16 ∧ newGen d fn ∉ stampsOf d fn ∧ newGen d fn ≠ genOf d fn)

/-- Pace, profiles and stalls (01 R23 to R33; 03 R75, R78): a 32-bit read of the lower half of the time latches the upper half; a profile is set and
slews; a window closes with the paces of its laps, the lowest as PACE, and refills credit; a stalled interface raises its fault, and one closed by design
none (the scope and subsystem of crossings 6 to 10 are the model's choice, log entry 90); ATTACH_ACK clears its event bits and the attention. -/
def Obligations.PaceAndProfileComplete : Prop :=
  (∀ s fn, s.dev.bay.fabric = true → s.dev.act.st = 0x0F → s.dev.act.waiting = [] → hostReaches s.dev fn (timeOffset fn) = true →
    deniedPiece s.dev 4 (imageAddr fn (timeOffset fn)) 4 .read = none →
    leaves (.glbTimeLowRead fn) s (emit (latchTime fn (timeOffset fn) 4 s.dev) (.readData fn (now s.dev % 2 ^ 32)))) ∧
  (∀ s w, w < 2 ^ 32 → hostMay s.dev .pf 0x1C 4 = true →
    (w % 4 = 0 → leaves (.profileWrite w) s s.dev) ∧
    (w % 4 ≠ 0 → s.dev.bay.dieTemp ≤ 1680 → leaves (.profileWrite w) s
      { s.dev with glb.profile := w % 4, glb.thermalFallback := false, glb.active := w % 4, glb.slewing := s.dev.glb.slewing || s.dev.glb.active != w % 4,
                   glb.slewInWindow := s.dev.glb.slewInWindow || s.dev.glb.active != w % 4 }) ∧
    (w % 4 ≠ 0 → 1680 < s.dev.bay.dieTemp →
      ∃ e, leaves (.profileWrite w) s e ∧ e.glb.profile = w % 4 ∧ e.glb.active = 1 ∧ e.glb.thermalFallback = true ∧ bit e.glb.event 3 = true)) ∧
  (∀ s, leaves .profileSlewDone s { s.dev with glb.slewing := false }) ∧
  (∀ s laps die hubs, s.dev.bay.fabric = true → die ≤ 1680 →
    leaves (.paceWindowClose laps die hubs) s (paceRange (creditRefill (closeWindow laps die hubs s.dev))) ∧
    (closeWindow laps die hubs s.dev).glb.refs = laps.map (· / 1000) ∧
    (closeWindow laps die hubs s.dev).glb.pace = lowest (laps.map (· / 1000)) ∧
    (closeWindow laps die hubs s.dev).glb.windowSeq = (s.dev.glb.windowSeq + 1) % 256) ∧
  (∀ s laps die hubs, s.dev.bay.fabric = true → 1680 < die →
    ∃ e, leaves (.paceWindowClose laps die hubs) s e ∧ e.bay.dieTemp = die ∧
      ((paceRange (creditRefill (closeWindow laps die hubs s.dev))).glb.thermalFallback = false →
        e.glb.thermalFallback = true ∧ e.glb.active = 1)) ∧
  (∀ s unit, s.dev.bay.fabric = true →
    leaves (.interfaceStall 0 unit) s
      (raiseFault { scope := 3, cause := 5, subsystem := 1, unit := 0xFF, object := 1, detail := 0, inHandler := none } s.dev) ∧
    leaves (.interfaceStall 1 unit) s
      (raiseFault { scope := 3, cause := 5, subsystem := 4, unit := 0xFF, object := 4, detail := 0, inHandler := none } s.dev) ∧
    (s.dev.ring.east.lanes ≠ 0 → leaves (.interfaceStall 2 unit) s
      (raiseFault { scope := 2, cause := 5, subsystem := 15, unit := 0, object := memberNo s.dev, detail := 0, inHandler := none } s.dev)) ∧
    (s.dev.ring.west.lanes ≠ 0 → leaves (.interfaceStall 3 unit) s
      (raiseFault { scope := 2, cause := 5, subsystem := 15, unit := 1, object := memberNo s.dev, detail := 0, inHandler := none } s.dev)) ∧
    leaves (.interfaceStall 4 unit) s (channelDown unit s.dev) ∧
    ((s.dev.ring.east.lanes = 0 → leaves (.interfaceStall 2 unit) s s.dev) ∧ (s.dev.ring.west.lanes = 0 → leaves (.interfaceStall 3 unit) s s.dev) ∧
      ((cardOf s.dev unit).exchange = none → leaves (.interfaceStall 5 unit) s s.dev) ∧
      (s.dev.lcd.st ≠ 0x0F → s.dev.lcd.st ≠ 0x33 → leaves (.interfaceStall 8 unit) s s.dev)) ∧
    (∀ j sub, (j, sub) ∈ [(6, 12), (7, 16), (9, 11), (10, 12)] ∨ ((s.dev.lcd.st = 0x0F ∨ s.dev.lcd.st = 0x33) ∧ j = 8 ∧ sub = 11) →
      leaves (.interfaceStall j unit) s
        (raiseFault { scope := 3, cause := 5, subsystem := sub, unit := 0xFF, object := sub, detail := 0, inHandler := none } s.dev)) ∧
    (∀ k, (cardOf s.dev unit).exchange = some k → leaves (.interfaceStall 5 unit) s
      (raiseFault { scope := 0, cause := 5, subsystem := 13, unit, object := k, detail := 0, inHandler := none } s.dev))) ∧
  (∀ s w, w < 2 ^ 32 → hostMay s.dev .pf 0x30 4 = true →
    leaves (.attachAck w) s { s.dev with glb.event := clearBits s.dev.glb.event w, bay.attachAttention := s.dev.bay.attachAttention && !bit w 2 })

/-- One refill of fetch credit (04 R106): a tenant that takes part gets REFILL, its share of the budget of the window by weight and at least 1, and its
credit never stands above REFILL times BURST after it. While PACE reads 0 no credit is refilled. -/
def Obligations.CreditRefill : Prop :=
  (∀ budget weight total, refillOf budget weight total = max 1 (budget * weight / total)) ∧
  (∀ budget total burst d n, ∀ t, t = tn (refillTenant budget total burst d n) n → ∀ r, r = max 1 (budget * (tn d n).weight / total) →
    t.refill = r ∧ t.credit = min ((tn d n).credit + r) ((r * burst : Nat) : Int)) ∧
  (∀ d n, tabWf {} d.tenants = true → d.glb.pace = 0 → (tn (creditRefill d) n).credit = (tn d n).credit)

/-- Commits of shadowed fields and register writes (05 R141 to R144; 03 R75, R80): GO sets PENDING, and on an idle block the values take effect at once;
at its boundary a pending commit takes effect and COUNT counts it; a commit of VFCFG waits for each tenant's fetch decision; an access goes to its
register where the access table permits it, is counted, logged and reported where it does not, and waits while the table is CLOSED. -/
def Obligations.CommitsComplete : Prop :=
  (∀ s block w, 2 ≤ block → block ≤ 8 → w < 2 ^ 32 → hostMay s.dev .pf (0x1000 * block + 0xFF8) 4 = true →
    (bit w 0 = true → blockPending block s.dev = false →
      leaves (.commitGo block w) s (if blockIdle block s.dev then applyBlock block (setPending block s.dev) else setPending block s.dev)) ∧
    (bit w 0 = false ∨ blockPending block s.dev = true → leaves (.commitGo block w) s s.dev)) ∧
  (∀ s w, w < 2 ^ 32 → hostMay s.dev .pf 0x60 4 = true →
    (s.dev.glb.vfCommitPending = true → leaves (.vfcfgCommitWrite w) s s.dev) ∧
    (s.dev.glb.vfCommitPending = false →
      leaves (.vfcfgCommitWrite w) s (vfcfgPending (((s.dev.tenants.filter fun p => dirty p.2 && (bit w 16 || p.1 == w % 4096)).map Prod.fst).foldl
        (fun d n => if tenantIdle d n then commitTenant d n else modTn d n fun t => { t with commitMarked := true }) s.dev)))) ∧
  (∀ s block, s.dev.bay.fabric = true → blockPending block s.dev = true → leaves (.commitApply block) s (applyBlock block s.dev)) ∧
  (∀ d, (d.sch.pending = true → (applyBlock 2 d).sch.mgmtReserve = d.sch.mgmtShadow ∧ (applyBlock 2 d).sch.pending = false ∧
      (applyBlock 2 d).sch.commits = (d.sch.commits + 1) % 256) ∧
    (d.ring.pending = true → (applyBlock 5 d).ring.replRate = d.ring.replShadow ∧ (applyBlock 5 d).ring.pending = false) ∧
    (d.vmp.pending = true → (applyBlock 6 d).vmp.frogPeriod = d.vmp.frogPeriodShadow ∧ (applyBlock 6 d).vmp.pending = false) ∧
    (d.ent.pending = true → (applyBlock 8 d).ent.minSources = d.ent.minShadow ∧ (applyBlock 8 d).ent.pending = false)) ∧
  (∀ s fn off bytes v, hostMay s.dev fn off bytes = true →
    leaves (.registerWrite (.host fn true off bytes v true)) s (writeImage fn off bytes v s.dev)) ∧
  (∀ s a, s.dev.bay.fabric = true → s.dev.act.st = 0x0F → s.dev.act.waiting = [] →
    (∀ fn off bytes v, a = .host fn false off bytes v true → hostReaches s.dev fn off = true → deniedPiece s.dev 4 (imageAddr fn off) bytes .read = none →
      leaves (.registerWrite a) s (emit (readImage fn off bytes s.dev).2 (.readData fn (readImage fn off bytes s.dev).1))) ∧
    (∀ fn write off bytes v en p, a = .host fn write off bytes v en → hostReaches s.dev fn off = true →
      deniedPiece s.dev 4 (imageAddr fn off) bytes (if write then .write else .read) = some p →
      ∃ e, e = denial s.dev 4 p.1 (if write then .write else .read) fn p.2 ∧ e.act.denyCount = s.dev.act.denyCount + 1 ∧
        leaves (.registerWrite a) s (if write then e else emit e (.readData fn 0))) ∧
    (∀ cls k addr bytes kind v, a = .internal cls k addr bytes kind v → initiatorUp s.dev cls k = true →
      (deniedPiece s.dev cls addr bytes kind = none → leaves (.registerWrite a) s (performInternal cls k addr bytes kind v s.dev)) ∧
      (∀ p, deniedPiece s.dev cls addr bytes kind = some p → cls ≠ 11 →
        leaves (.registerWrite a) s (contain (denial s.dev cls p.1 kind (fnOfClass s.dev cls k) p.2) cls k p.1)))) ∧
  (∀ s a, s.dev.bay.fabric = true → s.dev.act.st = 0x33 → (∀ fn write off v, a ≠ .config fn write off v) →
    leaves (.registerWrite a) s { s.dev with act.waiting := s.dev.act.waiting ++ [a] }) ∧
  (∀ s fn write off v, leaves (.registerWrite (.config fn write off v)) s (configAccess fn write off v s.dev)) ∧
  (∀ s, s.dev.bay.fabric = true → s.dev.host.linkUp = true →
    leaves (.registerWrite (.config .pf false 0 0)) s (emit s.dev (.readData .pf 0x40961F4C)))

/-- Lock mode (08 R248 to R253, R538): a request joins the queue, is rejected without LOCK_ALLOWED or while one is held; a release gives the lane back;
a free lane is given to the oldest request whose key passes its checks, and the key's version is loaded; a request that fails its checks is refused;
after 100 ms a grant ends. -/
def Obligations.LockModeCompletes : Prop :=
  (∀ s n, hostMay s.dev (.vf n) 0x28 4 = true → ∀ t, t = tn s.dev n →
    (t.lockAllowed = true → t.lockReq = false → t.grant = none →
      leaves (.lockRequest n) s (modTn { s.dev with eng.lockQueue := s.dev.eng.lockQueue ++ [n] } n fun t =>
        { t with lockReq := true, forced := false, refused := false })) ∧
    ((t.lockAllowed = false ∨ t.lockReq = true ∨ t.grant.isSome = true) →
      leaves (.lockRequest n) s (modTn s.dev n fun t => { t with event := setBit t.event 4 })) ∧
    (t.grant = none → leaves (.lockRelease n) s
      (modTn { s.dev with eng.lockQueue := s.dev.eng.lockQueue.filter (· != n) } n fun t => { t with lockReq := false })) ∧
    (t.grant.isSome = true → leaves (.lockRelease n) s (writeLockRelease n s.dev))) ∧
  (∀ s n l lane, s.dev.eng.lockQueue = n :: l → s.dev.bay.fabric = true → s.dev.glb.failStop = false →
    laneFree (s.dev.eng.lanes.getD lane { online := false }) = true → lockedLanes s.dev < 32 →
    ((s.dev.glb.locked = true ∨ draining s.dev = true ∨ lockNameOk s.dev n (tn s.dev n).lockKey = false) →
      leaves (.lockGrant lane) s (refuseLock s.dev n)) ∧
    (s.dev.glb.locked = false → draining s.dev = false → lockNameOk s.dev n (tn s.dev n).lockKey = true → holds s.dev (tn s.dev n).lockKey = true →
      underRepair s.dev false (tn s.dev n).lockKey = false → vmpHeld s.dev = false →
      match lockRecord s.dev (recsOfKey s.dev (keyOf (tn s.dev n).lockKey)) (tn s.dev n).lockKey with
      | none => leaves (.lockGrant lane) s (refuseLock s.dev n)
      | some r => ∃ e, leaves (.lockGrant lane) s e ∧
          (tn e n).grant = some { lane, handle := r.handle, grantedAt := now s.dev, recs := [] } ∧ bit (tn e n).event 0 = true ∧ (tn e n).lockReq = false ∧
          n ∉ e.eng.lockQueue ∧ (lane < s.dev.eng.lanes.length → (e.eng.lanes.getD lane {}).lockedBy = some n ∧
            (e.eng.lanes.getD lane {}).key = some r.handle) ∧ e.keys = s.dev.keys ∧ e.vmp = s.dev.vmp)) ∧
  (∀ s n, leaves (.lockExpiry n) s (forceRelease s.dev n)) ∧
  (∀ d n g, tabWf {} d.tenants = true → (tn d n).grant = some g → (tn (forceRelease d n) n).grant = none ∧ (tn (forceRelease d n) n).forced = true ∧
    bit (tn (forceRelease d n) n).event 1 = true)

/-- The access table's own commands (13 R388 to R391): a task's read of ACT_CLAIM takes a free claim; GO by its holder closes the table where the staged
entries are sound and is rejected where they are not; ABANDON frees the claim and drops what was staged; the drain's end puts the staged entries in
force in one step; its time limit abandons the update and raises a stall. -/
def Obligations.AccessTableCompletes : Prop :=
  (∀ s k cls, cls = (if (ctxOf s.dev k).level ≤ 1 then 2 else 3) → (ctxOf s.dev k).code = csRunning → s.dev.bay.fabric = true → s.dev.act.st = 0x0F →
    s.dev.act.waiting = [] →
    (deniedPiece s.dev cls 0x44000004 4 .read = none → s.dev.act.claim = none →
      leaves (.actClaimRead k) s (emit { s.dev with act.claim := some k } (.internalData cls (1 + 2 ^ 8 * k)))) ∧
    (∀ h, deniedPiece s.dev cls 0x44000004 4 .read = none → s.dev.act.claim = some h →
      leaves (.actClaimRead k) s (emit s.dev (.internalData cls (2 ^ 8 * h)))) ∧
    (deniedPiece s.dev cls 0x44000008 4 .write = none → s.dev.act.claim = some k →
      (stageOk s.dev = true → leaves (.actUpdateGo k) s { s.dev with act.st := 0x33 }) ∧
      (stageOk s.dev = false → leaves (.actUpdateGo k) s { s.dev with act.claim := none, act.stage := s.dev.act.entries, act.result := 2 }) ∧
      leaves (.actUpdateAbandon k) s { s.dev with act.claim := none, act.stage := s.dev.act.entries })) ∧
  (∀ s, s.dev.act.st = 0x33 →
    (s.dev.act.waiting = [] → s.dev.act.dma = [] →
      leaves .actDrainDone s { s.dev with act.entries := s.dev.act.stage, act.result := 1, act.claim := none, act.st := 0x0F }) ∧
    leaves .actDrainDone s (reopen { s.dev with act.entries := s.dev.act.stage, act.result := 1, act.claim := none }) ∧
    ∃ e, leaves .actDrainTimeout s
        (raiseFault { scope := 3, cause := 5, subsystem := 10, unit := 0xFF, object := 10, detail := 0, inHandler := none } (reopen e)) ∧
      e.act.result = 3 ∧ e.act.claim = none ∧ e.act.stage = s.dev.act.entries ∧ e.act.entries = s.dev.act.entries)

/-- The check of one access (13 R381 to R385, R392): an access is permitted exactly where the lowest-numbered valid entry that covers its first byte has
the class in its mask and the kind among its permissions, a PROTECTED entry shutting out HOST, QM_DMA, CVU_DMA and DEBUG; a STOPPED table permits HOST
reads of the GLB range and the sentinel's of entries 5 and 6 alone. -/
def Obligations.AccessDecision : Prop :=
  (∀ d cls addr kind, d.act.st ≠ 0xF0 → (d.act.entries.all fun p => !covers p.2 addr) = true → (decideAccess d cls addr kind).1 = false) ∧
  (∀ d cls addr kind no e l r, d.act.st ≠ 0xF0 → d.act.entries = l ++ (no, e) :: r → (l.all fun p => !covers p.2 addr) = true → covers e addr = true →
    (decideAccess d cls addr kind).1 = entryPermits no e cls kind) ∧
  (∀ no e cls kind, entryPermits no e cls kind = true → bit e.mask cls = true ∧
    (e.prot = true → cls ≠ 4 ∧ cls ≠ 5 ∧ cls ≠ 6 ∧ cls ≠ 11) ∧ (match kind with | .read => e.r | .write => e.w | .fetch => e.x) = true) ∧
  (∀ no e cls kind, 14 ≤ no → entryPermits no e cls kind = (bit e.mask cls && !(e.prot && (cls == 4 || cls == 5 || cls == 6 || cls == 11)) &&
    (match kind with | .read => e.r | .write => e.w | .fetch => e.x))) ∧
  (∀ d cls addr kind, d.act.st = 0xF0 → cls ≠ 10 →
    ((decideAccess d cls addr kind).1 = true ↔ cls = 4 ∧ kind = .read ∧ 0x10000000 ≤ addr ∧ addr ≤ 0x10000FFF))

/-- The sideband (02 R40, R41): a read-word is answered with SB_STATUS at the sled's own address, 0x60 plus its position; an alert response releases the
alert line, a write does nothing; a change of the straps after reset is ignored but for its log entry, which waits for the next start where the log
does not run (the model's choice, log entry 86). -/
def Obligations.SidebandCompletes : Prop :=
  (∀ s : State, s.dev.bay.auxLogic = true →
    leaves .smbusStatusRead s { s.dev with out := s.dev.out ++ [.smbusWord (0x60 + s.dev.bay.bayPos) (sbStatus s.dev)] }) ∧
  (∀ s, leaves .smbusAlertResponse s { s.dev with bay.smbAlert := false }) ∧
  (∀ s code value, leaves (.smbusWrite code value) s s.dev) ∧
  (∀ s straps, s.dev.bay.auxLogic = true → straps ≠ s.dev.bay.straps →
    (logUp s.dev = false → leaves (.bayIdChange straps) s
      { s.dev with bay.straps := straps, bay.strapSeen := s.dev.bay.strapSeen ++ [(s.dev.bay.straps, straps)] }) ∧
    (logUp s.dev = true →
      leaves (.bayIdChange straps) s (logAttach { s.dev with bay.straps := straps } 7 0 (natLe 1 s.dev.bay.straps ++ natLe 1 straps))))

/-- The sled comes up (02 R40 to R51, R57, R58, R61; 18 R499): auxiliary power clears SB_STATUS; the auxiliary logic samples the straps and the seat and
reads the bay's and the cell's identity; the keeper check and the ramp of P12V let the main loads connect once both are done; start-up completes. -/
def Obligations.PowerUpCompletes : Prop :=
  (∀ s, s.dev.bay.auxPower = false → leaves .auxPowerUp s { s.dev with
    bay.auxPower := true, bay.checkDone := false, bay.keeperState := 0, bay.unsuitable := false, bay.cellState := 0, bay.removal := .idle
    bay.removalPending := false, bay.safeToRemove := false, bay.drainKind := 0, bay.attachAttention := false, bay.bayPos := 0
    bay.smbAlert := false, keeper.auxFresh := true, keeper.onHoldover := false }) ∧
  (∀ s straps seat record cell, s.dev.bay.auxPower = true → s.dev.bay.auxLogic = false →
    ∃ e, leaves (.auxLogicResetRelease straps seat record cell) s { s.dev with bay := e } ∧ e.auxLogic = true ∧ e.straps = straps ∧ e.bayPos = straps ∧
      e.seatHigh = seat ∧ e.loopsMasked = seat ∧ e.cell = cell ∧ e.record = record ∧ e.unsuitable = !bayRecordOk record ∧
      e.ringBan = bayRingBan record straps ∧ e.checkDone = s.dev.bay.checkDone) ∧
  (∀ r, bayRecordOk (some r) = true → r.length = 32 ∧ r.take 4 = ascii [0x49, 0x57, 0x42, 0x59] ∧ field r 4 1 = 1 ∧ 144 ≤ field r 8 2) ∧
  (∀ s boot, s.dev.bay.auxLogic = true → s.dev.bay.checkDone = false → (s.dev.keeper.answers && !s.dev.keeper.zeroised && (keeperKey s.dev).isNone) = false →
    leaves (.keeperCheckDone boot) s (connectMain { s.dev with
      bay.keeperState := keeperFinding s.dev, bay.cellState := cellStateOf s.dev.bay.cell, bay.checkDone := true } boot)) ∧
  (∀ s boot, s.dev.bay.auxLogic = true → s.dev.bay.checkDone = false → s.dev.keeper.answers = true → s.dev.keeper.zeroised = false → keeperKey s.dev = none →
    ∃ e, leaves (.keeperCheckDone boot) s (connectMain e boot) ∧ e.bay.checkDone = true ∧ e.keeper.zeroised = true ∧ e.bay.keeperState = 2) ∧
  (∀ s, s.dev.bay.auxLogic = true → s.dev.bay.p12v = false → leaves .mainPowerArrival s { s.dev with bay.p12v := true, bay.ramped := false }) ∧
  (∀ s boot, s.dev.bay.p12v = true → s.dev.bay.ramped = false → leaves (.p12vRampDone boot) s (connectMain { s.dev with bay.ramped := true } boot)) ∧
  (∀ d boot, (d.bay.p12v && d.bay.ramped && d.bay.checkDone && !d.bay.unsuitable && !d.bay.mainLoads) = false → connectMain d boot = d) ∧
  (∀ d boot, d.bay.p12v = true → d.bay.ramped = true → d.bay.checkDone = true → d.bay.unsuitable = false → d.bay.mainLoads = false →
    connectMain d boot = logPower (fabricStart { d with bay.mainLoads := true } boot) 2 []) ∧
  (∀ s, s.dev.bay.fabric = true → s.dev.glb.starting = true → s.dev.glb.fwRunning = true →
    leaves .startupComplete s { s.dev with glb.starting := false, glb.event := setBit s.dev.glb.event 5 })

/-- The sled goes down or is removed (02 R43 to R54, R59; 18 R501): what a loss of main or of auxiliary power, SEAT_N high, a press of the attention
switch, the end of the abort window, the end of the drain and the time limit of the leave do. -/
def Obligations.RemovalCompletes : Prop :=
  (∀ s, s.dev.bay.p12v = true → s.dev.bay.fabric = false →
    leaves .mainPowerLoss s { coldState (cutFuses s.dev) with bay.p12v := false, bay.ramped := false, bay.mainLoads := false, bay.fabric := false,
                                                              keeper.timeUs := now s.dev, keeper.usSinceTick := 0 }) ∧
  (∀ s, s.dev.bay.p12v = true → s.dev.bay.fabric = true →
    ∃ e, leaves .mainPowerLoss s e ∧ e.bay.p12v = false ∧ e.bay.mainLoads = false ∧ e.bay.fabric = false ∧ e.sch = resetSch ∧ e.vmp.st = 0x0F ∧
      e.keys.root = s.dev.keys.root ∧ e.glb.fwRunning = false) ∧
  (∀ s, s.dev.bay.auxPower = true →
    ∃ e, leaves .auxPowerLoss s e ∧ e.bay.auxPower = false ∧ e.bay.auxLogic = false ∧ e.bay.checkDone = false ∧
      (s.dev.bay.cell.seated = false → e.keeper.onHoldover = true)) ∧
  (∀ s, s.dev.bay.auxLogic = true → s.dev.bay.seatHigh = false → s.dev.bay.p12v = false →
    leaves .seatNHigh s (keeperRecord { s.dev with bay.seatHigh := true, bay.loopsMasked := true } 5 0xFF 0)) ∧
  (∀ s, s.dev.bay.auxLogic = true → s.dev.bay.seatHigh = false → s.dev.bay.p12v = true →
    leaves .seatNHigh s (leaveRing (keeperRecord { s.dev with bay.seatHigh := true, bay.loopsMasked := true } 5 0xFF 0))) ∧
  (∀ s, s.dev.bay.attnFitted = true → s.dev.bay.fabric = true → s.dev.glb.failStop = false → s.dev.bay.removal = .idle →
    (s.dev.bay.removalPending = false → leaves .attentionPress s
      { logRemoval { s.dev with bay.removalPending := true, glb.event := setBit s.dev.glb.event 0 } 0 with bay.removal := .abortWindow })) ∧
  (∀ s, s.dev.bay.attnFitted = true → s.dev.bay.fabric = true → s.dev.glb.failStop = false → s.dev.bay.removal = .abortWindow →
    s.dev.bay.removalPending = true → leaves .attentionPress s
      { logRemoval { s.dev with bay.removalPending := false, glb.event := setBit s.dev.glb.event 0 } 1 with bay.removal := .idle }) ∧
  (∀ s, s.dev.bay.attnFitted = true → s.dev.bay.fabric = true → s.dev.glb.failStop = false → draining s.dev = true → s.dev.bay.drainKind ≠ 2 →
    leaves .attentionPress s (logRemoval s.dev 0)) ∧
  (∀ s, s.dev.bay.attnFitted = false ∨ s.dev.bay.fabric = false ∨ s.dev.glb.failStop = true → leaves .attentionPress s s.dev) ∧
  (∀ s, s.dev.bay.removal = .abortWindow ∨ (s.dev.bay.removalPending = true ∧ draining s.dev = true ∧ s.dev.bay.drainKind = 2) →
    leaves .removalAbortWindowEnd s (startDrain s.dev 0)) ∧
  (∀ s, s.dev.bay.removal = .draining → drainDone s.dev = true →
    (s.dev.ring.st = 0x0F → s.dev.bay.ringJoin = false → leaves .removalDrainDone s (markSafe s.dev)) ∧
    (s.dev.ring.st ≠ 0x0F ∨ s.dev.bay.ringJoin = true → leaves .removalDrainDone s (startLeave { s.dev with bay.removal := .leaving }))) ∧
  (∀ s, s.dev.ring.st = 0x96 → leaves .ringLeaveTimeout s (leaveRing (logRing s.dev 6 []))) ∧
  (∀ d kind, (startDrain d kind).bay.removal = .draining ∧ (startDrain d kind).bay.drainKind = kind ∧ (startDrain d kind).bay.safeToRemove = false) ∧
  (∀ d, d.bay.drainKind ≠ 2 → d.bay.shutdownCtxs = [] → (markSafe d).bay.safeToRemove = true ∧ (markSafe d).bay.removal = .safe)

/-- The cell pack and the keeper's supplies (02 R61, R62; 15 R430, R434, R436; 06 R175): a pack seated or removed sets CELL_STATE and leaves its record,
a low voltage marks it low, an exhausted holdover loses what the keeper holds; the clock is adjusted and set as R434 and R436 allow; re-masking keeps
the key and inverts the sense. -/
def Obligations.KeeperAndCellComplete : Prop :=
  (∀ s cell, s.dev.bay.cell.seated = false → cell.seated = true → s.dev.bay.auxLogic = true →
    ∃ e, leaves (.cellPackSeated cell) s e ∧ e.bay.cell = cell ∧ e.bay.cellState = cellStateOf cell ∧ e.keeper.onHoldover = false) ∧
  (∀ s, s.dev.bay.cell.seated = true → s.dev.bay.auxLogic = true →
    ∃ e, leaves .cellPackRemoved s e ∧ e.bay.cell = {} ∧ e.bay.cellState = 2 ∧ (s.dev.bay.auxPower = false → e.keeper.onHoldover = true)) ∧
  (∀ s mv, s.dev.bay.auxLogic = true → s.dev.bay.cell.seated = true → mv < 2800 →
    ∃ e, leaves (.cellVoltageLow mv) s e ∧ e.bay.cell = { s.dev.bay.cell with millivolts := mv } ∧
      e.bay.cellState = (if s.dev.bay.cellState = 0 then 1 else s.dev.bay.cellState)) ∧
  (∀ s, s.dev.keeper.onHoldover = true → s.dev.bay.auxPower = false → s.dev.bay.cell.seated = false →
    leaves .holdoverExhausted s { s.dev with
      keeper.cells0 := none, keeper.cells1 := none, keeper.clockValid := false, keeper.zeroised := false, keeper.latch := false
      keeper.latchCause := 0xFF, keeper.buffer := [], keeper.overwritten := 0, keeper.onHoldover := false }) ∧
  (∀ s w, w < 2 ^ 32 → hostMay s.dev .pf 0x4024 4 = true →
    (-1000000 ≤ unsigned 32 w → unsigned 32 w ≤ 1000000 → s.dev.sen.full = false →
      leaves (.timeAdjWrite w) s (logTime { s.dev with keeper.adjust := unsigned 32 w, keeper.adjFrac := 0 } 1 (natLe 4 w))) ∧
    (unsigned 32 w < -1000000 ∨ 1000000 < unsigned 32 w → leaves (.timeAdjWrite w) s (rejectPf s.dev true 0x4024)) ∧
    (-1000000 ≤ unsigned 32 w → unsigned 32 w ≤ 1000000 → s.dev.sen.full = true → leaves (.timeAdjWrite w) s (rejectPf s.dev false 0x4024))) ∧
  (∀ s v, v < 2 ^ 64 → hostMay s.dev .pf 0x4028 8 = true →
    (s.dev.keeper.timeLost = true → now s.dev < v → s.dev.sen.full = false →
      leaves (.timeSetWrite v) s (logTime { s.dev with keeper.timeUs := v, keeper.frac := 0, keeper.usSinceTick := 0, keeper.timeLost := false,
                                                       sen.event := setBit s.dev.sen.event 5 } 2 (natLe 8 v))) ∧
    (s.dev.keeper.timeLost = false ∨ v ≤ now s.dev → leaves (.timeSetWrite v) s (rejectPf s.dev true 0x4028))) ∧
  (∀ s key, keeperPowered s.dev = true → s.dev.keeper.answers = true → s.dev.keeper.zeroised = false → keeperKey s.dev = some key → key.length = 32 →
    ∃ e, leaves .keeperRemask s { s.dev with keeper := e } ∧ e.cellSet = !s.dev.keeper.cellSet ∧ e.sense = !s.dev.keeper.sense ∧
      keeperKey { s.dev with keeper := e } = some key)

/-- The sentinel's commands (15 R431, R440, R451, R457): a scan takes a pending commit and reads its sources; a windowed source out of range a further
second has a further event; the oldest submitted entry is appended; a release within what has been read is accepted, and once done erases the entries
below it, sets the base to the chain of the last of them and is logged. A windowed source (15 R440, R441) coming out of range is one event; the event
that is the THRESHOLD-th within WINDOW escalates, and the count starts again. -/
def Obligations.SentinelCompletes : Prop :=
  (∀ s x, keeperPowered s.dev = true → s.dev.bay.fabric = true →
    leaves (.sentinelScan x) s (scanMasked ([10, 11, 12, 13, 15].foldl (scanWindowed x)
      ((List.range 10).foldl (scanAlways x.inAlarm) (applySen (dueSummaries s.dev)))))) ∧
  (∀ s x, keeperPowered s.dev = true → s.dev.bay.fabric = false →
    leaves (.sentinelScan x) s ((List.range 10).foldl (scanAlways x.inAlarm) s.dev)) ∧
  (∀ s src measured, s.dev.bay.fabric = true → 10 ≤ src → src ≤ 15 → bit s.dev.sen.active src = true →
    leaves (.windowedSourceSecond src measured) s (windowEvent s.dev src measured)) ∧
  (∀ s e rest, s.dev.bay.fabric = true → s.dev.sen.submitted = e :: rest →
    (logRefuses s.dev e.type = false → leaves .logAppend s (place { s.dev with sen.submitted := rest } e)) ∧
    (logRefuses s.dev e.type = true → logReserve e.type = false →
      leaves .logAppend s { s.dev with sen.submitted := rest, sen.lost := min (s.dev.sen.lost + 1) (2 ^ 32 - 1) })) ∧
  (∀ s seq, seq < 2 ^ 64 → hostMay s.dev .pf 0x4058 8 = true →
    (s.dev.sen.readMax ≠ 0xFFFFFFFFFFFFFFFF → s.dev.sen.oldest < seq → seq ≤ s.dev.sen.readMax + 1 → s.dev.sen.releasing = none →
      leaves (.logReleaseWrite seq) s { s.dev with sen.releasing := some seq }) ∧
    (s.dev.sen.readMax = 0xFFFFFFFFFFFFFFFF ∨ seq ≤ s.dev.sen.oldest ∨ s.dev.sen.readMax + 1 < seq →
      leaves (.logReleaseWrite seq) s (rejectPf s.dev true 0x4058))) ∧
  (∀ s q, s.dev.sen.releasing = some q →
    ∃ e, leaves .logReleaseDone s e ∧ e.sen.log = s.dev.sen.log.filter (fun x => decide (q ≤ x.seq)) ∧ e.sen.oldest = q ∧
      e.sen.base = chainAt s.dev (q - 1) ∧ e.sen.releasing = none ∧ e.sen.submitted.length = s.dev.sen.submitted.length + 1 ∧
      e.sen.nextSeq = s.dev.sen.nextSeq ∧ e.sen.lastChain = s.dev.sen.lastChain) ∧
  (∀ d src m, (histOf d src).out = true → windowReading d src true false m = { d with sen.active := setBit d.sen.active src }) ∧
  (∀ d src, escalates d src = true ↔
    (d.sen.threshold ≤ (eventTimes d src).length ∧ ∃ t l, eventTimes d src = t :: l ∧ now d ≤ t + 10000 * d.sen.window)) ∧
  (∀ d src, (eventTimes d src).getLast? = if d.sen.threshold = 0 then none else some (now d)) ∧
  (∀ d src m, escalates d src = false → windowEvent d src m = eventAlarm (modHist d src fun h => { h with times := eventTimes d src }) src m false)

/-- An entry placed in the log (15 R451 to R453) takes the next SEQ; its CHAIN is the first 16 bytes of SHA-256 over the CHAIN before it and its own
first 48 bytes; nothing that stands in the log changes. -/
def Obligations.LogEntriesAreChained : Prop :=
  (∀ d e, ∃ x, (place d e).sen.log = d.sen.log ++ [x] ∧ x.seq = d.sen.nextSeq ∧ x.time = e.time ∧ x.type = e.type ∧ x.data = e.data ∧
    x.chain = (sha256 (d.sen.lastChain ++ logHead x)).take 16 ∧ (place d e).sen.nextSeq = d.sen.nextSeq + 1 ∧ (place d e).sen.lastChain = x.chain) ∧
  State.reset.dev.sen.nextSeq = 0 ∧ State.reset.dev.sen.lastChain = List.replicate 16 0

/-- Reception of frames (12 R341 to R344; 02 R49): a frame not for this member alone is passed on, and one for another member not taken; a member whose
neighbours are not both authenticated takes JOIN frames only; a frame of another type or key than its row's is discarded and counted; one whose key this
member does not hold is not taken; a bad tag is counted and a ring-scope fault; a frame taken raises the ring clock to its own and is not taken again.
-/
def Obligations.FrameReception : Prop :=
  (∀ d h type, linksUp d = true → (portOf d h.east).failed = false → (portOf d h.east).lanes ≠ 0 → h.src ≠ memberNo d →
    ∀ e, e = (if h.dst = memberNo d ∧ ¬ (d.ring.st = 0x33 ∧ authDone d = false) then d else passOn d h) →
    (h.dst ≠ memberNo d → h.dst ≠ 255 → receive h type d = (e, false)) ∧
    (h.dst = memberNo d ∨ h.dst = 255 → d.ring.st = 0x33 → authDone d = false → type ≠ 2 → receive h type d = (e, false)) ∧
    (h.dst = memberNo d ∨ h.dst = 255 → d.ring.st ≠ 0x33 ∨ authDone d = true ∨ type = 2 →
      (h.type ≠ type ∨ h.keysel ≠ keyselOf type → receive h type d = (countBad e, false)) ∧
      (h.type = type → h.keysel = keyselOf type → hasKey d h = false → receive h type d = (e, false)) ∧
      (h.type = type → h.keysel = keyselOf type → hasKey d h = true → type ≠ 2 → h.tagOk = false →
        receive h type d = (tagFailure (noteLost e h.src) h.east, false)) ∧
      (h.type = type → h.keysel = keyselOf type → hasKey d h = true → type ≠ 2 → h.tagOk = true → seenBefore (peerOf d h.src) h = true →
        receive h type d = (e, false)) ∧
      (h.type = type → h.keysel = keyselOf type → hasKey d h = true → type ≠ 2 → h.tagOk = true → seenBefore (peerOf d h.src) h = false →
        receive h type d = (raiseClock (modPeer e h.src fun p => noteSeq p h) h.clock, true) ∧
        seenBefore (peerOf (receive h type d).1 h.src) h = true) ∧
      (type = 2 → h.type = 2 → h.keysel = 2 → receive h type d = (raiseClock e h.clock, true)))) ∧
  (∀ s h pace j v epoch key seq entries confirm m config sm sp answer c handle f k issue r grant ack origin changes recs b last,
    ∀ x ∈ [(1, Instr.beatReceived h pace), (2, .joinFrame h j), (3, .viewFrame h v), (4, .keysFrame h epoch key), (5, .mapFrame h seq entries),
      (6, .leaveFrame h confirm m), (7, .configFrame h config sm sp), (8, .syncFrame h answer c), (9, .noticeFrame h handle), (0x10, .forwardFrame h f),
      (0x11, .replyFrame h k issue r), (0x12, .changeLockFrame h grant handle k), (0x20, .replicateFrame h ack origin issue changes r),
      (0x21, .transferFrame h ack handle k recs), (0x30, .copyFrame h b recs last), (0x31, .saveFrame h k recs last)],
    ∀ d, receive h x.1 s.dev = (d, false) → leaves x.2 s d)

/-- Joining and its timers (02 R48, R49; 12 R348 to R354): RING_JOIN goes high where the module may join; a join not authenticated in 50 ms fails and is
tried again; the first in the order of succession forms the ring; a member sends its beats; the loss of a member, the delay of the standby, the proof of
a broken loop, the minority's 10 ms and the old key's 2 ms take their effects. -/
def Obligations.JoiningCompletes : Prop :=
  (∀ s, leaves .ringJoinRaise s (beginJoin s.dev) ∧ (s.dev.ring.retry = true → leaves .joinRetryTimer s (beginJoin s.dev))) ∧
  (∀ d e, e = drbgBefore false d → canJoin e = true → drbgUp e = true → e.ring.east.failed = false → e.ring.west.failed = false →
      (e.ring.east.lanes = 0 ∨ e.ring.east.lanes = 4) → (e.ring.west.lanes = 0 ∨ e.ring.west.lanes = 4) →
    (beginJoin d).bay.ringJoin = true ∧ (beginJoin d).ring.st = 0x33 ∧ (beginJoin d).ring.east.lanes = 4 ∧ (beginJoin d).ring.west.lanes = 4) ∧
  (∀ s, s.dev.ring.st = 0x33 → authDone s.dev = false → leaves .joinAuthTimeout s { leaveRing (logRing s.dev 5 (natLe 1 1)) with ring.retry := true }) ∧
  (∀ s, mayForm s.dev = true →
    leaves .ringFormWaitExpiry s (formAlone { s.dev with ring.joiners := (metMembers s.dev).foldl insertNat s.dev.ring.joiners })) ∧
  (∀ s, beats s.dev = true → leaves .beatSendTimer s (renewEpoch (sendFrame s.dev 255 (.beat s.dev.glb.pace)))) ∧
  (∀ s h pace d, receive h 1 s.dev = (d, true) → h.src ≠ memberNo s.dev →
    leaves (.beatReceived h pace) s
      (wakeWhere (modPeer d h.src fun p => { p with pace, beatAt := some (now d), clock := h.clock }) fun c => c.wait == .holder)) ∧
  (∀ s h pace d, receive h 1 s.dev = (d, true) → h.src = memberNo s.dev →
    leaves (.beatReceived h pace) s
      (if d.ring.loopProof = true ∧ h.dst = memberNo s.dev ∧ h.east = false then { d with ring.proofHeld := true } else d)) ∧
  (∀ s m, linksUp s.dev = true → joined s.dev = true → bit s.dev.ring.present m = true → m ≠ memberNo s.dev → m ∉ s.dev.ring.suspects →
    leaves (.memberLossDetected m) s (loseMember m s.dev)) ∧
  (∀ s, linksUp s.dev = true → joined s.dev = true → s.dev.ring.suspects ≠ [] → inMajority s.dev = true →
    actingOf s.dev (reachable s.dev) = some (memberNo s.dev) → leaves .standbyViewDelay s (issueLoss s.dev (reachable s.dev))) ∧
  (∀ s, joined s.dev = true → s.dev.ring.loopProof = true → leaves .loopProofTimeout s
    (if s.dev.ring.proofHeld then majorityView { s.dev with ring.loopProof := false } else enterParted { s.dev with ring.loopProof := false })) ∧
  (∀ s, s.dev.ring.st = 0xF0 → leaves .partedTimeout s { leaveRing s.dev with ring.retry := true }) ∧
  (∀ s, leaves .prevEpochKeyExpiry s { s.dev with ring.prevKey := none })

/-- The frames of the view and of joining (12 R345 to R355): what a joiner, a view, a ring key, a map, a leave and a configuration do at the member that
takes them; each is checked first, and one that fails its check is refused as the rule says. -/
def Obligations.ViewFramesComplete : Prop :=
  (∀ s h j d, receive h 2 s.dev = (d, true) → h.src ≠ memberNo s.dev → d.ring.st ≠ 0x0F → d.ring.st ≠ 0xF0 →
    (if joinAuth d h.src j then
       if joinRefused d j then leaves (.joinFrame h j) s (if j.answer && d.ring.st = 0x33 then joinFailed d 3 else logRing d 5 (natLe 1 3))
       else (j.answer = false → leaves (.joinFrame h j) s (answerJoin d h j)) ∧
         (j.answer = true → h.dst = 255 → leaves (.joinFrame h j) s (recordJoiner d h.src j)) ∧
         (j.answer = true → h.dst ≠ 255 → d.ring.st = 0x33 → leaves (.joinFrame h j) s (takeAnswer d h j))
     else leaves (.joinFrame h j) s (logRing d 5 (natLe 1 2)))) ∧
  (∀ s h j d, receive h 2 s.dev = (d, true) → h.src = memberNo s.dev →
    leaves (.joinFrame h j) s
      (if d.ring.st = 0x33 ∧ authDone d = false ∧ j.answer = false ∧ metMembers d = [] then formIfAnchor (meetOn d h.east (memberNo d)) else d)) ∧
  (∀ s h v d, receive h 3 s.dev = (d, true) → h.src ≠ memberNo s.dev → d.ring.st ≠ 0x0F → d.ring.st ≠ 0xF0 →
    (v.sigMldsa = [] → v.sigP384 = [] → v.epoch = d.ring.epoch → joined d = true → leaves (.viewFrame h v) s (viewAsked d v)) ∧
    (v.sigMldsa ≠ [] → d.ring.nextKey = none → leaves (.viewFrame h v) s (ringFault 9 (memberNo d) d))) ∧
  (∀ s h v d e key, receive h 3 s.dev = (d, true) → h.src ≠ memberNo s.dev → d.ring.st ≠ 0x0F → d.ring.st ≠ 0xF0 → v.sigMldsa ≠ [] →
    d.ring.nextKey = some (e, key) →
    leaves (.viewFrame h v) s
      (if e = v.epoch && decide (d.ring.epoch < v.epoch) && signerActs d v && memberSigned d v.signer (viewMessage v.epoch v.present) v.sigMldsa v.sigP384
       then takeView d v key else ringFault 9 (memberNo d) d)) ∧
  (∀ s h epoch key d, receive h 4 s.dev = (d, true) → h.src ≠ memberNo s.dev → d.ring.st ≠ 0x0F → d.ring.st ≠ 0xF0 → d.ring.epoch < epoch →
    leaves (.keysFrame h epoch key) s { d with ring.nextKey := some (epoch, key) }) ∧
  (∀ s h seq entries d, receive h 5 s.dev = (d, true) → h.src ≠ memberNo s.dev → d.ring.st ≠ 0x0F → d.ring.st ≠ 0xF0 → seq ≠ 0 →
    leaves (.mapFrame h seq entries) s
      (if h.src = d.ring.acting && (decide (d.ring.mapEpoch < h.epoch) || (h.epoch == d.ring.mapEpoch && decide (d.ring.mapSeq < seq)))
       then applyMap d h.epoch seq entries else ringFault 9 (memberNo d) d)) ∧
  (∀ s h entries d, receive h 5 s.dev = (d, true) → h.src ≠ memberNo s.dev → d.ring.st ≠ 0x0F → d.ring.st ≠ 0xF0 →
    leaves (.mapFrame h 0 entries) s (if isAnchor d then returnLost d (entries.map Prod.fst) else d)) ∧
  (∀ s h d, receive h 6 s.dev = (d, true) → h.src ≠ memberNo s.dev →
    (d.ring.st = 0x96 → leaves (.leaveFrame h true (memberNo d)) s (leaveRing (logRing d 2 (natLe 1 (memberNo d))))) ∧
    (joined d = true → isAnchor d = true → leaves (.leaveFrame h false h.src) s (acceptLeave d h.src))) ∧
  (∀ s h config sm sp d, receive h 7 s.dev = (d, true) → h.src ≠ memberNo s.dev → d.ring.st ≠ 0x0F → d.ring.st ≠ 0xF0 → sm ≠ [] → config ≠ heldCfg d →
    leaves (.configFrame h config sm sp) s
      (if configForm config && cfgRingId config == cfgRingId (heldCfg d) && decide (cfgSeq (heldCfg d) < cfgSeq config) &&
          memberSigned d h.src (configMessage config) sm sp
       then configTaken d config else ringFault 9 (memberNo d) (refuseConfig d (cfgSeq config)))) ∧
  (∀ s h config sm sp d, receive h 7 s.dev = (d, true) → h.src ≠ memberNo s.dev → d.ring.st ≠ 0x0F → d.ring.st ≠ 0xF0 →
    (sm = [] → sp = [] → leaves (.configFrame h config sm sp) s (if config = heldCfg d then configSealed d h.src else d)) ∧
    (sm ≠ [] → config = heldCfg d → leaves (.configFrame h config sm sp) s (sendFrame d 255 (.config config [] [])))) ∧
  (∀ s h c d, receive h 8 s.dev = (d, true) → h.src ≠ memberNo s.dev → joined d = true →
    leaves (.syncFrame h true c) s (syncAnswered (raiseClock d c) h.src c) ∧
    leaves (.syncFrame h false c) s (settleSyncs { raiseClock d c with ring.syncOwed := insertNat d.ring.syncOwed h.src })) ∧
  (∀ s h handle d, receive h 9 s.dev = (d, true) → h.src ≠ memberNo s.dev → joined d = true →
    (primaryOf d (keyOf handle) = memberNo d → leaves (.noticeFrame h handle) s (registerGrant d handle h.src)) ∧
    (primaryOf d (keyOf handle) ≠ memberNo d → leaves (.noticeFrame h handle) s (endGrantsOn d handle)))

/-- The frames of commands and records (12 R21, R22, R356 to R364, R370): a forwarded command takes a context of its origin's share; a reply completes
the command that waits for it; a change lock is requested, granted and given back; changes of another member are applied once and acknowledged, and an
acknowledgement counts; records are transferred, copied and gathered. -/
def Obligations.RecordFramesComplete : Prop :=
  (∀ s h f d, receive h 0x10 s.dev = (d, true) → h.src ≠ memberNo s.dev → joined d = true → shareOf d h.src < 28 → hereAlready d h.src f.issue = false →
    ∃ e k, leaves (.forwardFrame h f) s e ∧ (ctxOf d k).code = csFree ∧ (ctxOf e k).code = csReady ∧ (ctxOf e k).entry = f.entry ∧
      (ctxOf e k).origin = some { member := h.src, ctx := f.originCtx, issue := f.issue } ∧ (ctxOf e k).gen = f.gen) ∧
  (∀ s h f d, receive h 0x10 s.dev = (d, true) → h.src ≠ memberNo s.dev → 28 ≤ shareOf d h.src ∨ hereAlready d h.src f.issue = true →
    leaves (.forwardFrame h f) s d) ∧
  (∀ s h k issue r d, receive h 0x11 s.dev = (d, true) → h.src ≠ memberNo s.dev → ctxHeld (ctxOf d k) = true → writesHeld (ctxOf d k) = false →
    (ctxOf d k).origin = none → (ctxOf d k).sentTo = some h.src → (ctxOf d k).issue = issue →
    leaves (.replyFrame h k issue r) s (takeReply d k r)) ∧
  (∀ s h key k d, receive h 0x12 s.dev = (d, true) → h.src ≠ memberNo s.dev → joined d = true →
    (primaryOf d key = memberNo d → (∀ l, lockOf d key = some l → l.holder ≠ (h.src, k) ∧ (h.src, k) ∉ l.waiters) →
      leaves (.changeLockFrame h false key k) s (requestLock d key (h.src, k))) ∧
    (∀ l, lockOf d key = some l → l.holder = (h.src, k) → leaves (.changeLockFrame h true key k) s (releaseLock d key)) ∧
    (lockOf d key = none → primaryOf d key = h.src → leaves (.changeLockFrame h true key k) s (takeGrant d h.src key k))) ∧
  (∀ s h origin issue changes outcome d, receive h 0x20 s.dev = (d, true) → h.src ≠ memberNo s.dev → joined d = true →
    (∀ r, cachedOf d origin issue = some r → leaves (.replicateFrame h false origin issue changes outcome) s (sendAck d h.src origin issue stOk)) ∧
    (∀ e, cachedOf d origin issue = none → applyChanges false changes d = .ok e → cacheRoomFor e = true → issue ≠ joinKey (memberNo d) →
      leaves (.replicateFrame h false origin issue changes outcome) s (sendAck (cachePut e origin issue outcome) h.src origin issue stOk)) ∧
    (∀ st tried, cachedOf d origin issue = none → applyChanges false changes d = .error (st, tried) →
      leaves (.replicateFrame h false origin issue changes outcome) s
        (if st = 0 then keepFreezes d tried else sendAck (keepFreezes d tried) h.src origin issue st)) ∧
    (∀ e, cachedOf d origin issue = none → applyChanges false changes d = .ok e → cacheRoomFor e = false →
      leaves (.replicateFrame h false origin issue changes outcome) s d) ∧
    leaves (.replicateFrame h true origin issue changes outcome) s (takeAck d h.src origin issue outcome.status)) ∧
  (∀ s h origin issue changes outcome d e, receive h 0x20 s.dev = (d, true) → h.src ≠ memberNo s.dev → d.ring.st = 0x33 → cachedOf d origin issue = none →
    applyChanges true changes d = .ok e → cacheRoomFor e = true → ∀ f, f = (if issue = joinKey (memberNo d) then e else cachePut e origin issue outcome) →
    leaves (.replicateFrame h false origin issue changes outcome) s
      (if e.ring.formatDue.isSome then f else sendAck (becomeMember f) h.src origin issue stOk)) ∧
  (∀ s h handle ctx recs d, receive h 0x21 s.dev = (d, true) → h.src ≠ memberNo s.dev → joined d = true →
    (holds d handle = true → leaves (.transferFrame h true handle ctx recs) s (sendFrame d h.src (.transfer false handle ctx (transferAnswer d handle)))) ∧
    (ctx < 4096 → leaves (.transferFrame h false handle ctx recs) s (takeRecords d handle ctx recs)) ∧
    (4096 ≤ ctx → leaves (.transferFrame h false handle ctx recs) s (lockRecordsArrive (ctx - 4096) handle recs d))) ∧
  (∀ s h b recs last d e, receive h 0x30 s.dev = (d, true) → h.src ≠ memberNo s.dev → joined d = true → (mapOf d b).incoming = memberNo d →
    (mapOf d b).primary = h.src → copyIn recs d = .ok e →
    leaves (.copyFrame h b recs last) s
      (if last then (if isAnchor e then copyDone e b (memberNo e) else sendFrame e e.ring.acting (.copy b [] true)) else e)) ∧
  (∀ s h b d, receive h 0x30 s.dev = (d, true) → h.src ≠ memberNo s.dev → joined d = true → (mapOf d b).incoming ≠ memberNo d → isAnchor d = true →
    leaves (.copyFrame h b [] true) s (copyDone d b h.src)) ∧
  (∀ s h ctx recs last d, receive h 0x31 s.dev = (d, true) → h.src ≠ memberNo s.dev → joined d = true →
    (recs = [] → last = false → leaves (.saveFrame h ctx recs last) s (sendSave d h.src ctx)) ∧
    (recs ≠ [] → last = false → d.ring.gatherCtx = some ctx → h.src ∈ d.ring.gatherLeft →
      leaves (.saveFrame h ctx recs last) s { d with ring.gathered := d.ring.gathered ++ recs }) ∧
    (last = true → d.ring.gatherCtx = some ctx → h.src ∈ d.ring.gatherLeft →
      leaves (.saveFrame h ctx recs last) s (gatherCheck { d with ring.gathered := d.ring.gathered ++ recs,
                                                                  ring.gatherLeft := d.ring.gatherLeft.filter (· != h.src) })))

/-- The ring links (12 R339, R342): an acknowledged frame leaves the replay buffer, a frame reported bad or out of time is sent again and after its
eighth resend the link fails; a failed link that trains again has its four lanes; a port loses its lanes one by one; a receiver that re-locks has every
unacknowledged frame again. A joiner's vault is formatted, and an outcome aged (12 R349, R360). -/
def Obligations.RingLinksComplete : Prop :=
  (∀ s east x, linksUp s.dev = true → (portOf s.dev east).replay.head? = some x →
    (x.2 < 8 → ∃ e, leaves (.frameAckTimeout east) s e ∧ e.out = s.dev.out ++ [.frame x.1] ∧
      e.ring.resends = min (s.dev.ring.resends + 1) (2 ^ 16 - 1)) ∧
    (8 ≤ x.2 → leaves (.frameAckTimeout east) s (failLink s.dev east))) ∧
  (∀ s east seq x, linksUp s.dev = true → (portOf s.dev east).replay.find? (fun y => y.1.count == seq) = some x →
    leaves (.ringLinkAck east seq true) s (modPort s.dev east fun p => { p with replay := p.replay.erase x }) ∧
    leaves (.ringLinkAck east seq false) s (resendFrame s.dev east x)) ∧
  (∀ s east, s.dev.bay.fabric = true → s.dev.glb.failStop = false → (portOf s.dev east).failed = true →
    leaves (.linkRetrainTimer east true) s
      (modPort { s.dev with ring.event := setBit s.dev.ring.event 5 } east fun p => { p with failed := false, lanes := 4, tagFails := [] }) ∧
    leaves (.linkRetrainTimer east false) s s.dev) ∧
  (∀ s east lane, s.dev.bay.fabric = true → s.dev.glb.failStop = false → 1 < (portOf s.dev east).lanes →
    leaves (.ringLaneFail east lane) s (logRing (modPort s.dev east fun p => { p with lanes := p.lanes - 1 }) 7
      (natLe 1 (if east then 0 else 1) ++ natLe 1 lane ++ natLe 1 ((portOf s.dev east).lanes - 1)))) ∧
  (∀ s east lane, s.dev.bay.fabric = true → s.dev.glb.failStop = false → (portOf s.dev east).lanes = 1 → (portOf s.dev east).failed = false →
    ∃ e, leaves (.ringLaneFail east lane) s e ∧ (portOf e east).lanes = 0 ∧ (portOf e east).failed = true ∧ bit e.ring.event 5 = true) ∧
  (∀ s east, linksUp s.dev = true → (portOf s.dev east).failed = false →
    leaves (.ringReceiverRelock east) s { s.dev with out := s.dev.out ++ (portOf s.dev east).replay.map fun x => .frame x.1 }) ∧
  (∀ d east, (portOf d east).failed = false → (portOf (failLink d east) east).failed = true ∧ (portOf (failLink d east) east).replay = [] ∧
    bit (failLink d east).ring.event 5 = true) ∧
  (∀ s accept p, s.dev.ring.formatDue = some accept → population s.dev = some p → s.dev.ring.st = 0x33 → linksUp s.dev = true →
    ∀ d, d = drbgBefore false s.dev → drbgUp d = true → population d = some p → ∀ e, e = becomeMember (vaultReady (formatVault (keepMarks d fun _ => true) p accept)) →
    leaves .joinerFormatDone s (sendAck e e.ring.acting e.ring.acting (joinKey (memberNo e)) stOk)) ∧
  (∀ s origin issue, leaves (.outcomeCacheEntryAged origin issue) s
    (replicateWaiting { s.dev with ring.cache := s.dev.ring.cache.map fun x => if x.origin = origin ∧ x.issue = issue then { x with aged := true } else x }))

/-- The vault's events (07 R206 to R214; 18 R504; 19 R521): a sweep starts on its period, draws its key again a second after it could not, and works
through the groups row by row, each row's group re-encrypted with its counters 0; a repair closes its poison entry with its outcome; a hot DIMM doubles
its channel's refresh. -/
def Obligations.VaultEventsComplete : Prop :=
  (∀ s, s.dev.vmp.frogPeriod ≠ 0 → s.dev.vmp.st = 0x96 → s.dev.vmp.frog = 0x0F →
    (sweepHeldBack s.dev = true → leaves .frogPeriodExpiry s { s.dev with vmp.sweepWaits := true }) ∧
    (sweepHeldBack s.dev = false → leaves .frogPeriodExpiry s (frogTrigger s.dev))) ∧
  (∀ s, s.dev.vmp.drawRetry = true → leaves .frogDrawRetry s (frogTrigger { s.dev with vmp.drawRetry := false })) ∧
  (∀ s found, frogKnown s.dev.vmp.frog = true → s.dev.vmp.frog ≠ 0x55 ∨ s.dev.vmp.st ≠ 0x96 ∨ vmpHeld s.dev = true ∨ s.dev.glb.failStop = true →
    leaves (.frogGroupStep found) s s.dev) ∧
  (∀ s found d, s.dev.vmp.frog = 0x55 → s.dev.vmp.st = 0x96 → vmpHeld s.dev = false → s.dev.glb.failStop = false →
    d = found.foldl (fun d x => if onWalk d (groupLines d.vmp.row) x then meetFail x d else d) s.dev →
    (d.vmp.st ≠ 0x96 ∨ d.vmp.frog ≠ 0x55 → leaves (.frogGroupStep found) s d) ∧
    (d.vmp.st = 0x96 → d.vmp.frog = 0x55 → ∀ e, e = (lastLevels d.vmp.row).foldl (clearNode d.vmp.row) (sweepGroup d d.vmp.row) →
      (d.vmp.row + 1 < groupCount e.vmp.n → leaves (.frogGroupStep found) s { e with vmp.row := d.vmp.row + 1 }) ∧
      (groupCount e.vmp.n ≤ d.vmp.row + 1 → leaves (.frogGroupStep found) s (settleSweep { e with vmp.row := d.vmp.row + 1 })))) ∧
  (∀ d g, groupPoisoned d g = false → tabWf {} d.vmp.groups = true → groupOf (sweepGroup d g) g = {}) ∧
  (∀ d, d.mnt.occupant = none → (settleSweep d).vmp.frog = 0x0F ∧ (settleSweep d).vmp.oldKey = none ∧ bit (settleSweep d).vmp.event 4 = true ∧
    (settleSweep d).vmp.sweeps = min (d.vmp.sweeps + 1) (2 ^ 32 - 1)) ∧
  (∀ s entry outcome missing recs, ∀ p, p = tabGet {} s.dev.vmp.poison entry → p.outcome = 0 → p.level ≠ 0xC → vaultBuilt s.dev = true →
    outcomeOk s.dev p outcome missing = true →
    (outcome = 1 ∨ outcome = 5 → leaves (.poisonRepairDone entry outcome missing recs) s (closeEntry s.dev entry outcome 0)) ∧
    (outcome = 2 ∨ outcome = 6 → leaves (.poisonRepairDone entry outcome missing recs) s
      (closeEntry ((unitSlots s.dev p).foldl (rebuildRecord recs) (freshCounters s.dev p)) entry outcome 0)) ∧
    (outcome = 3 → leaves (.poisonRepairDone entry outcome missing recs) s
      (closeEntry (missing.eraseDups.foldl (reportHandle entry) ((unitSlots s.dev p).foldl (rebuildRecord recs) (freshCounters s.dev p))) entry 3
        (min missing.eraseDups.length 65535)))) ∧
  (∀ s b temp, s.dev.bay.fabric = true → (s.dev.bay.dimms.getD b {}).fitted = true →
    ∀ hubs, hubs = modifyAt s.dev.bay.hubTemps b (fun _ => some temp) →
    (decide (85 < temp) = s.dev.bay.refreshDouble.getD b false → leaves (.dimmTempExcursion b temp) s { s.dev with bay.hubTemps := hubs }) ∧
    (decide (85 < temp) ≠ s.dev.bay.refreshDouble.getD b false → leaves (.dimmTempExcursion b temp) s
      (logPower { s.dev with bay.hubTemps := hubs, bay.refreshDouble := modifyAt s.dev.bay.refreshDouble b fun _ => decide (85 < temp) }
        (if 85 < temp then 7 else 8) (zeroBytes 1 ++ natLe 1 b ++ natLe 1 (signed 8 temp)))))

/-- Faults and their handlers (17 R477 to R484): a fault is raised at its scope; each handler does what its scope's rule says with the fault it holds
and takes up the next; a handling out of time passes its fault up. -/
def Obligations.FaultHandlingCompletes : Prop :=
  (∀ s f, leaves (.faultDetected f) s (raiseFault f s.dev)) ∧
  (∀ d f, d.glb.failStop = true ∨ d.bay.fabric = false → raiseFault f d = d) ∧
  (∀ s x again second, (scopeOf s.dev 0).current = some x → ∀ d, d = takeHandlerCore s.dev → ∀ c, c = ctxOf d x.info.object →
    (ctxHeld c = false ∨ writesHeld c = true → leaves (.commandScopeHandling again second) s (endHandling d 0 0)) ∧
    (ctxHeld c = true → writesHeld c = false → x.info.cause = 6 → c.ranAgain = false → c.held = none →
      leaves (.commandScopeHandling again true) s (endHandling (runAgain (modCtx d x.info.object fun c =>
        { c with avoid := if x.info.subsystem = 4 then none else some x.info.unit }) x.info.object again) 0 0)) ∧
    (ctxHeld c = true → writesHeld c = false → (x.info.cause ≠ 6 ∨ c.ranAgain = true ∨ c.held.isSome = true ∨ second = false) →
      leaves (.commandScopeHandling again second) s (endHandling (endFaulty d x.info.object) 0 1))) ∧
  (∀ s x, (scopeOf s.dev 1).current = some x → ∀ n, n = x.info.object → ∀ d, d = forceRelease (takeHandlerCore s.dev) n →
    ∀ e, e = (ctxsWhere d (endsWithTenant n)).foldl endFaulty d →
    leaves (.tenantScopeHandling none) s (endHandling (modTn e n fun t => { t with st := 0 }) 1 2) ∧
    (∀ q, qpExists e (.vf n) q = true →
      leaves (.tenantScopeHandling (some q)) s (endHandling (modTn (dropQueuePair e n q) n fun t => { t with st := 0 }) 1 2))) ∧
  (∀ s x ok, (scopeOf s.dev 2).current = some x → ∀ d, d = takeHandlerCore s.dev →
    (x.info.cause = 8 →
      (x.info.object ≠ memberNo d → leaves (.ringScopeHandling ok) s (endHandling (askAgain d x.info.object) 2 0)) ∧
      (x.info.object = memberNo d → leaves (.ringScopeHandling ok) s (endHandling (d.ring.lostFrom.foldl askAgain d) 2 0))) ∧
    (x.info.cause = 5 → leaves (.ringScopeHandling ok) s (endHandling (failLink d (x.info.unit = 0)) 2 4)) ∧
    (x.info.cause = 9 → x.info.object ≠ memberNo d → silent d x.info.object = true →
      (d.flt.noAckRetried = true →
        leaves (.ringScopeHandling ok) s (endHandling (reportSuspect { d with flt.noAckRetried := false } x.info.object) 2 0)) ∧
      (d.flt.noAckRetried = false →
        leaves (.ringScopeHandling ok) s (endHandling (sendAgain { d with flt.noAckRetried := true } x.info.object) 2 4))) ∧
    (x.info.cause ≠ 8 → x.info.cause ≠ 5 → x.info.cause ≠ 9 ∨ x.info.object = memberNo d ∨ silent d x.info.object = false →
      (ok = true → leaves (.ringScopeHandling ok) s (endHandling d 2 0)) ∧
      (ok = false → leaves (.ringScopeHandling ok) s (endHandling { leaveRing d with ring.retry := true } 2 5)))) ∧
  (∀ s x restored, (scopeOf s.dev 3).current = some x → ∀ d, d = takeHandlerCore s.dev →
    (unitFault x.info = true → leaves (.moduleScopeHandling restored) s (handleUnit d (servedBy s.dev x.info) x)) ∧
    (unitFault x.info = false →
      (x.info.cause = 0xA ∨ x.info.cause = 0xB ∨ (x.info.subsystem = 9 ∧ x.info.cause = 4) →
        leaves (.moduleScopeHandling restored) s (endHandling (failVault d) 3 3)) ∧
      (x.info.cause ≠ 0xA → x.info.cause ≠ 0xB → x.info.subsystem ≠ 9 ∨ x.info.cause ≠ 4 →
        (x.info.subsystem = 1 → leaves (.moduleScopeHandling restored) s (endHandling (hostReset d) 3 6)) ∧
        (x.info.cause = 7 → x.info.subsystem ∈ [2, 3, 8, 10] → leaves (.moduleScopeHandling restored) s (failStopFor (nextFault d 3) x)) ∧
        (x.info.subsystem ≠ 1 → x.info.cause ≠ 7 ∨ x.info.subsystem ∉ [2, 3, 8, 10] →
          (restored = true → leaves (.moduleScopeHandling restored) s (endHandling d 3 6)) ∧
          (restored = false → x.info.cause = 0xC → x.info.subsystem ≠ 12 → leaves (.moduleScopeHandling restored) s (endHandling d 3 0)) ∧
          (restored = false → x.info.cause ≠ 0xC ∨ x.info.subsystem = 12 →
            leaves (.moduleScopeHandling restored) s (failStopFor (nextFault d 3) x)))))) ∧
  (∀ s scope x, s.dev.glb.failStop = false → s.dev.bay.fabric = true → (scopeOf s.dev scope).current = some x →
    leaves (.handlerTimeLimit scope) s (passUp s.dev scope (nextScope s.dev x.info)
      { scope := nextScope s.dev x.info, cause := 0xD, subsystem := x.info.subsystem, unit := 0xFF, object := nextObject s.dev x.info, detail := 0,
        inHandler := some scope }))

/-- Fail-stop (17 R488, R489): nothing that fail-stops stays in service: GLB_STATUS shows it, the access table is STOPPED, RING_JOIN is low, every key
register is clear, no maintenance activity runs, and what AER reports goes out. -/
def Obligations.FailStopEffect : Prop :=
  ∀ d, (failStop d).glb.failStop = true ∧ (failStop d).act.st = 0xF0 ∧ (failStop d).act.claim = none ∧ (failStop d).bay.ringJoin = false ∧
    (failStop d).bay.safeToRemove = true ∧ (failStop d).mnt.occupant = none ∧ (failStop d).mnt.companion = none ∧ (failStop d).host.reads = [] ∧
    (failStop d).keys.maskKey = none ∧ (failStop d).keys.tagKey = none ∧ (failStop d).vmp.memKey = none ∧ readiness (failStop d) = rdFailStop ∧
    Out.aerInternal ∈ (failStop d).out

/-- The debug ports, the journal flash and the sessions that expire (14 R403, R404; 19 R529; 06 R163, R167; 08 R253): the UART shows the state's line
and takes input only in FACTORY_TEST and ANALYSIS, the TAP reaches the interconnect only while it is open, a rewrite of the flash changes no content, a
component session ends, and a RETIRING version past its time is destroyed. -/
def Obligations.DebugAndExpiriesComplete : Prop :=
  (∀ s l, s.dev.bay.fabric = true → statusLine s.dev = some l → leaves .serviceUartStatusLine s { s.dev with out := s.dev.out ++ [.uart l] }) ∧
  (∀ s, s.dev.bay.fabric = true → statusLine s.dev = none → leaves .serviceUartStatusLine s s.dev) ∧
  (∀ s b addr bytes kind, addr < 2 ^ 40 →
    (uartInput s.dev.lcd.st = true → leaves (.serviceUartInput b addr bytes kind) s (arriveAccess (.internal 11 0 addr bytes kind b) s.dev)) ∧
    (uartInput s.dev.lcd.st = false → leaves (.serviceUartInput b addr bytes kind) s s.dev)) ∧
  (∀ s addr bytes kind v, addr < 2 ^ 40 → jtagOpen s.dev = true →
    leaves (.jtagAccess addr bytes kind v false) s (arriveAccess (.internal 11 0 addr bytes kind v) s.dev)) ∧
  (∀ s addr bytes kind v start, jtagOpen s.dev = false → leaves (.jtagAccess addr bytes kind v start) s s.dev) ∧
  (∀ s addr bytes kind v, jtagOpen s.dev = true → s.dev.lcd.st = 0x0F → s.dev.lcd.phase = .none →
    ∃ e, leaves (.jtagAccess addr bytes kind v true) s e ∧ e.otp = { s.dev.otp with lcWord := s.dev.otp.lcWord ||| 0xFF } ∧ e.lcd.phase = .wiping ∧
      e.lcd.pendingTarget = 0x33) ∧
  (∀ s slot, leaves (.journalFlashRefresh slot) s s.dev) ∧
  (∀ s n, leaves (.componentSessionExpiry n) s (abortComponent s.dev n)) ∧
  (∀ s h r, s.dev.bay.fabric = true → s.dev.vmp.st ≠ 0xF0 → expiring s.dev h = some r →
    leaves (.retiringVersionExpiry h) s
      (replicateOwn (applyEdit s.dev (destroyEdit (recsOfKey s.dev (keyOf h)) (chainIn (recsOfKey s.dev (keyOf h)) r))).1))
end

