-- ==== Sys2Proof/Laws/State.lean ====
section
/-! SUPPORT. One lemma for each field that an operation on the device leaves as it was, for the operations that later proofs meet: outputs, log
submissions, changes of a tenant, a context, a queue pair or a vector, and the ready lists. -/

namespace Sys2Proof.Machine

@[simp] theorem emit_otp (d o) : (emit d o).otp = d.otp := rfl
@[simp] theorem emit_keeper (d o) : (emit d o).keeper = d.keeper := rfl
@[simp] theorem emit_bay (d o) : (emit d o).bay = d.bay := rfl
@[simp] theorem emit_glb (d o) : (emit d o).glb = d.glb := rfl
@[simp] theorem emit_host (d o) : (emit d o).host = d.host := rfl
@[simp] theorem emit_tenants (d o) : (emit d o).tenants = d.tenants := rfl
@[simp] theorem emit_sch (d o) : (emit d o).sch = d.sch := rfl
@[simp] theorem emit_keys (d o) : (emit d o).keys = d.keys := rfl
@[simp] theorem emit_vmp (d o) : (emit d o).vmp = d.vmp := rfl
@[simp] theorem emit_eng (d o) : (emit d o).eng = d.eng := rfl
@[simp] theorem emit_ring (d o) : (emit d o).ring = d.ring := rfl
@[simp] theorem emit_act (d o) : (emit d o).act = d.act := rfl
@[simp] theorem emit_lcd (d o) : (emit d o).lcd = d.lcd := rfl
@[simp] theorem emit_sen (d o) : (emit d o).sen = d.sen := rfl
@[simp] theorem emit_cvu (d o) : (emit d o).cvu = d.cvu := rfl
@[simp] theorem emit_ent (d o) : (emit d o).ent = d.ent := rfl
@[simp] theorem emit_mnt (d o) : (emit d o).mnt = d.mnt := rfl
@[simp] theorem emit_flt (d o) : (emit d o).flt = d.flt := rfl
@[simp] theorem submit_otp (d type cls source fn data) : (submit d type cls source fn data).otp = d.otp := rfl
@[simp] theorem submit_keeper (d type cls source fn data) : (submit d type cls source fn data).keeper = d.keeper := rfl
@[simp] theorem submit_bay (d type cls source fn data) : (submit d type cls source fn data).bay = d.bay := rfl
@[simp] theorem submit_glb (d type cls source fn data) : (submit d type cls source fn data).glb = d.glb := rfl
@[simp] theorem submit_host (d type cls source fn data) : (submit d type cls source fn data).host = d.host := rfl
@[simp] theorem submit_tenants (d type cls source fn data) : (submit d type cls source fn data).tenants = d.tenants := rfl
@[simp] theorem submit_sch (d type cls source fn data) : (submit d type cls source fn data).sch = d.sch := rfl
@[simp] theorem submit_keys (d type cls source fn data) : (submit d type cls source fn data).keys = d.keys := rfl
@[simp] theorem submit_vmp (d type cls source fn data) : (submit d type cls source fn data).vmp = d.vmp := rfl
@[simp] theorem submit_eng (d type cls source fn data) : (submit d type cls source fn data).eng = d.eng := rfl
@[simp] theorem submit_ring (d type cls source fn data) : (submit d type cls source fn data).ring = d.ring := rfl
@[simp] theorem submit_act (d type cls source fn data) : (submit d type cls source fn data).act = d.act := rfl
@[simp] theorem submit_lcd (d type cls source fn data) : (submit d type cls source fn data).lcd = d.lcd := rfl
@[simp] theorem submit_cvu (d type cls source fn data) : (submit d type cls source fn data).cvu = d.cvu := rfl
@[simp] theorem submit_ent (d type cls source fn data) : (submit d type cls source fn data).ent = d.ent := rfl
@[simp] theorem submit_mnt (d type cls source fn data) : (submit d type cls source fn data).mnt = d.mnt := rfl
@[simp] theorem submit_flt (d type cls source fn data) : (submit d type cls source fn data).flt = d.flt := rfl
@[simp] theorem submit_out (d type cls source fn data) : (submit d type cls source fn data).out = d.out := rfl
@[simp] theorem submit_sen_response (d type cls source fn data) : (submit d type cls source fn data).sen.response = d.sen.response := rfl
@[simp] theorem submit_sen_busy (d type cls source fn data) : (submit d type cls source fn data).sen.busy = d.sen.busy := rfl
@[simp] theorem submit_sen_lockCause (d type cls source fn data) : (submit d type cls source fn data).sen.lockCause = d.sen.lockCause := rfl
@[simp] theorem submit_sen_active (d type cls source fn data) : (submit d type cls source fn data).sen.active = d.sen.active := rfl
@[simp] theorem submit_sen_latched (d type cls source fn data) : (submit d type cls source fn data).sen.latched = d.sen.latched := rfl
@[simp] theorem submit_sen_cls (d type cls source fn data) : (submit d type cls source fn data).sen.cls = d.sen.cls := rfl
@[simp] theorem submit_sen_clsShadow (d type cls source fn data) : (submit d type cls source fn data).sen.clsShadow = d.sen.clsShadow := rfl
@[simp] theorem submit_sen_threshold (d type cls source fn data) : (submit d type cls source fn data).sen.threshold = d.sen.threshold := rfl
@[simp] theorem submit_sen_window (d type cls source fn data) : (submit d type cls source fn data).sen.window = d.sen.window := rfl
@[simp] theorem submit_sen_esc (d type cls source fn data) : (submit d type cls source fn data).sen.esc = d.sen.esc := rfl
@[simp] theorem submit_sen_thresholdShadow (d type cls source fn data) : (submit d type cls source fn data).sen.thresholdShadow = d.sen.thresholdShadow := rfl
@[simp] theorem submit_sen_windowShadow (d type cls source fn data) : (submit d type cls source fn data).sen.windowShadow = d.sen.windowShadow := rfl
@[simp] theorem submit_sen_escShadow (d type cls source fn data) : (submit d type cls source fn data).sen.escShadow = d.sen.escShadow := rfl
@[simp] theorem submit_sen_pending (d type cls source fn data) : (submit d type cls source fn data).sen.pending = d.sen.pending := rfl
@[simp] theorem submit_sen_commits (d type cls source fn data) : (submit d type cls source fn data).sen.commits = d.sen.commits := rfl
@[simp] theorem submit_sen_hist (d type cls source fn data) : (submit d type cls source fn data).sen.hist = d.sen.hist := rfl
@[simp] theorem submit_sen_log (d type cls source fn data) : (submit d type cls source fn data).sen.log = d.sen.log := rfl
@[simp] theorem submit_sen_nextSeq (d type cls source fn data) : (submit d type cls source fn data).sen.nextSeq = d.sen.nextSeq := rfl
@[simp] theorem submit_sen_oldest (d type cls source fn data) : (submit d type cls source fn data).sen.oldest = d.sen.oldest := rfl
@[simp] theorem submit_sen_lastChain (d type cls source fn data) : (submit d type cls source fn data).sen.lastChain = d.sen.lastChain := rfl
@[simp] theorem submit_sen_base (d type cls source fn data) : (submit d type cls source fn data).sen.base = d.sen.base := rfl
@[simp] theorem submit_sen_lost (d type cls source fn data) : (submit d type cls source fn data).sen.lost = d.sen.lost := rfl
@[simp] theorem submit_sen_readMax (d type cls source fn data) : (submit d type cls source fn data).sen.readMax = d.sen.readMax := rfl
@[simp] theorem submit_sen_releasing (d type cls source fn data) : (submit d type cls source fn data).sen.releasing = d.sen.releasing := rfl
@[simp] theorem submit_sen_full (d type cls source fn data) : (submit d type cls source fn data).sen.full = d.sen.full := rfl
@[simp] theorem submit_sen_event (d type cls source fn data) : (submit d type cls source fn data).sen.event = d.sen.event := rfl
@[simp] theorem submit_sen_eventEn (d type cls source fn data) : (submit d type cls source fn data).sen.eventEn = d.sen.eventEn := rfl
@[simp] theorem submit_sen_invalidAt (d type cls source fn data) : (submit d type cls source fn data).sen.invalidAt = d.sen.invalidAt := rfl
@[simp] theorem setCtx_otp (d k c) : (setCtx d k c).otp = d.otp := rfl
@[simp] theorem setCtx_keeper (d k c) : (setCtx d k c).keeper = d.keeper := rfl
@[simp] theorem setCtx_bay (d k c) : (setCtx d k c).bay = d.bay := rfl
@[simp] theorem setCtx_glb (d k c) : (setCtx d k c).glb = d.glb := rfl
@[simp] theorem setCtx_host (d k c) : (setCtx d k c).host = d.host := rfl
@[simp] theorem setCtx_tenants (d k c) : (setCtx d k c).tenants = d.tenants := rfl
@[simp] theorem setCtx_keys (d k c) : (setCtx d k c).keys = d.keys := rfl
@[simp] theorem setCtx_vmp (d k c) : (setCtx d k c).vmp = d.vmp := rfl
@[simp] theorem setCtx_eng (d k c) : (setCtx d k c).eng = d.eng := rfl
@[simp] theorem setCtx_ring (d k c) : (setCtx d k c).ring = d.ring := rfl
@[simp] theorem setCtx_act (d k c) : (setCtx d k c).act = d.act := rfl
@[simp] theorem setCtx_lcd (d k c) : (setCtx d k c).lcd = d.lcd := rfl
@[simp] theorem setCtx_sen (d k c) : (setCtx d k c).sen = d.sen := rfl
@[simp] theorem setCtx_cvu (d k c) : (setCtx d k c).cvu = d.cvu := rfl
@[simp] theorem setCtx_ent (d k c) : (setCtx d k c).ent = d.ent := rfl
@[simp] theorem setCtx_mnt (d k c) : (setCtx d k c).mnt = d.mnt := rfl
@[simp] theorem setCtx_flt (d k c) : (setCtx d k c).flt = d.flt := rfl
@[simp] theorem setCtx_out (d k c) : (setCtx d k c).out = d.out := rfl
@[simp] theorem setCtx_sch_ready (d k c) : (setCtx d k c).sch.ready = d.sch.ready := rfl
@[simp] theorem setCtx_sch_cores (d k c) : (setCtx d k c).sch.cores = d.sch.cores := rfl
@[simp] theorem setCtx_sch_dispatchOrder (d k c) : (setCtx d k c).sch.dispatchOrder = d.sch.dispatchOrder := rfl
@[simp] theorem setCtx_sch_mgmtReserve (d k c) : (setCtx d k c).sch.mgmtReserve = d.sch.mgmtReserve := rfl
@[simp] theorem setCtx_sch_mgmtShadow (d k c) : (setCtx d k c).sch.mgmtShadow = d.sch.mgmtShadow := rfl
@[simp] theorem setCtx_sch_runLimit (d k c) : (setCtx d k c).sch.runLimit = d.sch.runLimit := rfl
@[simp] theorem setCtx_sch_pending (d k c) : (setCtx d k c).sch.pending = d.sch.pending := rfl
@[simp] theorem setCtx_sch_commits (d k c) : (setCtx d k c).sch.commits = d.sch.commits := rfl
@[simp] theorem setCtx_sch_dispatchTotal (d k c) : (setCtx d k c).sch.dispatchTotal = d.sch.dispatchTotal := rfl
@[simp] theorem setCtx_sch_preemptTotal (d k c) : (setCtx d k c).sch.preemptTotal = d.sch.preemptTotal := rfl
@[simp] theorem setCtx_sch_flagOverrun (d k c) : (setCtx d k c).sch.flagOverrun = d.sch.flagOverrun := rfl
@[simp] theorem setCtx_sch_stray (d k c) : (setCtx d k c).sch.stray = d.sch.stray := rfl
@[simp] theorem setCtx_sch_runLimitHits (d k c) : (setCtx d k c).sch.runLimitHits = d.sch.runLimitHits := rfl
@[simp] theorem setCtx_sch_tenantSel (d k c) : (setCtx d k c).sch.tenantSel = d.sch.tenantSel := rfl
@[simp] theorem setCtx_sch_owed (d k c) : (setCtx d k c).sch.owed = d.sch.owed := rfl
@[simp] theorem setCtx_sch_toRun (d k c) : (setCtx d k c).sch.toRun = d.sch.toRun := rfl
@[simp] theorem modCtx_otp (d k f) : (modCtx d k f).otp = d.otp := rfl
@[simp] theorem modCtx_keeper (d k f) : (modCtx d k f).keeper = d.keeper := rfl
@[simp] theorem modCtx_bay (d k f) : (modCtx d k f).bay = d.bay := rfl
@[simp] theorem modCtx_glb (d k f) : (modCtx d k f).glb = d.glb := rfl
@[simp] theorem modCtx_host (d k f) : (modCtx d k f).host = d.host := rfl
@[simp] theorem modCtx_tenants (d k f) : (modCtx d k f).tenants = d.tenants := rfl
@[simp] theorem modCtx_keys (d k f) : (modCtx d k f).keys = d.keys := rfl
@[simp] theorem modCtx_vmp (d k f) : (modCtx d k f).vmp = d.vmp := rfl
@[simp] theorem modCtx_eng (d k f) : (modCtx d k f).eng = d.eng := rfl
@[simp] theorem modCtx_ring (d k f) : (modCtx d k f).ring = d.ring := rfl
@[simp] theorem modCtx_act (d k f) : (modCtx d k f).act = d.act := rfl
@[simp] theorem modCtx_lcd (d k f) : (modCtx d k f).lcd = d.lcd := rfl
@[simp] theorem modCtx_sen (d k f) : (modCtx d k f).sen = d.sen := rfl
@[simp] theorem modCtx_cvu (d k f) : (modCtx d k f).cvu = d.cvu := rfl
@[simp] theorem modCtx_ent (d k f) : (modCtx d k f).ent = d.ent := rfl
@[simp] theorem modCtx_mnt (d k f) : (modCtx d k f).mnt = d.mnt := rfl
@[simp] theorem modCtx_flt (d k f) : (modCtx d k f).flt = d.flt := rfl
@[simp] theorem modCtx_out (d k f) : (modCtx d k f).out = d.out := rfl
@[simp] theorem modCtx_sch_ready (d k f) : (modCtx d k f).sch.ready = d.sch.ready := rfl
@[simp] theorem modCtx_sch_cores (d k f) : (modCtx d k f).sch.cores = d.sch.cores := rfl
@[simp] theorem modCtx_sch_dispatchOrder (d k f) : (modCtx d k f).sch.dispatchOrder = d.sch.dispatchOrder := rfl
@[simp] theorem modCtx_sch_mgmtReserve (d k f) : (modCtx d k f).sch.mgmtReserve = d.sch.mgmtReserve := rfl
@[simp] theorem modCtx_sch_mgmtShadow (d k f) : (modCtx d k f).sch.mgmtShadow = d.sch.mgmtShadow := rfl
@[simp] theorem modCtx_sch_runLimit (d k f) : (modCtx d k f).sch.runLimit = d.sch.runLimit := rfl
@[simp] theorem modCtx_sch_pending (d k f) : (modCtx d k f).sch.pending = d.sch.pending := rfl
@[simp] theorem modCtx_sch_commits (d k f) : (modCtx d k f).sch.commits = d.sch.commits := rfl
@[simp] theorem modCtx_sch_dispatchTotal (d k f) : (modCtx d k f).sch.dispatchTotal = d.sch.dispatchTotal := rfl
@[simp] theorem modCtx_sch_preemptTotal (d k f) : (modCtx d k f).sch.preemptTotal = d.sch.preemptTotal := rfl
@[simp] theorem modCtx_sch_flagOverrun (d k f) : (modCtx d k f).sch.flagOverrun = d.sch.flagOverrun := rfl
@[simp] theorem modCtx_sch_stray (d k f) : (modCtx d k f).sch.stray = d.sch.stray := rfl
@[simp] theorem modCtx_sch_runLimitHits (d k f) : (modCtx d k f).sch.runLimitHits = d.sch.runLimitHits := rfl
@[simp] theorem modCtx_sch_tenantSel (d k f) : (modCtx d k f).sch.tenantSel = d.sch.tenantSel := rfl
@[simp] theorem modCtx_sch_owed (d k f) : (modCtx d k f).sch.owed = d.sch.owed := rfl
@[simp] theorem modCtx_sch_toRun (d k f) : (modCtx d k f).sch.toRun = d.sch.toRun := rfl
@[simp] theorem setTn_otp (d n t) : (setTn d n t).otp = d.otp := rfl
@[simp] theorem setTn_keeper (d n t) : (setTn d n t).keeper = d.keeper := rfl
@[simp] theorem setTn_bay (d n t) : (setTn d n t).bay = d.bay := rfl
@[simp] theorem setTn_glb (d n t) : (setTn d n t).glb = d.glb := rfl
@[simp] theorem setTn_host (d n t) : (setTn d n t).host = d.host := rfl
@[simp] theorem setTn_sch (d n t) : (setTn d n t).sch = d.sch := rfl
@[simp] theorem setTn_keys (d n t) : (setTn d n t).keys = d.keys := rfl
@[simp] theorem setTn_vmp (d n t) : (setTn d n t).vmp = d.vmp := rfl
@[simp] theorem setTn_eng (d n t) : (setTn d n t).eng = d.eng := rfl
@[simp] theorem setTn_ring (d n t) : (setTn d n t).ring = d.ring := rfl
@[simp] theorem setTn_act (d n t) : (setTn d n t).act = d.act := rfl
@[simp] theorem setTn_lcd (d n t) : (setTn d n t).lcd = d.lcd := rfl
@[simp] theorem setTn_sen (d n t) : (setTn d n t).sen = d.sen := rfl
@[simp] theorem setTn_cvu (d n t) : (setTn d n t).cvu = d.cvu := rfl
@[simp] theorem setTn_ent (d n t) : (setTn d n t).ent = d.ent := rfl
@[simp] theorem setTn_mnt (d n t) : (setTn d n t).mnt = d.mnt := rfl
@[simp] theorem setTn_flt (d n t) : (setTn d n t).flt = d.flt := rfl
@[simp] theorem setTn_out (d n t) : (setTn d n t).out = d.out := rfl
@[simp] theorem modTn_otp (d n f) : (modTn d n f).otp = d.otp := rfl
@[simp] theorem modTn_keeper (d n f) : (modTn d n f).keeper = d.keeper := rfl
@[simp] theorem modTn_bay (d n f) : (modTn d n f).bay = d.bay := rfl
@[simp] theorem modTn_glb (d n f) : (modTn d n f).glb = d.glb := rfl
@[simp] theorem modTn_host (d n f) : (modTn d n f).host = d.host := rfl
@[simp] theorem modTn_sch (d n f) : (modTn d n f).sch = d.sch := rfl
@[simp] theorem modTn_keys (d n f) : (modTn d n f).keys = d.keys := rfl
@[simp] theorem modTn_vmp (d n f) : (modTn d n f).vmp = d.vmp := rfl
@[simp] theorem modTn_eng (d n f) : (modTn d n f).eng = d.eng := rfl
@[simp] theorem modTn_ring (d n f) : (modTn d n f).ring = d.ring := rfl
@[simp] theorem modTn_act (d n f) : (modTn d n f).act = d.act := rfl
@[simp] theorem modTn_lcd (d n f) : (modTn d n f).lcd = d.lcd := rfl
@[simp] theorem modTn_sen (d n f) : (modTn d n f).sen = d.sen := rfl
@[simp] theorem modTn_cvu (d n f) : (modTn d n f).cvu = d.cvu := rfl
@[simp] theorem modTn_ent (d n f) : (modTn d n f).ent = d.ent := rfl
@[simp] theorem modTn_mnt (d n f) : (modTn d n f).mnt = d.mnt := rfl
@[simp] theorem modTn_flt (d n f) : (modTn d n f).flt = d.flt := rfl
@[simp] theorem modTn_out (d n f) : (modTn d n f).out = d.out := rfl
@[simp] theorem setQp_otp (d fn q p) : (setQp d fn q p).otp = d.otp := by unfold setQp; split <;> simp
@[simp] theorem setQp_keeper (d fn q p) : (setQp d fn q p).keeper = d.keeper := by unfold setQp; split <;> simp
@[simp] theorem setQp_bay (d fn q p) : (setQp d fn q p).bay = d.bay := by unfold setQp; split <;> simp
@[simp] theorem setQp_host (d fn q p) : (setQp d fn q p).host = d.host := by unfold setQp; split <;> simp
@[simp] theorem setQp_sch (d fn q p) : (setQp d fn q p).sch = d.sch := by unfold setQp; split <;> simp
@[simp] theorem setQp_keys (d fn q p) : (setQp d fn q p).keys = d.keys := by unfold setQp; split <;> simp
@[simp] theorem setQp_vmp (d fn q p) : (setQp d fn q p).vmp = d.vmp := by unfold setQp; split <;> simp
@[simp] theorem setQp_eng (d fn q p) : (setQp d fn q p).eng = d.eng := by unfold setQp; split <;> simp
@[simp] theorem setQp_ring (d fn q p) : (setQp d fn q p).ring = d.ring := by unfold setQp; split <;> simp
@[simp] theorem setQp_act (d fn q p) : (setQp d fn q p).act = d.act := by unfold setQp; split <;> simp
@[simp] theorem setQp_lcd (d fn q p) : (setQp d fn q p).lcd = d.lcd := by unfold setQp; split <;> simp
@[simp] theorem setQp_sen (d fn q p) : (setQp d fn q p).sen = d.sen := by unfold setQp; split <;> simp
@[simp] theorem setQp_cvu (d fn q p) : (setQp d fn q p).cvu = d.cvu := by unfold setQp; split <;> simp
@[simp] theorem setQp_ent (d fn q p) : (setQp d fn q p).ent = d.ent := by unfold setQp; split <;> simp
@[simp] theorem setQp_mnt (d fn q p) : (setQp d fn q p).mnt = d.mnt := by unfold setQp; split <;> simp
@[simp] theorem setQp_flt (d fn q p) : (setQp d fn q p).flt = d.flt := by unfold setQp; split <;> simp
@[simp] theorem setQp_out (d fn q p) : (setQp d fn q p).out = d.out := by unfold setQp; split <;> simp
@[simp] theorem modQp_otp (d fn q f) : (modQp d fn q f).otp = d.otp := by simp [modQp]
@[simp] theorem modQp_keeper (d fn q f) : (modQp d fn q f).keeper = d.keeper := by simp [modQp]
@[simp] theorem modQp_bay (d fn q f) : (modQp d fn q f).bay = d.bay := by simp [modQp]
@[simp] theorem modQp_host (d fn q f) : (modQp d fn q f).host = d.host := by simp [modQp]
@[simp] theorem modQp_sch (d fn q f) : (modQp d fn q f).sch = d.sch := by simp [modQp]
@[simp] theorem modQp_keys (d fn q f) : (modQp d fn q f).keys = d.keys := by simp [modQp]
@[simp] theorem modQp_vmp (d fn q f) : (modQp d fn q f).vmp = d.vmp := by simp [modQp]
@[simp] theorem modQp_eng (d fn q f) : (modQp d fn q f).eng = d.eng := by simp [modQp]
@[simp] theorem modQp_ring (d fn q f) : (modQp d fn q f).ring = d.ring := by simp [modQp]
@[simp] theorem modQp_act (d fn q f) : (modQp d fn q f).act = d.act := by simp [modQp]
@[simp] theorem modQp_lcd (d fn q f) : (modQp d fn q f).lcd = d.lcd := by simp [modQp]
@[simp] theorem modQp_sen (d fn q f) : (modQp d fn q f).sen = d.sen := by simp [modQp]
@[simp] theorem modQp_cvu (d fn q f) : (modQp d fn q f).cvu = d.cvu := by simp [modQp]
@[simp] theorem modQp_ent (d fn q f) : (modQp d fn q f).ent = d.ent := by simp [modQp]
@[simp] theorem modQp_mnt (d fn q f) : (modQp d fn q f).mnt = d.mnt := by simp [modQp]
@[simp] theorem modQp_flt (d fn q f) : (modQp d fn q f).flt = d.flt := by simp [modQp]
@[simp] theorem modQp_out (d fn q f) : (modQp d fn q f).out = d.out := by simp [modQp]
@[simp] theorem setRoot_otp (d s v) : (setRoot d s v).otp = d.otp := rfl
@[simp] theorem setRoot_keeper (d s v) : (setRoot d s v).keeper = d.keeper := rfl
@[simp] theorem setRoot_bay (d s v) : (setRoot d s v).bay = d.bay := rfl
@[simp] theorem setRoot_glb (d s v) : (setRoot d s v).glb = d.glb := rfl
@[simp] theorem setRoot_host (d s v) : (setRoot d s v).host = d.host := rfl
@[simp] theorem setRoot_tenants (d s v) : (setRoot d s v).tenants = d.tenants := rfl
@[simp] theorem setRoot_sch (d s v) : (setRoot d s v).sch = d.sch := rfl
@[simp] theorem setRoot_vmp (d s v) : (setRoot d s v).vmp = d.vmp := rfl
@[simp] theorem setRoot_eng (d s v) : (setRoot d s v).eng = d.eng := rfl
@[simp] theorem setRoot_ring (d s v) : (setRoot d s v).ring = d.ring := rfl
@[simp] theorem setRoot_act (d s v) : (setRoot d s v).act = d.act := rfl
@[simp] theorem setRoot_lcd (d s v) : (setRoot d s v).lcd = d.lcd := rfl
@[simp] theorem setRoot_sen (d s v) : (setRoot d s v).sen = d.sen := rfl
@[simp] theorem setRoot_cvu (d s v) : (setRoot d s v).cvu = d.cvu := rfl
@[simp] theorem setRoot_ent (d s v) : (setRoot d s v).ent = d.ent := rfl
@[simp] theorem setRoot_mnt (d s v) : (setRoot d s v).mnt = d.mnt := rfl
@[simp] theorem setRoot_flt (d s v) : (setRoot d s v).flt = d.flt := rfl
@[simp] theorem setRoot_out (d s v) : (setRoot d s v).out = d.out := rfl
@[simp] theorem setRoot_keys_floor (d s v) : (setRoot d s v).keys.floor = d.keys.floor := rfl
@[simp] theorem setRoot_keys_maskKey (d s v) : (setRoot d s v).keys.maskKey = d.keys.maskKey := rfl
@[simp] theorem setRoot_keys_tagKey (d s v) : (setRoot d s v).keys.tagKey = d.keys.tagKey := rfl
@[simp] theorem setRoot_keys_marks (d s v) : (setRoot d s v).keys.marks = d.keys.marks := rfl
@[simp] theorem setRoot_keys_everUsed (d s v) : (setRoot d s v).keys.everUsed = d.keys.everUsed := rfl
@[simp] theorem setRoot_keys_nonces (d s v) : (setRoot d s v).keys.nonces = d.keys.nonces := rfl
@[simp] theorem setRoot_keys_stash (d s v) : (setRoot d s v).keys.stash = d.keys.stash := rfl
@[simp] theorem setRoot_keys_cache (d s v) : (setRoot d s v).keys.cache = d.keys.cache := rfl
@[simp] theorem setRoot_keys_floorSpent (d s v) : (setRoot d s v).keys.floorSpent = d.keys.floorSpent := rfl
@[simp] theorem setBme_otp (d fn v) : (setBme d fn v).otp = d.otp := by unfold setBme; split <;> simp
@[simp] theorem setBme_keeper (d fn v) : (setBme d fn v).keeper = d.keeper := by unfold setBme; split <;> simp
@[simp] theorem setBme_bay (d fn v) : (setBme d fn v).bay = d.bay := by unfold setBme; split <;> simp
@[simp] theorem setBme_glb (d fn v) : (setBme d fn v).glb = d.glb := by unfold setBme; split <;> simp
@[simp] theorem setBme_sch (d fn v) : (setBme d fn v).sch = d.sch := by unfold setBme; split <;> simp
@[simp] theorem setBme_keys (d fn v) : (setBme d fn v).keys = d.keys := by unfold setBme; split <;> simp
@[simp] theorem setBme_vmp (d fn v) : (setBme d fn v).vmp = d.vmp := by unfold setBme; split <;> simp
@[simp] theorem setBme_eng (d fn v) : (setBme d fn v).eng = d.eng := by unfold setBme; split <;> simp
@[simp] theorem setBme_ring (d fn v) : (setBme d fn v).ring = d.ring := by unfold setBme; split <;> simp
@[simp] theorem setBme_act (d fn v) : (setBme d fn v).act = d.act := by unfold setBme; split <;> simp
@[simp] theorem setBme_lcd (d fn v) : (setBme d fn v).lcd = d.lcd := by unfold setBme; split <;> simp
@[simp] theorem setBme_sen (d fn v) : (setBme d fn v).sen = d.sen := by unfold setBme; split <;> simp
@[simp] theorem setBme_cvu (d fn v) : (setBme d fn v).cvu = d.cvu := by unfold setBme; split <;> simp
@[simp] theorem setBme_ent (d fn v) : (setBme d fn v).ent = d.ent := by unfold setBme; split <;> simp
@[simp] theorem setBme_mnt (d fn v) : (setBme d fn v).mnt = d.mnt := by unfold setBme; split <;> simp
@[simp] theorem setBme_flt (d fn v) : (setBme d fn v).flt = d.flt := by unfold setBme; split <;> simp
@[simp] theorem setBme_out (d fn v) : (setBme d fn v).out = d.out := by unfold setBme; split <;> simp
@[simp] theorem modPeer_otp (d m f) : (modPeer d m f).otp = d.otp := rfl
@[simp] theorem modPeer_keeper (d m f) : (modPeer d m f).keeper = d.keeper := rfl
@[simp] theorem modPeer_bay (d m f) : (modPeer d m f).bay = d.bay := rfl
@[simp] theorem modPeer_glb (d m f) : (modPeer d m f).glb = d.glb := rfl
@[simp] theorem modPeer_host (d m f) : (modPeer d m f).host = d.host := rfl
@[simp] theorem modPeer_tenants (d m f) : (modPeer d m f).tenants = d.tenants := rfl
@[simp] theorem modPeer_sch (d m f) : (modPeer d m f).sch = d.sch := rfl
@[simp] theorem modPeer_keys (d m f) : (modPeer d m f).keys = d.keys := rfl
@[simp] theorem modPeer_vmp (d m f) : (modPeer d m f).vmp = d.vmp := rfl
@[simp] theorem modPeer_eng (d m f) : (modPeer d m f).eng = d.eng := rfl
@[simp] theorem modPeer_act (d m f) : (modPeer d m f).act = d.act := rfl
@[simp] theorem modPeer_lcd (d m f) : (modPeer d m f).lcd = d.lcd := rfl
@[simp] theorem modPeer_sen (d m f) : (modPeer d m f).sen = d.sen := rfl
@[simp] theorem modPeer_cvu (d m f) : (modPeer d m f).cvu = d.cvu := rfl
@[simp] theorem modPeer_ent (d m f) : (modPeer d m f).ent = d.ent := rfl
@[simp] theorem modPeer_mnt (d m f) : (modPeer d m f).mnt = d.mnt := rfl
@[simp] theorem modPeer_flt (d m f) : (modPeer d m f).flt = d.flt := rfl
@[simp] theorem modPeer_out (d m f) : (modPeer d m f).out = d.out := rfl
@[simp] theorem modPeer_ring_st (d m f) : (modPeer d m f).ring.st = d.ring.st := rfl
@[simp] theorem modPeer_ring_config (d m f) : (modPeer d m f).ring.config = d.ring.config := rfl
@[simp] theorem modPeer_ring_nextConfig (d m f) : (modPeer d m f).ring.nextConfig = d.ring.nextConfig := rfl
@[simp] theorem modPeer_ring_joinEn (d m f) : (modPeer d m f).ring.joinEn = d.ring.joinEn := rfl
@[simp] theorem modPeer_ring_replRate (d m f) : (modPeer d m f).ring.replRate = d.ring.replRate := rfl
@[simp] theorem modPeer_ring_replShadow (d m f) : (modPeer d m f).ring.replShadow = d.ring.replShadow := rfl
@[simp] theorem modPeer_ring_formWait (d m f) : (modPeer d m f).ring.formWait = d.ring.formWait := rfl
@[simp] theorem modPeer_ring_pending (d m f) : (modPeer d m f).ring.pending = d.ring.pending := rfl
@[simp] theorem modPeer_ring_commits (d m f) : (modPeer d m f).ring.commits = d.ring.commits := rfl
@[simp] theorem modPeer_ring_epoch (d m f) : (modPeer d m f).ring.epoch = d.ring.epoch := rfl
@[simp] theorem modPeer_ring_present (d m f) : (modPeer d m f).ring.present = d.ring.present := rfl
@[simp] theorem modPeer_ring_acting (d m f) : (modPeer d m f).ring.acting = d.ring.acting := rfl
@[simp] theorem modPeer_ring_mapSeq (d m f) : (modPeer d m f).ring.mapSeq = d.ring.mapSeq := rfl
@[simp] theorem modPeer_ring_map (d m f) : (modPeer d m f).ring.map = d.ring.map := rfl
@[simp] theorem modPeer_ring_east (d m f) : (modPeer d m f).ring.east = d.ring.east := rfl
@[simp] theorem modPeer_ring_west (d m f) : (modPeer d m f).ring.west = d.ring.west := rfl
@[simp] theorem modPeer_ring_ringKey (d m f) : (modPeer d m f).ring.ringKey = d.ring.ringKey := rfl
@[simp] theorem modPeer_ring_prevKey (d m f) : (modPeer d m f).ring.prevKey = d.ring.prevKey := rfl
@[simp] theorem modPeer_ring_nextKey (d m f) : (modPeer d m f).ring.nextKey = d.ring.nextKey := rfl
@[simp] theorem modPeer_ring_mapEpoch (d m f) : (modPeer d m f).ring.mapEpoch = d.ring.mapEpoch := rfl
@[simp] theorem modPeer_ring_formatDue (d m f) : (modPeer d m f).ring.formatDue = d.ring.formatDue := rfl
@[simp] theorem modPeer_ring_foundRing (d m f) : (modPeer d m f).ring.foundRing = d.ring.foundRing := rfl
@[simp] theorem modPeer_ring_kemPriv (d m f) : (modPeer d m f).ring.kemPriv = d.ring.kemPriv := rfl
@[simp] theorem modPeer_ring_frameCount (d m f) : (modPeer d m f).ring.frameCount = d.ring.frameCount := rfl
@[simp] theorem modPeer_ring_clock (d m f) : (modPeer d m f).ring.clock = d.ring.clock := rfl
@[simp] theorem modPeer_ring_clockFloor (d m f) : (modPeer d m f).ring.clockFloor = d.ring.clockFloor := rfl
@[simp] theorem modPeer_ring_issueNo (d m f) : (modPeer d m f).ring.issueNo = d.ring.issueNo := rfl
@[simp] theorem modPeer_ring_cache (d m f) : (modPeer d m f).ring.cache = d.ring.cache := rfl
@[simp] theorem modPeer_ring_locks (d m f) : (modPeer d m f).ring.locks = d.ring.locks := rfl
@[simp] theorem modPeer_ring_grants (d m f) : (modPeer d m f).ring.grants = d.ring.grants := rfl
@[simp] theorem modPeer_ring_forwarded (d m f) : (modPeer d m f).ring.forwarded = d.ring.forwarded := rfl
@[simp] theorem modPeer_ring_reissues (d m f) : (modPeer d m f).ring.reissues = d.ring.reissues := rfl
@[simp] theorem modPeer_ring_losses (d m f) : (modPeer d m f).ring.losses = d.ring.losses := rfl
@[simp] theorem modPeer_ring_resends (d m f) : (modPeer d m f).ring.resends = d.ring.resends := rfl
@[simp] theorem modPeer_ring_integrity (d m f) : (modPeer d m f).ring.integrity = d.ring.integrity := rfl
@[simp] theorem modPeer_ring_peerSel (d m f) : (modPeer d m f).ring.peerSel = d.ring.peerSel := rfl
@[simp] theorem modPeer_ring_event (d m f) : (modPeer d m f).ring.event = d.ring.event := rfl
@[simp] theorem modPeer_ring_eventEn (d m f) : (modPeer d m f).ring.eventEn = d.ring.eventEn := rfl
@[simp] theorem modPeer_ring_leavers (d m f) : (modPeer d m f).ring.leavers = d.ring.leavers := rfl
@[simp] theorem modPeer_ring_joiners (d m f) : (modPeer d m f).ring.joiners = d.ring.joiners := rfl
@[simp] theorem modPeer_ring_suspects (d m f) : (modPeer d m f).ring.suspects = d.ring.suspects := rfl
@[simp] theorem modPeer_ring_retry (d m f) : (modPeer d m f).ring.retry = d.ring.retry := rfl
@[simp] theorem modPeer_ring_loopProof (d m f) : (modPeer d m f).ring.loopProof = d.ring.loopProof := rfl
@[simp] theorem modPeer_ring_proofHeld (d m f) : (modPeer d m f).ring.proofHeld = d.ring.proofHeld := rfl
@[simp] theorem modPeer_ring_copying (d m f) : (modPeer d m f).ring.copying = d.ring.copying := rfl
@[simp] theorem modPeer_ring_syncAsked (d m f) : (modPeer d m f).ring.syncAsked = d.ring.syncAsked := rfl
@[simp] theorem modPeer_ring_syncLow (d m f) : (modPeer d m f).ring.syncLow = d.ring.syncLow := rfl
@[simp] theorem modPeer_ring_syncOwed (d m f) : (modPeer d m f).ring.syncOwed = d.ring.syncOwed := rfl
@[simp] theorem modPeer_ring_gathered (d m f) : (modPeer d m f).ring.gathered = d.ring.gathered := rfl
@[simp] theorem modPeer_ring_gatherLeft (d m f) : (modPeer d m f).ring.gatherLeft = d.ring.gatherLeft := rfl
@[simp] theorem modPeer_ring_gatherCtx (d m f) : (modPeer d m f).ring.gatherCtx = d.ring.gatherCtx := rfl
@[simp] theorem modPeer_ring_gatherDone (d m f) : (modPeer d m f).ring.gatherDone = d.ring.gatherDone := rfl
@[simp] theorem modPeer_ring_waitAcks (d m f) : (modPeer d m f).ring.waitAcks = d.ring.waitAcks := rfl
@[simp] theorem modPeer_ring_lostFrom (d m f) : (modPeer d m f).ring.lostFrom = d.ring.lostFrom := rfl
@[simp] theorem setMap_otp (d b e) : (setMap d b e).otp = d.otp := rfl
@[simp] theorem setMap_keeper (d b e) : (setMap d b e).keeper = d.keeper := rfl
@[simp] theorem setMap_bay (d b e) : (setMap d b e).bay = d.bay := rfl
@[simp] theorem setMap_glb (d b e) : (setMap d b e).glb = d.glb := rfl
@[simp] theorem setMap_host (d b e) : (setMap d b e).host = d.host := rfl
@[simp] theorem setMap_tenants (d b e) : (setMap d b e).tenants = d.tenants := rfl
@[simp] theorem setMap_sch (d b e) : (setMap d b e).sch = d.sch := rfl
@[simp] theorem setMap_keys (d b e) : (setMap d b e).keys = d.keys := rfl
@[simp] theorem setMap_vmp (d b e) : (setMap d b e).vmp = d.vmp := rfl
@[simp] theorem setMap_eng (d b e) : (setMap d b e).eng = d.eng := rfl
@[simp] theorem setMap_act (d b e) : (setMap d b e).act = d.act := rfl
@[simp] theorem setMap_lcd (d b e) : (setMap d b e).lcd = d.lcd := rfl
@[simp] theorem setMap_sen (d b e) : (setMap d b e).sen = d.sen := rfl
@[simp] theorem setMap_cvu (d b e) : (setMap d b e).cvu = d.cvu := rfl
@[simp] theorem setMap_ent (d b e) : (setMap d b e).ent = d.ent := rfl
@[simp] theorem setMap_mnt (d b e) : (setMap d b e).mnt = d.mnt := rfl
@[simp] theorem setMap_flt (d b e) : (setMap d b e).flt = d.flt := rfl
@[simp] theorem setMap_out (d b e) : (setMap d b e).out = d.out := rfl
@[simp] theorem setMap_ring_st (d b e) : (setMap d b e).ring.st = d.ring.st := rfl
@[simp] theorem setMap_ring_config (d b e) : (setMap d b e).ring.config = d.ring.config := rfl
@[simp] theorem setMap_ring_nextConfig (d b e) : (setMap d b e).ring.nextConfig = d.ring.nextConfig := rfl
@[simp] theorem setMap_ring_joinEn (d b e) : (setMap d b e).ring.joinEn = d.ring.joinEn := rfl
@[simp] theorem setMap_ring_replRate (d b e) : (setMap d b e).ring.replRate = d.ring.replRate := rfl
@[simp] theorem setMap_ring_replShadow (d b e) : (setMap d b e).ring.replShadow = d.ring.replShadow := rfl
@[simp] theorem setMap_ring_formWait (d b e) : (setMap d b e).ring.formWait = d.ring.formWait := rfl
@[simp] theorem setMap_ring_pending (d b e) : (setMap d b e).ring.pending = d.ring.pending := rfl
@[simp] theorem setMap_ring_commits (d b e) : (setMap d b e).ring.commits = d.ring.commits := rfl
@[simp] theorem setMap_ring_epoch (d b e) : (setMap d b e).ring.epoch = d.ring.epoch := rfl
@[simp] theorem setMap_ring_present (d b e) : (setMap d b e).ring.present = d.ring.present := rfl
@[simp] theorem setMap_ring_acting (d b e) : (setMap d b e).ring.acting = d.ring.acting := rfl
@[simp] theorem setMap_ring_mapSeq (d b e) : (setMap d b e).ring.mapSeq = d.ring.mapSeq := rfl
@[simp] theorem setMap_ring_east (d b e) : (setMap d b e).ring.east = d.ring.east := rfl
@[simp] theorem setMap_ring_west (d b e) : (setMap d b e).ring.west = d.ring.west := rfl
@[simp] theorem setMap_ring_peers (d b e) : (setMap d b e).ring.peers = d.ring.peers := rfl
@[simp] theorem setMap_ring_ringKey (d b e) : (setMap d b e).ring.ringKey = d.ring.ringKey := rfl
@[simp] theorem setMap_ring_prevKey (d b e) : (setMap d b e).ring.prevKey = d.ring.prevKey := rfl
@[simp] theorem setMap_ring_nextKey (d b e) : (setMap d b e).ring.nextKey = d.ring.nextKey := rfl
@[simp] theorem setMap_ring_mapEpoch (d b e) : (setMap d b e).ring.mapEpoch = d.ring.mapEpoch := rfl
@[simp] theorem setMap_ring_formatDue (d b e) : (setMap d b e).ring.formatDue = d.ring.formatDue := rfl
@[simp] theorem setMap_ring_foundRing (d b e) : (setMap d b e).ring.foundRing = d.ring.foundRing := rfl
@[simp] theorem setMap_ring_kemPriv (d b e) : (setMap d b e).ring.kemPriv = d.ring.kemPriv := rfl
@[simp] theorem setMap_ring_frameCount (d b e) : (setMap d b e).ring.frameCount = d.ring.frameCount := rfl
@[simp] theorem setMap_ring_clock (d b e) : (setMap d b e).ring.clock = d.ring.clock := rfl
@[simp] theorem setMap_ring_clockFloor (d b e) : (setMap d b e).ring.clockFloor = d.ring.clockFloor := rfl
@[simp] theorem setMap_ring_issueNo (d b e) : (setMap d b e).ring.issueNo = d.ring.issueNo := rfl
@[simp] theorem setMap_ring_cache (d b e) : (setMap d b e).ring.cache = d.ring.cache := rfl
@[simp] theorem setMap_ring_locks (d b e) : (setMap d b e).ring.locks = d.ring.locks := rfl
@[simp] theorem setMap_ring_grants (d b e) : (setMap d b e).ring.grants = d.ring.grants := rfl
@[simp] theorem setMap_ring_forwarded (d b e) : (setMap d b e).ring.forwarded = d.ring.forwarded := rfl
@[simp] theorem setMap_ring_reissues (d b e) : (setMap d b e).ring.reissues = d.ring.reissues := rfl
@[simp] theorem setMap_ring_losses (d b e) : (setMap d b e).ring.losses = d.ring.losses := rfl
@[simp] theorem setMap_ring_resends (d b e) : (setMap d b e).ring.resends = d.ring.resends := rfl
@[simp] theorem setMap_ring_integrity (d b e) : (setMap d b e).ring.integrity = d.ring.integrity := rfl
@[simp] theorem setMap_ring_peerSel (d b e) : (setMap d b e).ring.peerSel = d.ring.peerSel := rfl
@[simp] theorem setMap_ring_event (d b e) : (setMap d b e).ring.event = d.ring.event := rfl
@[simp] theorem setMap_ring_eventEn (d b e) : (setMap d b e).ring.eventEn = d.ring.eventEn := rfl
@[simp] theorem setMap_ring_leavers (d b e) : (setMap d b e).ring.leavers = d.ring.leavers := rfl
@[simp] theorem setMap_ring_joiners (d b e) : (setMap d b e).ring.joiners = d.ring.joiners := rfl
@[simp] theorem setMap_ring_suspects (d b e) : (setMap d b e).ring.suspects = d.ring.suspects := rfl
@[simp] theorem setMap_ring_retry (d b e) : (setMap d b e).ring.retry = d.ring.retry := rfl
@[simp] theorem setMap_ring_loopProof (d b e) : (setMap d b e).ring.loopProof = d.ring.loopProof := rfl
@[simp] theorem setMap_ring_proofHeld (d b e) : (setMap d b e).ring.proofHeld = d.ring.proofHeld := rfl
@[simp] theorem setMap_ring_copying (d b e) : (setMap d b e).ring.copying = d.ring.copying := rfl
@[simp] theorem setMap_ring_syncAsked (d b e) : (setMap d b e).ring.syncAsked = d.ring.syncAsked := rfl
@[simp] theorem setMap_ring_syncLow (d b e) : (setMap d b e).ring.syncLow = d.ring.syncLow := rfl
@[simp] theorem setMap_ring_syncOwed (d b e) : (setMap d b e).ring.syncOwed = d.ring.syncOwed := rfl
@[simp] theorem setMap_ring_gathered (d b e) : (setMap d b e).ring.gathered = d.ring.gathered := rfl
@[simp] theorem setMap_ring_gatherLeft (d b e) : (setMap d b e).ring.gatherLeft = d.ring.gatherLeft := rfl
@[simp] theorem setMap_ring_gatherCtx (d b e) : (setMap d b e).ring.gatherCtx = d.ring.gatherCtx := rfl
@[simp] theorem setMap_ring_gatherDone (d b e) : (setMap d b e).ring.gatherDone = d.ring.gatherDone := rfl
@[simp] theorem setMap_ring_waitAcks (d b e) : (setMap d b e).ring.waitAcks = d.ring.waitAcks := rfl
@[simp] theorem setMap_ring_lostFrom (d b e) : (setMap d b e).ring.lostFrom = d.ring.lostFrom := rfl
@[simp] theorem place_otp (d e) : (place d e).otp = d.otp := rfl
@[simp] theorem place_keeper (d e) : (place d e).keeper = d.keeper := rfl
@[simp] theorem place_bay (d e) : (place d e).bay = d.bay := rfl
@[simp] theorem place_glb (d e) : (place d e).glb = d.glb := rfl
@[simp] theorem place_host (d e) : (place d e).host = d.host := rfl
@[simp] theorem place_tenants (d e) : (place d e).tenants = d.tenants := rfl
@[simp] theorem place_sch (d e) : (place d e).sch = d.sch := rfl
@[simp] theorem place_keys (d e) : (place d e).keys = d.keys := rfl
@[simp] theorem place_vmp (d e) : (place d e).vmp = d.vmp := rfl
@[simp] theorem place_eng (d e) : (place d e).eng = d.eng := rfl
@[simp] theorem place_ring (d e) : (place d e).ring = d.ring := rfl
@[simp] theorem place_act (d e) : (place d e).act = d.act := rfl
@[simp] theorem place_lcd (d e) : (place d e).lcd = d.lcd := rfl
@[simp] theorem place_cvu (d e) : (place d e).cvu = d.cvu := rfl
@[simp] theorem place_ent (d e) : (place d e).ent = d.ent := rfl
@[simp] theorem place_mnt (d e) : (place d e).mnt = d.mnt := rfl
@[simp] theorem place_flt (d e) : (place d e).flt = d.flt := rfl
@[simp] theorem place_out (d e) : (place d e).out = d.out := rfl
@[simp] theorem place_sen_response (d e) : (place d e).sen.response = d.sen.response := rfl
@[simp] theorem place_sen_busy (d e) : (place d e).sen.busy = d.sen.busy := rfl
@[simp] theorem place_sen_lockCause (d e) : (place d e).sen.lockCause = d.sen.lockCause := rfl
@[simp] theorem place_sen_active (d e) : (place d e).sen.active = d.sen.active := rfl
@[simp] theorem place_sen_latched (d e) : (place d e).sen.latched = d.sen.latched := rfl
@[simp] theorem place_sen_cls (d e) : (place d e).sen.cls = d.sen.cls := rfl
@[simp] theorem place_sen_clsShadow (d e) : (place d e).sen.clsShadow = d.sen.clsShadow := rfl
@[simp] theorem place_sen_threshold (d e) : (place d e).sen.threshold = d.sen.threshold := rfl
@[simp] theorem place_sen_window (d e) : (place d e).sen.window = d.sen.window := rfl
@[simp] theorem place_sen_esc (d e) : (place d e).sen.esc = d.sen.esc := rfl
@[simp] theorem place_sen_thresholdShadow (d e) : (place d e).sen.thresholdShadow = d.sen.thresholdShadow := rfl
@[simp] theorem place_sen_windowShadow (d e) : (place d e).sen.windowShadow = d.sen.windowShadow := rfl
@[simp] theorem place_sen_escShadow (d e) : (place d e).sen.escShadow = d.sen.escShadow := rfl
@[simp] theorem place_sen_pending (d e) : (place d e).sen.pending = d.sen.pending := rfl
@[simp] theorem place_sen_commits (d e) : (place d e).sen.commits = d.sen.commits := rfl
@[simp] theorem place_sen_hist (d e) : (place d e).sen.hist = d.sen.hist := rfl
@[simp] theorem place_sen_oldest (d e) : (place d e).sen.oldest = d.sen.oldest := rfl
@[simp] theorem place_sen_base (d e) : (place d e).sen.base = d.sen.base := rfl
@[simp] theorem place_sen_lost (d e) : (place d e).sen.lost = d.sen.lost := rfl
@[simp] theorem place_sen_readMax (d e) : (place d e).sen.readMax = d.sen.readMax := rfl
@[simp] theorem place_sen_releasing (d e) : (place d e).sen.releasing = d.sen.releasing := rfl
@[simp] theorem place_sen_submitted (d e) : (place d e).sen.submitted = d.sen.submitted := rfl
@[simp] theorem place_sen_eventEn (d e) : (place d e).sen.eventEn = d.sen.eventEn := rfl
@[simp] theorem place_sen_invalidAt (d e) : (place d e).sen.invalidAt = d.sen.invalidAt := rfl
@[simp] theorem lose_otp (d) : (lose d).otp = d.otp := rfl
@[simp] theorem lose_keeper (d) : (lose d).keeper = d.keeper := rfl
@[simp] theorem lose_bay (d) : (lose d).bay = d.bay := rfl
@[simp] theorem lose_glb (d) : (lose d).glb = d.glb := rfl
@[simp] theorem lose_host (d) : (lose d).host = d.host := rfl
@[simp] theorem lose_tenants (d) : (lose d).tenants = d.tenants := rfl
@[simp] theorem lose_sch (d) : (lose d).sch = d.sch := rfl
@[simp] theorem lose_keys (d) : (lose d).keys = d.keys := rfl
@[simp] theorem lose_vmp (d) : (lose d).vmp = d.vmp := rfl
@[simp] theorem lose_eng (d) : (lose d).eng = d.eng := rfl
@[simp] theorem lose_ring (d) : (lose d).ring = d.ring := rfl
@[simp] theorem lose_act (d) : (lose d).act = d.act := rfl
@[simp] theorem lose_lcd (d) : (lose d).lcd = d.lcd := rfl
@[simp] theorem lose_cvu (d) : (lose d).cvu = d.cvu := rfl
@[simp] theorem lose_ent (d) : (lose d).ent = d.ent := rfl
@[simp] theorem lose_mnt (d) : (lose d).mnt = d.mnt := rfl
@[simp] theorem lose_flt (d) : (lose d).flt = d.flt := rfl
@[simp] theorem lose_out (d) : (lose d).out = d.out := rfl
@[simp] theorem lose_sen_response (d) : (lose d).sen.response = d.sen.response := rfl
@[simp] theorem lose_sen_busy (d) : (lose d).sen.busy = d.sen.busy := rfl
@[simp] theorem lose_sen_lockCause (d) : (lose d).sen.lockCause = d.sen.lockCause := rfl
@[simp] theorem lose_sen_active (d) : (lose d).sen.active = d.sen.active := rfl
@[simp] theorem lose_sen_latched (d) : (lose d).sen.latched = d.sen.latched := rfl
@[simp] theorem lose_sen_cls (d) : (lose d).sen.cls = d.sen.cls := rfl
@[simp] theorem lose_sen_clsShadow (d) : (lose d).sen.clsShadow = d.sen.clsShadow := rfl
@[simp] theorem lose_sen_threshold (d) : (lose d).sen.threshold = d.sen.threshold := rfl
@[simp] theorem lose_sen_window (d) : (lose d).sen.window = d.sen.window := rfl
@[simp] theorem lose_sen_esc (d) : (lose d).sen.esc = d.sen.esc := rfl
@[simp] theorem lose_sen_thresholdShadow (d) : (lose d).sen.thresholdShadow = d.sen.thresholdShadow := rfl
@[simp] theorem lose_sen_windowShadow (d) : (lose d).sen.windowShadow = d.sen.windowShadow := rfl
@[simp] theorem lose_sen_escShadow (d) : (lose d).sen.escShadow = d.sen.escShadow := rfl
@[simp] theorem lose_sen_pending (d) : (lose d).sen.pending = d.sen.pending := rfl
@[simp] theorem lose_sen_commits (d) : (lose d).sen.commits = d.sen.commits := rfl
@[simp] theorem lose_sen_hist (d) : (lose d).sen.hist = d.sen.hist := rfl
@[simp] theorem lose_sen_log (d) : (lose d).sen.log = d.sen.log := rfl
@[simp] theorem lose_sen_nextSeq (d) : (lose d).sen.nextSeq = d.sen.nextSeq := rfl
@[simp] theorem lose_sen_oldest (d) : (lose d).sen.oldest = d.sen.oldest := rfl
@[simp] theorem lose_sen_lastChain (d) : (lose d).sen.lastChain = d.sen.lastChain := rfl
@[simp] theorem lose_sen_base (d) : (lose d).sen.base = d.sen.base := rfl
@[simp] theorem lose_sen_readMax (d) : (lose d).sen.readMax = d.sen.readMax := rfl
@[simp] theorem lose_sen_releasing (d) : (lose d).sen.releasing = d.sen.releasing := rfl
@[simp] theorem lose_sen_submitted (d) : (lose d).sen.submitted = d.sen.submitted := rfl
@[simp] theorem lose_sen_full (d) : (lose d).sen.full = d.sen.full := rfl
@[simp] theorem lose_sen_event (d) : (lose d).sen.event = d.sen.event := rfl
@[simp] theorem lose_sen_eventEn (d) : (lose d).sen.eventEn = d.sen.eventEn := rfl
@[simp] theorem lose_sen_invalidAt (d) : (lose d).sen.invalidAt = d.sen.invalidAt := rfl
@[simp] theorem reseed_otp (d) : (reseed d).otp = d.otp := rfl
@[simp] theorem reseed_keeper (d) : (reseed d).keeper = d.keeper := rfl
@[simp] theorem reseed_bay (d) : (reseed d).bay = d.bay := rfl
@[simp] theorem reseed_glb (d) : (reseed d).glb = d.glb := rfl
@[simp] theorem reseed_host (d) : (reseed d).host = d.host := rfl
@[simp] theorem reseed_tenants (d) : (reseed d).tenants = d.tenants := rfl
@[simp] theorem reseed_sch (d) : (reseed d).sch = d.sch := rfl
@[simp] theorem reseed_keys (d) : (reseed d).keys = d.keys := rfl
@[simp] theorem reseed_vmp (d) : (reseed d).vmp = d.vmp := rfl
@[simp] theorem reseed_eng (d) : (reseed d).eng = d.eng := rfl
@[simp] theorem reseed_ring (d) : (reseed d).ring = d.ring := rfl
@[simp] theorem reseed_act (d) : (reseed d).act = d.act := rfl
@[simp] theorem reseed_lcd (d) : (reseed d).lcd = d.lcd := rfl
@[simp] theorem reseed_sen (d) : (reseed d).sen = d.sen := rfl
@[simp] theorem reseed_cvu (d) : (reseed d).cvu = d.cvu := rfl
@[simp] theorem reseed_mnt (d) : (reseed d).mnt = d.mnt := rfl
@[simp] theorem reseed_flt (d) : (reseed d).flt = d.flt := rfl
@[simp] theorem reseed_out (d) : (reseed d).out = d.out := rfl
@[simp] theorem reseed_ent_draws (d) : (reseed d).ent.draws = d.ent.draws := rfl
@[simp] theorem reseed_ent_online (d) : (reseed d).ent.online = d.ent.online := rfl
@[simp] theorem reseed_ent_retired (d) : (reseed d).ent.retired = d.ent.retired := rfl
@[simp] theorem reseed_ent_inRow (d) : (reseed d).ent.inRow = d.ent.inRow := rfl
@[simp] theorem reseed_ent_poolFailed (d) : (reseed d).ent.poolFailed = d.ent.poolFailed := rfl
@[simp] theorem reseed_ent_kat (d) : (reseed d).ent.kat = d.ent.kat := rfl
@[simp] theorem reseed_ent_minSources (d) : (reseed d).ent.minSources = d.ent.minSources := rfl
@[simp] theorem reseed_ent_minShadow (d) : (reseed d).ent.minShadow = d.ent.minShadow := rfl
@[simp] theorem reseed_ent_pending (d) : (reseed d).ent.pending = d.ent.pending := rfl
@[simp] theorem reseed_ent_commits (d) : (reseed d).ent.commits = d.ent.commits := rfl
@[simp] theorem reseed_ent_fails (d) : (reseed d).ent.fails = d.ent.fails := rfl
@[simp] theorem reseed_ent_event (d) : (reseed d).ent.event = d.ent.event := rfl
@[simp] theorem reseed_ent_eventEn (d) : (reseed d).ent.eventEn = d.ent.eventEn := rfl
@[simp] theorem judgePool_otp (d) : (judgePool d).otp = d.otp := rfl
@[simp] theorem judgePool_keeper (d) : (judgePool d).keeper = d.keeper := rfl
@[simp] theorem judgePool_bay (d) : (judgePool d).bay = d.bay := rfl
@[simp] theorem judgePool_glb (d) : (judgePool d).glb = d.glb := rfl
@[simp] theorem judgePool_host (d) : (judgePool d).host = d.host := rfl
@[simp] theorem judgePool_tenants (d) : (judgePool d).tenants = d.tenants := rfl
@[simp] theorem judgePool_sch (d) : (judgePool d).sch = d.sch := rfl
@[simp] theorem judgePool_keys (d) : (judgePool d).keys = d.keys := rfl
@[simp] theorem judgePool_vmp (d) : (judgePool d).vmp = d.vmp := rfl
@[simp] theorem judgePool_eng (d) : (judgePool d).eng = d.eng := rfl
@[simp] theorem judgePool_ring (d) : (judgePool d).ring = d.ring := rfl
@[simp] theorem judgePool_act (d) : (judgePool d).act = d.act := rfl
@[simp] theorem judgePool_lcd (d) : (judgePool d).lcd = d.lcd := rfl
@[simp] theorem judgePool_sen (d) : (judgePool d).sen = d.sen := rfl
@[simp] theorem judgePool_cvu (d) : (judgePool d).cvu = d.cvu := rfl
@[simp] theorem judgePool_mnt (d) : (judgePool d).mnt = d.mnt := rfl
@[simp] theorem judgePool_flt (d) : (judgePool d).flt = d.flt := rfl
@[simp] theorem judgePool_out (d) : (judgePool d).out = d.out := rfl
@[simp] theorem judgePool_ent_draws (d) : (judgePool d).ent.draws = d.ent.draws := rfl
@[simp] theorem judgePool_ent_online (d) : (judgePool d).ent.online = d.ent.online := rfl
@[simp] theorem judgePool_ent_retired (d) : (judgePool d).ent.retired = d.ent.retired := rfl
@[simp] theorem judgePool_ent_inRow (d) : (judgePool d).ent.inRow = d.ent.inRow := rfl
@[simp] theorem judgePool_ent_kat (d) : (judgePool d).ent.kat = d.ent.kat := rfl
@[simp] theorem judgePool_ent_requests (d) : (judgePool d).ent.requests = d.ent.requests := rfl
@[simp] theorem judgePool_ent_minSources (d) : (judgePool d).ent.minSources = d.ent.minSources := rfl
@[simp] theorem judgePool_ent_minShadow (d) : (judgePool d).ent.minShadow = d.ent.minShadow := rfl
@[simp] theorem judgePool_ent_pending (d) : (judgePool d).ent.pending = d.ent.pending := rfl
@[simp] theorem judgePool_ent_commits (d) : (judgePool d).ent.commits = d.ent.commits := rfl
@[simp] theorem judgePool_ent_reseedDue (d) : (judgePool d).ent.reseedDue = d.ent.reseedDue := rfl
@[simp] theorem judgePool_ent_fails (d) : (judgePool d).ent.fails = d.ent.fails := rfl
@[simp] theorem judgePool_ent_reseeds (d) : (judgePool d).ent.reseeds = d.ent.reseeds := rfl
@[simp] theorem judgePool_ent_lastReseed (d) : (judgePool d).ent.lastReseed = d.ent.lastReseed := rfl
@[simp] theorem judgePool_ent_event (d) : (judgePool d).ent.event = d.ent.event := rfl
@[simp] theorem judgePool_ent_eventEn (d) : (judgePool d).ent.eventEn = d.ent.eventEn := rfl
@[simp] theorem judgePool_ent_seeded (d) : (judgePool d).ent.seeded = d.ent.seeded := rfl
@[simp] theorem applyEnt_otp (d) : (applyEnt d).otp = d.otp := by unfold applyEnt; split <;> simp
@[simp] theorem applyEnt_keeper (d) : (applyEnt d).keeper = d.keeper := by unfold applyEnt; split <;> simp
@[simp] theorem applyEnt_bay (d) : (applyEnt d).bay = d.bay := by unfold applyEnt; split <;> simp
@[simp] theorem applyEnt_glb (d) : (applyEnt d).glb = d.glb := by unfold applyEnt; split <;> simp
@[simp] theorem applyEnt_host (d) : (applyEnt d).host = d.host := by unfold applyEnt; split <;> simp
@[simp] theorem applyEnt_tenants (d) : (applyEnt d).tenants = d.tenants := by unfold applyEnt; split <;> simp
@[simp] theorem applyEnt_sch (d) : (applyEnt d).sch = d.sch := by unfold applyEnt; split <;> simp
@[simp] theorem applyEnt_keys (d) : (applyEnt d).keys = d.keys := by unfold applyEnt; split <;> simp
@[simp] theorem applyEnt_vmp (d) : (applyEnt d).vmp = d.vmp := by unfold applyEnt; split <;> simp
@[simp] theorem applyEnt_eng (d) : (applyEnt d).eng = d.eng := by unfold applyEnt; split <;> simp
@[simp] theorem applyEnt_ring (d) : (applyEnt d).ring = d.ring := by unfold applyEnt; split <;> simp
@[simp] theorem applyEnt_act (d) : (applyEnt d).act = d.act := by unfold applyEnt; split <;> simp
@[simp] theorem applyEnt_lcd (d) : (applyEnt d).lcd = d.lcd := by unfold applyEnt; split <;> simp
@[simp] theorem applyEnt_sen (d) : (applyEnt d).sen = d.sen := by unfold applyEnt; split <;> simp
@[simp] theorem applyEnt_cvu (d) : (applyEnt d).cvu = d.cvu := by unfold applyEnt; split <;> simp
@[simp] theorem applyEnt_mnt (d) : (applyEnt d).mnt = d.mnt := by unfold applyEnt; split <;> simp
@[simp] theorem applyEnt_flt (d) : (applyEnt d).flt = d.flt := by unfold applyEnt; split <;> simp
@[simp] theorem applyEnt_out (d) : (applyEnt d).out = d.out := by unfold applyEnt; split <;> simp
@[simp] theorem applyEnt_ent_draws (d) : (applyEnt d).ent.draws = d.ent.draws := by unfold applyEnt; split <;> simp
@[simp] theorem applyEnt_ent_online (d) : (applyEnt d).ent.online = d.ent.online := by unfold applyEnt; split <;> simp
@[simp] theorem applyEnt_ent_retired (d) : (applyEnt d).ent.retired = d.ent.retired := by unfold applyEnt; split <;> simp
@[simp] theorem applyEnt_ent_inRow (d) : (applyEnt d).ent.inRow = d.ent.inRow := by unfold applyEnt; split <;> simp
@[simp] theorem applyEnt_ent_kat (d) : (applyEnt d).ent.kat = d.ent.kat := by unfold applyEnt; split <;> simp
@[simp] theorem applyEnt_ent_requests (d) : (applyEnt d).ent.requests = d.ent.requests := by unfold applyEnt; split <;> simp
@[simp] theorem applyEnt_ent_minShadow (d) : (applyEnt d).ent.minShadow = d.ent.minShadow := by unfold applyEnt; split <;> simp
@[simp] theorem applyEnt_ent_reseedDue (d) : (applyEnt d).ent.reseedDue = d.ent.reseedDue := by unfold applyEnt; split <;> simp
@[simp] theorem applyEnt_ent_fails (d) : (applyEnt d).ent.fails = d.ent.fails := by unfold applyEnt; split <;> simp
@[simp] theorem applyEnt_ent_reseeds (d) : (applyEnt d).ent.reseeds = d.ent.reseeds := by unfold applyEnt; split <;> simp
@[simp] theorem applyEnt_ent_lastReseed (d) : (applyEnt d).ent.lastReseed = d.ent.lastReseed := by unfold applyEnt; split <;> simp
@[simp] theorem applyEnt_ent_event (d) : (applyEnt d).ent.event = d.ent.event := by unfold applyEnt; split <;> simp
@[simp] theorem applyEnt_ent_eventEn (d) : (applyEnt d).ent.eventEn = d.ent.eventEn := by unfold applyEnt; split <;> simp
@[simp] theorem applyEnt_ent_seeded (d) : (applyEnt d).ent.seeded = d.ent.seeded := by unfold applyEnt; split <;> simp
@[simp] theorem drbgBefore_otp (prediction d0) : (drbgBefore prediction d0).otp = d0.otp := by unfold drbgBefore; dsimp only; (repeat' split) <;> simp
@[simp] theorem drbgBefore_keeper (prediction d0) : (drbgBefore prediction d0).keeper = d0.keeper := by unfold drbgBefore; dsimp only; (repeat' split) <;> simp
@[simp] theorem drbgBefore_bay (prediction d0) : (drbgBefore prediction d0).bay = d0.bay := by unfold drbgBefore; dsimp only; (repeat' split) <;> simp
@[simp] theorem drbgBefore_glb (prediction d0) : (drbgBefore prediction d0).glb = d0.glb := by unfold drbgBefore; dsimp only; (repeat' split) <;> simp
@[simp] theorem drbgBefore_host (prediction d0) : (drbgBefore prediction d0).host = d0.host := by unfold drbgBefore; dsimp only; (repeat' split) <;> simp
@[simp] theorem drbgBefore_tenants (prediction d0) : (drbgBefore prediction d0).tenants = d0.tenants := by unfold drbgBefore; dsimp only; (repeat' split) <;> simp
@[simp] theorem drbgBefore_sch (prediction d0) : (drbgBefore prediction d0).sch = d0.sch := by unfold drbgBefore; dsimp only; (repeat' split) <;> simp
@[simp] theorem drbgBefore_keys (prediction d0) : (drbgBefore prediction d0).keys = d0.keys := by unfold drbgBefore; dsimp only; (repeat' split) <;> simp
@[simp] theorem drbgBefore_vmp (prediction d0) : (drbgBefore prediction d0).vmp = d0.vmp := by unfold drbgBefore; dsimp only; (repeat' split) <;> simp
@[simp] theorem drbgBefore_eng (prediction d0) : (drbgBefore prediction d0).eng = d0.eng := by unfold drbgBefore; dsimp only; (repeat' split) <;> simp
@[simp] theorem drbgBefore_ring (prediction d0) : (drbgBefore prediction d0).ring = d0.ring := by unfold drbgBefore; dsimp only; (repeat' split) <;> simp
@[simp] theorem drbgBefore_act (prediction d0) : (drbgBefore prediction d0).act = d0.act := by unfold drbgBefore; dsimp only; (repeat' split) <;> simp
@[simp] theorem drbgBefore_lcd (prediction d0) : (drbgBefore prediction d0).lcd = d0.lcd := by unfold drbgBefore; dsimp only; (repeat' split) <;> simp
@[simp] theorem drbgBefore_sen (prediction d0) : (drbgBefore prediction d0).sen = d0.sen := by unfold drbgBefore; dsimp only; (repeat' split) <;> simp
@[simp] theorem drbgBefore_cvu (prediction d0) : (drbgBefore prediction d0).cvu = d0.cvu := by unfold drbgBefore; dsimp only; (repeat' split) <;> simp
@[simp] theorem drbgBefore_mnt (prediction d0) : (drbgBefore prediction d0).mnt = d0.mnt := by unfold drbgBefore; dsimp only; (repeat' split) <;> simp
@[simp] theorem drbgBefore_flt (prediction d0) : (drbgBefore prediction d0).flt = d0.flt := by unfold drbgBefore; dsimp only; (repeat' split) <;> simp
@[simp] theorem drbgBefore_out (prediction d0) : (drbgBefore prediction d0).out = d0.out := by unfold drbgBefore; dsimp only; (repeat' split) <;> simp
@[simp] theorem drbgBefore_ent_draws (prediction d0) : (drbgBefore prediction d0).ent.draws = d0.ent.draws := by unfold drbgBefore; dsimp only; (repeat' split) <;> simp
@[simp] theorem drbgBefore_ent_online (prediction d0) : (drbgBefore prediction d0).ent.online = d0.ent.online := by unfold drbgBefore; dsimp only; (repeat' split) <;> simp
@[simp] theorem drbgBefore_ent_retired (prediction d0) : (drbgBefore prediction d0).ent.retired = d0.ent.retired := by unfold drbgBefore; dsimp only; (repeat' split) <;> simp
@[simp] theorem drbgBefore_ent_inRow (prediction d0) : (drbgBefore prediction d0).ent.inRow = d0.ent.inRow := by unfold drbgBefore; dsimp only; (repeat' split) <;> simp
@[simp] theorem drbgBefore_ent_kat (prediction d0) : (drbgBefore prediction d0).ent.kat = d0.ent.kat := by unfold drbgBefore; dsimp only; (repeat' split) <;> simp
@[simp] theorem drbgBefore_ent_minShadow (prediction d0) : (drbgBefore prediction d0).ent.minShadow = d0.ent.minShadow := by unfold drbgBefore; dsimp only; (repeat' split) <;> simp
@[simp] theorem drbgBefore_ent_fails (prediction d0) : (drbgBefore prediction d0).ent.fails = d0.ent.fails := by unfold drbgBefore; dsimp only; (repeat' split) <;> simp
@[simp] theorem drbgBefore_ent_event (prediction d0) : (drbgBefore prediction d0).ent.event = d0.ent.event := by unfold drbgBefore; dsimp only; (repeat' split) <;> simp
@[simp] theorem drbgBefore_ent_eventEn (prediction d0) : (drbgBefore prediction d0).ent.eventEn = d0.ent.eventEn := by unfold drbgBefore; dsimp only; (repeat' split) <;> simp
@[simp] theorem dma_otp (d cls a o) : (dma d cls a o).otp = d.otp := by unfold dma; (repeat' split) <;> rfl
@[simp] theorem dma_keeper (d cls a o) : (dma d cls a o).keeper = d.keeper := by unfold dma; (repeat' split) <;> rfl
@[simp] theorem dma_bay (d cls a o) : (dma d cls a o).bay = d.bay := by unfold dma; (repeat' split) <;> rfl
@[simp] theorem dma_glb (d cls a o) : (dma d cls a o).glb = d.glb := by unfold dma; (repeat' split) <;> rfl
@[simp] theorem dma_host (d cls a o) : (dma d cls a o).host = d.host := by unfold dma; (repeat' split) <;> rfl
@[simp] theorem dma_tenants (d cls a o) : (dma d cls a o).tenants = d.tenants := by unfold dma; (repeat' split) <;> rfl
@[simp] theorem dma_sch (d cls a o) : (dma d cls a o).sch = d.sch := by unfold dma; (repeat' split) <;> rfl
@[simp] theorem dma_keys (d cls a o) : (dma d cls a o).keys = d.keys := by unfold dma; (repeat' split) <;> rfl
@[simp] theorem dma_vmp (d cls a o) : (dma d cls a o).vmp = d.vmp := by unfold dma; (repeat' split) <;> rfl
@[simp] theorem dma_eng (d cls a o) : (dma d cls a o).eng = d.eng := by unfold dma; (repeat' split) <;> rfl
@[simp] theorem dma_ring (d cls a o) : (dma d cls a o).ring = d.ring := by unfold dma; (repeat' split) <;> rfl
@[simp] theorem dma_lcd (d cls a o) : (dma d cls a o).lcd = d.lcd := by unfold dma; (repeat' split) <;> rfl
@[simp] theorem dma_sen (d cls a o) : (dma d cls a o).sen = d.sen := by unfold dma; (repeat' split) <;> rfl
@[simp] theorem dma_cvu (d cls a o) : (dma d cls a o).cvu = d.cvu := by unfold dma; (repeat' split) <;> rfl
@[simp] theorem dma_ent (d cls a o) : (dma d cls a o).ent = d.ent := by unfold dma; (repeat' split) <;> rfl
@[simp] theorem dma_mnt (d cls a o) : (dma d cls a o).mnt = d.mnt := by unfold dma; (repeat' split) <;> rfl
@[simp] theorem dma_flt (d cls a o) : (dma d cls a o).flt = d.flt := by unfold dma; (repeat' split) <;> rfl
@[simp] theorem dma_act_st (d cls a o) : (dma d cls a o).act.st = d.act.st := by unfold dma; (repeat' split) <;> rfl
@[simp] theorem dma_act_claim (d cls a o) : (dma d cls a o).act.claim = d.act.claim := by unfold dma; (repeat' split) <;> rfl
@[simp] theorem dma_act_result (d cls a o) : (dma d cls a o).act.result = d.act.result := by unfold dma; (repeat' split) <;> rfl
@[simp] theorem dma_act_denyCount (d cls a o) : (dma d cls a o).act.denyCount = d.act.denyCount := by unfold dma; (repeat' split) <;> rfl
@[simp] theorem dma_act_entries (d cls a o) : (dma d cls a o).act.entries = d.act.entries := by unfold dma; (repeat' split) <;> rfl
@[simp] theorem dma_act_stage (d cls a o) : (dma d cls a o).act.stage = d.act.stage := by unfold dma; (repeat' split) <;> rfl
@[simp] theorem dma_act_waiting (d cls a o) : (dma d cls a o).act.waiting = d.act.waiting := by unfold dma; (repeat' split) <;> rfl
@[simp] theorem setVector_otp (d fn v x) : (setVector d fn v x).otp = d.otp := by unfold setVector; split <;> simp
@[simp] theorem setVector_keeper (d fn v x) : (setVector d fn v x).keeper = d.keeper := by unfold setVector; split <;> simp
@[simp] theorem setVector_bay (d fn v x) : (setVector d fn v x).bay = d.bay := by unfold setVector; split <;> simp
@[simp] theorem setVector_glb (d fn v x) : (setVector d fn v x).glb = d.glb := by unfold setVector; split <;> simp
@[simp] theorem setVector_sch (d fn v x) : (setVector d fn v x).sch = d.sch := by unfold setVector; split <;> simp
@[simp] theorem setVector_keys (d fn v x) : (setVector d fn v x).keys = d.keys := by unfold setVector; split <;> simp
@[simp] theorem setVector_vmp (d fn v x) : (setVector d fn v x).vmp = d.vmp := by unfold setVector; split <;> simp
@[simp] theorem setVector_eng (d fn v x) : (setVector d fn v x).eng = d.eng := by unfold setVector; split <;> simp
@[simp] theorem setVector_ring (d fn v x) : (setVector d fn v x).ring = d.ring := by unfold setVector; split <;> simp
@[simp] theorem setVector_act (d fn v x) : (setVector d fn v x).act = d.act := by unfold setVector; split <;> simp
@[simp] theorem setVector_lcd (d fn v x) : (setVector d fn v x).lcd = d.lcd := by unfold setVector; split <;> simp
@[simp] theorem setVector_sen (d fn v x) : (setVector d fn v x).sen = d.sen := by unfold setVector; split <;> simp
@[simp] theorem setVector_cvu (d fn v x) : (setVector d fn v x).cvu = d.cvu := by unfold setVector; split <;> simp
@[simp] theorem setVector_ent (d fn v x) : (setVector d fn v x).ent = d.ent := by unfold setVector; split <;> simp
@[simp] theorem setVector_mnt (d fn v x) : (setVector d fn v x).mnt = d.mnt := by unfold setVector; split <;> simp
@[simp] theorem setVector_flt (d fn v x) : (setVector d fn v x).flt = d.flt := by unfold setVector; split <;> simp
@[simp] theorem setVector_out (d fn v x) : (setVector d fn v x).out = d.out := by unfold setVector; split <;> simp
@[simp] theorem signalVector_otp (d fn v) : (signalVector d fn v).otp = d.otp := by unfold signalVector; dsimp only; (repeat' split) <;> simp
@[simp] theorem signalVector_keeper (d fn v) : (signalVector d fn v).keeper = d.keeper := by unfold signalVector; dsimp only; (repeat' split) <;> simp
@[simp] theorem signalVector_bay (d fn v) : (signalVector d fn v).bay = d.bay := by unfold signalVector; dsimp only; (repeat' split) <;> simp
@[simp] theorem signalVector_glb (d fn v) : (signalVector d fn v).glb = d.glb := by unfold signalVector; dsimp only; (repeat' split) <;> simp
@[simp] theorem signalVector_sch (d fn v) : (signalVector d fn v).sch = d.sch := by unfold signalVector; dsimp only; (repeat' split) <;> simp
@[simp] theorem signalVector_keys (d fn v) : (signalVector d fn v).keys = d.keys := by unfold signalVector; dsimp only; (repeat' split) <;> simp
@[simp] theorem signalVector_vmp (d fn v) : (signalVector d fn v).vmp = d.vmp := by unfold signalVector; dsimp only; (repeat' split) <;> simp
@[simp] theorem signalVector_eng (d fn v) : (signalVector d fn v).eng = d.eng := by unfold signalVector; dsimp only; (repeat' split) <;> simp
@[simp] theorem signalVector_ring (d fn v) : (signalVector d fn v).ring = d.ring := by unfold signalVector; dsimp only; (repeat' split) <;> simp
@[simp] theorem signalVector_act_st (d fn v) : (signalVector d fn v).act.st = d.act.st := by unfold signalVector; dsimp only; (repeat' split) <;> simp
@[simp] theorem signalVector_act_claim (d fn v) : (signalVector d fn v).act.claim = d.act.claim := by unfold signalVector; dsimp only; (repeat' split) <;> simp
@[simp] theorem signalVector_act_result (d fn v) : (signalVector d fn v).act.result = d.act.result := by unfold signalVector; dsimp only; (repeat' split) <;> simp
@[simp] theorem signalVector_act_denyCount (d fn v) : (signalVector d fn v).act.denyCount = d.act.denyCount := by unfold signalVector; dsimp only; (repeat' split) <;> simp
@[simp] theorem signalVector_act_entries (d fn v) : (signalVector d fn v).act.entries = d.act.entries := by unfold signalVector; dsimp only; (repeat' split) <;> simp
@[simp] theorem signalVector_act_stage (d fn v) : (signalVector d fn v).act.stage = d.act.stage := by unfold signalVector; dsimp only; (repeat' split) <;> simp
@[simp] theorem signalVector_act_waiting (d fn v) : (signalVector d fn v).act.waiting = d.act.waiting := by unfold signalVector; dsimp only; (repeat' split) <;> simp
@[simp] theorem signalVector_lcd (d fn v) : (signalVector d fn v).lcd = d.lcd := by unfold signalVector; dsimp only; (repeat' split) <;> simp
@[simp] theorem signalVector_sen (d fn v) : (signalVector d fn v).sen = d.sen := by unfold signalVector; dsimp only; (repeat' split) <;> simp
@[simp] theorem signalVector_cvu (d fn v) : (signalVector d fn v).cvu = d.cvu := by unfold signalVector; dsimp only; (repeat' split) <;> simp
@[simp] theorem signalVector_ent (d fn v) : (signalVector d fn v).ent = d.ent := by unfold signalVector; dsimp only; (repeat' split) <;> simp
@[simp] theorem signalVector_mnt (d fn v) : (signalVector d fn v).mnt = d.mnt := by unfold signalVector; dsimp only; (repeat' split) <;> simp
@[simp] theorem signalVector_flt (d fn v) : (signalVector d fn v).flt = d.flt := by unfold signalVector; dsimp only; (repeat' split) <;> simp
@[simp] theorem releaseVector_otp (d fn v) : (releaseVector d fn v).otp = d.otp := by unfold releaseVector; dsimp only; (repeat' split) <;> simp
@[simp] theorem releaseVector_keeper (d fn v) : (releaseVector d fn v).keeper = d.keeper := by unfold releaseVector; dsimp only; (repeat' split) <;> simp
@[simp] theorem releaseVector_bay (d fn v) : (releaseVector d fn v).bay = d.bay := by unfold releaseVector; dsimp only; (repeat' split) <;> simp
@[simp] theorem releaseVector_glb (d fn v) : (releaseVector d fn v).glb = d.glb := by unfold releaseVector; dsimp only; (repeat' split) <;> simp
@[simp] theorem releaseVector_sch (d fn v) : (releaseVector d fn v).sch = d.sch := by unfold releaseVector; dsimp only; (repeat' split) <;> simp
@[simp] theorem releaseVector_keys (d fn v) : (releaseVector d fn v).keys = d.keys := by unfold releaseVector; dsimp only; (repeat' split) <;> simp
@[simp] theorem releaseVector_vmp (d fn v) : (releaseVector d fn v).vmp = d.vmp := by unfold releaseVector; dsimp only; (repeat' split) <;> simp
@[simp] theorem releaseVector_eng (d fn v) : (releaseVector d fn v).eng = d.eng := by unfold releaseVector; dsimp only; (repeat' split) <;> simp
@[simp] theorem releaseVector_ring (d fn v) : (releaseVector d fn v).ring = d.ring := by unfold releaseVector; dsimp only; (repeat' split) <;> simp
@[simp] theorem releaseVector_act_st (d fn v) : (releaseVector d fn v).act.st = d.act.st := by unfold releaseVector; dsimp only; (repeat' split) <;> simp
@[simp] theorem releaseVector_act_claim (d fn v) : (releaseVector d fn v).act.claim = d.act.claim := by unfold releaseVector; dsimp only; (repeat' split) <;> simp
@[simp] theorem releaseVector_act_result (d fn v) : (releaseVector d fn v).act.result = d.act.result := by unfold releaseVector; dsimp only; (repeat' split) <;> simp
@[simp] theorem releaseVector_act_denyCount (d fn v) : (releaseVector d fn v).act.denyCount = d.act.denyCount := by unfold releaseVector; dsimp only; (repeat' split) <;> simp
@[simp] theorem releaseVector_act_entries (d fn v) : (releaseVector d fn v).act.entries = d.act.entries := by unfold releaseVector; dsimp only; (repeat' split) <;> simp
@[simp] theorem releaseVector_act_stage (d fn v) : (releaseVector d fn v).act.stage = d.act.stage := by unfold releaseVector; dsimp only; (repeat' split) <;> simp
@[simp] theorem releaseVector_act_waiting (d fn v) : (releaseVector d fn v).act.waiting = d.act.waiting := by unfold releaseVector; dsimp only; (repeat' split) <;> simp
@[simp] theorem releaseVector_lcd (d fn v) : (releaseVector d fn v).lcd = d.lcd := by unfold releaseVector; dsimp only; (repeat' split) <;> simp
@[simp] theorem releaseVector_sen (d fn v) : (releaseVector d fn v).sen = d.sen := by unfold releaseVector; dsimp only; (repeat' split) <;> simp
@[simp] theorem releaseVector_cvu (d fn v) : (releaseVector d fn v).cvu = d.cvu := by unfold releaseVector; dsimp only; (repeat' split) <;> simp
@[simp] theorem releaseVector_ent (d fn v) : (releaseVector d fn v).ent = d.ent := by unfold releaseVector; dsimp only; (repeat' split) <;> simp
@[simp] theorem releaseVector_mnt (d fn v) : (releaseVector d fn v).mnt = d.mnt := by unfold releaseVector; dsimp only; (repeat' split) <;> simp
@[simp] theorem releaseVector_flt (d fn v) : (releaseVector d fn v).flt = d.flt := by unfold releaseVector; dsimp only; (repeat' split) <;> simp
@[simp] theorem rejectPf_otp (d cause offset) : (rejectPf d cause offset).otp = d.otp := by unfold rejectPf; split <;> simp
@[simp] theorem rejectPf_keeper (d cause offset) : (rejectPf d cause offset).keeper = d.keeper := by unfold rejectPf; split <;> simp
@[simp] theorem rejectPf_bay (d cause offset) : (rejectPf d cause offset).bay = d.bay := by unfold rejectPf; split <;> simp
@[simp] theorem rejectPf_host (d cause offset) : (rejectPf d cause offset).host = d.host := by unfold rejectPf; split <;> simp
@[simp] theorem rejectPf_tenants (d cause offset) : (rejectPf d cause offset).tenants = d.tenants := by unfold rejectPf; split <;> simp
@[simp] theorem rejectPf_sch (d cause offset) : (rejectPf d cause offset).sch = d.sch := by unfold rejectPf; split <;> simp
@[simp] theorem rejectPf_keys (d cause offset) : (rejectPf d cause offset).keys = d.keys := by unfold rejectPf; split <;> simp
@[simp] theorem rejectPf_vmp (d cause offset) : (rejectPf d cause offset).vmp = d.vmp := by unfold rejectPf; split <;> simp
@[simp] theorem rejectPf_eng (d cause offset) : (rejectPf d cause offset).eng = d.eng := by unfold rejectPf; split <;> simp
@[simp] theorem rejectPf_ring (d cause offset) : (rejectPf d cause offset).ring = d.ring := by unfold rejectPf; split <;> simp
@[simp] theorem rejectPf_act (d cause offset) : (rejectPf d cause offset).act = d.act := by unfold rejectPf; split <;> simp
@[simp] theorem rejectPf_lcd (d cause offset) : (rejectPf d cause offset).lcd = d.lcd := by unfold rejectPf; split <;> simp
@[simp] theorem rejectPf_sen (d cause offset) : (rejectPf d cause offset).sen = d.sen := by unfold rejectPf; split <;> simp
@[simp] theorem rejectPf_cvu (d cause offset) : (rejectPf d cause offset).cvu = d.cvu := by unfold rejectPf; split <;> simp
@[simp] theorem rejectPf_ent (d cause offset) : (rejectPf d cause offset).ent = d.ent := by unfold rejectPf; split <;> simp
@[simp] theorem rejectPf_mnt (d cause offset) : (rejectPf d cause offset).mnt = d.mnt := by unfold rejectPf; split <;> simp
@[simp] theorem rejectPf_flt (d cause offset) : (rejectPf d cause offset).flt = d.flt := by unfold rejectPf; split <;> simp
@[simp] theorem rejectPf_out (d cause offset) : (rejectPf d cause offset).out = d.out := by unfold rejectPf; split <;> simp
@[simp] theorem rejectPf_glb_fwRunning (d cause offset) : (rejectPf d cause offset).glb.fwRunning = d.glb.fwRunning := by unfold rejectPf; split <;> simp
@[simp] theorem rejectPf_glb_starting (d cause offset) : (rejectPf d cause offset).glb.starting = d.glb.starting := by unfold rejectPf; split <;> simp
@[simp] theorem rejectPf_glb_vaultLoaded (d cause offset) : (rejectPf d cause offset).glb.vaultLoaded = d.glb.vaultLoaded := by unfold rejectPf; split <;> simp
@[simp] theorem rejectPf_glb_rootOk (d cause offset) : (rejectPf d cause offset).glb.rootOk = d.glb.rootOk := by unfold rejectPf; split <;> simp
@[simp] theorem rejectPf_glb_locked (d cause offset) : (rejectPf d cause offset).glb.locked = d.glb.locked := by unfold rejectPf; split <;> simp
@[simp] theorem rejectPf_glb_failStop (d cause offset) : (rejectPf d cause offset).glb.failStop = d.glb.failStop := by unfold rejectPf; split <;> simp
@[simp] theorem rejectPf_glb_pace (d cause offset) : (rejectPf d cause offset).glb.pace = d.glb.pace := by unfold rejectPf; split <;> simp
@[simp] theorem rejectPf_glb_settling (d cause offset) : (rejectPf d cause offset).glb.settling = d.glb.settling := by unfold rejectPf; split <;> simp
@[simp] theorem rejectPf_glb_windowSeq (d cause offset) : (rejectPf d cause offset).glb.windowSeq = d.glb.windowSeq := by unfold rejectPf; split <;> simp
@[simp] theorem rejectPf_glb_refs (d cause offset) : (rejectPf d cause offset).glb.refs = d.glb.refs := by unfold rejectPf; split <;> simp
@[simp] theorem rejectPf_glb_profile (d cause offset) : (rejectPf d cause offset).glb.profile = d.glb.profile := by unfold rejectPf; split <;> simp
@[simp] theorem rejectPf_glb_active (d cause offset) : (rejectPf d cause offset).glb.active = d.glb.active := by unfold rejectPf; split <;> simp
@[simp] theorem rejectPf_glb_thermalFallback (d cause offset) : (rejectPf d cause offset).glb.thermalFallback = d.glb.thermalFallback := by unfold rejectPf; split <;> simp
@[simp] theorem rejectPf_glb_slewing (d cause offset) : (rejectPf d cause offset).glb.slewing = d.glb.slewing := by unfold rejectPf; split <;> simp
@[simp] theorem rejectPf_glb_slewInWindow (d cause offset) : (rejectPf d cause offset).glb.slewInWindow = d.glb.slewInWindow := by unfold rejectPf; split <;> simp
@[simp] theorem rejectPf_glb_timeLatch (d cause offset) : (rejectPf d cause offset).glb.timeLatch = d.glb.timeLatch := by unfold rejectPf; split <;> simp
@[simp] theorem rejectPf_glb_event (d cause offset) : (rejectPf d cause offset).glb.event = d.glb.event := by unfold rejectPf; split <;> simp
@[simp] theorem rejectPf_glb_eventEn (d cause offset) : (rejectPf d cause offset).glb.eventEn = d.glb.eventEn := by unfold rejectPf; split <;> simp
@[simp] theorem rejectPf_glb_pfGen (d cause offset) : (rejectPf d cause offset).glb.pfGen = d.glb.pfGen := by unfold rejectPf; split <;> simp
@[simp] theorem rejectPf_glb_vfCommitPending (d cause offset) : (rejectPf d cause offset).glb.vfCommitPending = d.glb.vfCommitPending := by unfold rejectPf; split <;> simp
@[simp] theorem rejectPf_glb_admin (d cause offset) : (rejectPf d cause offset).glb.admin = d.glb.admin := by unfold rejectPf; split <;> simp
@[simp] theorem rejectVf_otp (d n) : (rejectVf d n).otp = d.otp := rfl
@[simp] theorem rejectVf_keeper (d n) : (rejectVf d n).keeper = d.keeper := rfl
@[simp] theorem rejectVf_bay (d n) : (rejectVf d n).bay = d.bay := rfl
@[simp] theorem rejectVf_glb (d n) : (rejectVf d n).glb = d.glb := rfl
@[simp] theorem rejectVf_host (d n) : (rejectVf d n).host = d.host := rfl
@[simp] theorem rejectVf_sch (d n) : (rejectVf d n).sch = d.sch := rfl
@[simp] theorem rejectVf_keys (d n) : (rejectVf d n).keys = d.keys := rfl
@[simp] theorem rejectVf_vmp (d n) : (rejectVf d n).vmp = d.vmp := rfl
@[simp] theorem rejectVf_eng (d n) : (rejectVf d n).eng = d.eng := rfl
@[simp] theorem rejectVf_ring (d n) : (rejectVf d n).ring = d.ring := rfl
@[simp] theorem rejectVf_act (d n) : (rejectVf d n).act = d.act := rfl
@[simp] theorem rejectVf_lcd (d n) : (rejectVf d n).lcd = d.lcd := rfl
@[simp] theorem rejectVf_sen (d n) : (rejectVf d n).sen = d.sen := rfl
@[simp] theorem rejectVf_cvu (d n) : (rejectVf d n).cvu = d.cvu := rfl
@[simp] theorem rejectVf_ent (d n) : (rejectVf d n).ent = d.ent := rfl
@[simp] theorem rejectVf_mnt (d n) : (rejectVf d n).mnt = d.mnt := rfl
@[simp] theorem rejectVf_flt (d n) : (rejectVf d n).flt = d.flt := rfl
@[simp] theorem rejectVf_out (d n) : (rejectVf d n).out = d.out := rfl
@[simp] theorem unready_otp (d k) : (unready d k).otp = d.otp := rfl
@[simp] theorem unready_keeper (d k) : (unready d k).keeper = d.keeper := rfl
@[simp] theorem unready_bay (d k) : (unready d k).bay = d.bay := rfl
@[simp] theorem unready_glb (d k) : (unready d k).glb = d.glb := rfl
@[simp] theorem unready_host (d k) : (unready d k).host = d.host := rfl
@[simp] theorem unready_tenants (d k) : (unready d k).tenants = d.tenants := rfl
@[simp] theorem unready_keys (d k) : (unready d k).keys = d.keys := rfl
@[simp] theorem unready_vmp (d k) : (unready d k).vmp = d.vmp := rfl
@[simp] theorem unready_eng (d k) : (unready d k).eng = d.eng := rfl
@[simp] theorem unready_ring (d k) : (unready d k).ring = d.ring := rfl
@[simp] theorem unready_act (d k) : (unready d k).act = d.act := rfl
@[simp] theorem unready_lcd (d k) : (unready d k).lcd = d.lcd := rfl
@[simp] theorem unready_sen (d k) : (unready d k).sen = d.sen := rfl
@[simp] theorem unready_cvu (d k) : (unready d k).cvu = d.cvu := rfl
@[simp] theorem unready_ent (d k) : (unready d k).ent = d.ent := rfl
@[simp] theorem unready_mnt (d k) : (unready d k).mnt = d.mnt := rfl
@[simp] theorem unready_flt (d k) : (unready d k).flt = d.flt := rfl
@[simp] theorem unready_out (d k) : (unready d k).out = d.out := rfl
@[simp] theorem unready_sch_ctxs (d k) : (unready d k).sch.ctxs = d.sch.ctxs := rfl
@[simp] theorem unready_sch_cores (d k) : (unready d k).sch.cores = d.sch.cores := rfl
@[simp] theorem unready_sch_dispatchOrder (d k) : (unready d k).sch.dispatchOrder = d.sch.dispatchOrder := rfl
@[simp] theorem unready_sch_mgmtReserve (d k) : (unready d k).sch.mgmtReserve = d.sch.mgmtReserve := rfl
@[simp] theorem unready_sch_mgmtShadow (d k) : (unready d k).sch.mgmtShadow = d.sch.mgmtShadow := rfl
@[simp] theorem unready_sch_runLimit (d k) : (unready d k).sch.runLimit = d.sch.runLimit := rfl
@[simp] theorem unready_sch_pending (d k) : (unready d k).sch.pending = d.sch.pending := rfl
@[simp] theorem unready_sch_commits (d k) : (unready d k).sch.commits = d.sch.commits := rfl
@[simp] theorem unready_sch_dispatchTotal (d k) : (unready d k).sch.dispatchTotal = d.sch.dispatchTotal := rfl
@[simp] theorem unready_sch_preemptTotal (d k) : (unready d k).sch.preemptTotal = d.sch.preemptTotal := rfl
@[simp] theorem unready_sch_flagOverrun (d k) : (unready d k).sch.flagOverrun = d.sch.flagOverrun := rfl
@[simp] theorem unready_sch_stray (d k) : (unready d k).sch.stray = d.sch.stray := rfl
@[simp] theorem unready_sch_runLimitHits (d k) : (unready d k).sch.runLimitHits = d.sch.runLimitHits := rfl
@[simp] theorem unready_sch_tenantSel (d k) : (unready d k).sch.tenantSel = d.sch.tenantSel := rfl
@[simp] theorem unready_sch_owed (d k) : (unready d k).sch.owed = d.sch.owed := rfl
@[simp] theorem unready_sch_toRun (d k) : (unready d k).sch.toRun = d.sch.toRun := rfl

end Sys2Proof.Machine
end

