-- ==== Sys2Proof/Laws/Tab.lean ====
section
/-! SUPPORT. Sparse tables: what a read gives after a write, and that every table operation keeps the canonical form. -/

namespace Sys2Proof.Machine

variable {α : Type} [DecidableEq α]

omit [DecidableEq α] in
@[simp] theorem tabGet_nil (d : α) (k : Nat) : tabGet d [] k = d := rfl

@[simp] theorem tabWf_nil (d : α) : tabWf d [] = true := rfl

@[simp] theorem tabWf_single (d : α) (k : Nat) (v : α) : tabWf d [(k, v)] = decide (v ≠ d) := rfl

theorem tabWf_cons (d : α) (k : Nat) (v : α) (t : Tab α) :
    tabWf d ((k, v) :: t) = (decide (v ≠ d) && (t.all fun p => decide (k < p.1)) && tabWf d t) := by
  induction t generalizing k v with
  | nil => simp
  | cons p t ih =>
    obtain ⟨k', v'⟩ := p
    rw [show tabWf d ((k, v) :: (k', v') :: t) = (decide (v ≠ d) && decide (k < k') && tabWf d ((k', v') :: t)) from rfl, ih]
    simp only [List.all_cons]
    by_cases h : k < k'
    · by_cases h2 : (t.all fun p => decide (k' < p.1)) = true
      · have : (t.all fun p => decide (k < p.1)) = true := by
          simp only [List.all_eq_true, decide_eq_true_eq] at h2 ⊢
          intro x hx; exact Nat.lt_trans h (h2 x hx)
        rw [h2, this]; simp [h]
      · simp only [Bool.not_eq_true] at h2; simp [h2]
    · simp [h]

omit [DecidableEq α] in
theorem tabGet_of_lt (d : α) (k : Nat) (t : Tab α) (h : (t.all fun p => decide (k < p.1)) = true) : tabGet d t k = d := by
  induction t with
  | nil => rfl
  | cons p t ih =>
    simp only [List.all_cons, Bool.and_eq_true, decide_eq_true_eq] at h
    rw [tabGet, if_neg (by omega)]; exact ih h.2

/-- A write of a value other than the default is read back. -/
theorem tabGet_put_self (d : α) (t : Tab α) (k : Nat) (v : α) (h : v ≠ d) : tabGet d (tabPut d t k v) k = v := by
  induction t with
  | nil => simp [tabPut, h, tabGet]
  | cons p t ih =>
    obtain ⟨k', v'⟩ := p
    rw [tabPut]; split
    · simp [tabGet]
    · split
      · simp [tabGet]
      · rename_i h2; rw [tabGet, if_neg h2]; exact ih

/-- A write leaves every other key as it was. -/
theorem tabGet_put_ne (d : α) (t : Tab α) (k j : Nat) (v : α) (h : j ≠ k) : tabGet d (tabPut d t k v) j = tabGet d t j := by
  induction t with
  | nil => rw [tabPut]; split <;> simp [tabGet, h]
  | cons p t ih =>
    obtain ⟨k', v'⟩ := p
    rw [tabPut]
    split
    · split <;> simp [tabGet, h]
    · split
      · rename_i h2; subst h2
        split <;> simp [tabGet, h]
      · simp [tabGet, ih]

theorem tabPut_all (d : α) (t : Tab α) (k j : Nat) (v : α) (h : (t.all fun p => decide (j < p.1)) = true) (hj : j < k) :
    ((tabPut d t k v).all fun p => decide (j < p.1)) = true := by
  induction t with
  | nil => rw [tabPut]; split <;> simp [hj]
  | cons p t ih =>
    simp only [List.all_cons, Bool.and_eq_true, decide_eq_true_eq] at h
    rw [tabPut]
    repeat' split
    all_goals try simp only [List.all_cons, Bool.and_eq_true, decide_eq_true_eq]
    all_goals first | exact ⟨hj, h.1, h.2⟩ | exact ⟨hj, h.2⟩ | exact ⟨h.1, ih h.2⟩ | exact h | exact h.2

/-- A write keeps the canonical form. -/
theorem tabWf_put (d : α) (t : Tab α) (k : Nat) (v : α) (h : tabWf d t = true) : tabWf d (tabPut d t k v) = true := by
  induction t with
  | nil => rw [tabPut]; split <;> simp [*]
  | cons p t ih =>
    obtain ⟨k', v'⟩ := p
    rw [tabWf_cons] at h
    simp only [Bool.and_eq_true, decide_eq_true_eq] at h
    obtain ⟨⟨hv, ha⟩, ht⟩ := h
    rw [tabPut]
    split
    · rename_i hk
      split
      · rw [tabWf_cons]; simp [*]
      · rename_i hd
        have : (t.all fun p => decide (k < p.1)) = true := by
          simp only [List.all_eq_true, decide_eq_true_eq] at ha ⊢
          intro x hx; exact Nat.lt_trans hk (ha x hx)
        rw [tabWf_cons, tabWf_cons]; simp [*]
    · split
      · rename_i hk; subst hk
        split
        · exact ht
        · rename_i hd; rw [tabWf_cons]; simp [*]
      · rw [tabWf_cons, ih ht, tabPut_all d t k k' v ha (by omega)]; simp [hv]

/-- In a canonical table every write is read back. -/
theorem tabGet_put (d : α) (t : Tab α) (k j : Nat) (v : α) (h : tabWf d t = true) :
    tabGet d (tabPut d t k v) j = if j = k then v else tabGet d t j := by
  by_cases hj : j = k
  · subst hj
    simp only [if_true]
    induction t with
    | nil => rw [tabPut]; split <;> simp [tabGet, *]
    | cons p t ih =>
      obtain ⟨k', v'⟩ := p
      rw [tabWf_cons] at h
      simp only [Bool.and_eq_true, decide_eq_true_eq] at h
      obtain ⟨⟨-, ha⟩, ht⟩ := h
      rw [tabPut]
      split
      · rename_i hk
        split
        · rename_i hd
          rw [tabGet, if_neg (by omega), hd]
          refine tabGet_of_lt d j t ?_
          simp only [List.all_eq_true, decide_eq_true_eq] at ha ⊢
          intro x hx; exact Nat.lt_trans hk (ha x hx)
        · simp [tabGet]
      · split
        · rename_i hk; subst hk
          split
          · rename_i hd; rw [hd]; exact tabGet_of_lt d j t ha
          · simp [tabGet]
        · rename_i hk; rw [tabGet, if_neg hk]; exact ih ht
  · simp [hj, tabGet_put_ne]

/-- A table set into canonical form has it. -/
theorem tabWf_canon (d : α) (t : Tab α) : tabWf d (tabCanon d t) = true := by
  unfold tabCanon
  split
  · assumption
  · induction t with
    | nil => rfl
    | cons p t ih =>
      rw [List.foldr_cons]
      apply tabWf_put
      by_cases ht : tabWf d t = true
      · clear ih
        have : ∀ t : Tab α, tabWf d (t.foldr (fun p acc => tabPut d acc p.1 p.2) []) = true := by
          intro t; induction t with
          | nil => rfl
          | cons p t ih => exact tabWf_put d _ _ _ ih
        exact this t
      · exact ih ht

/-- The canonical form of a table reads as the table. -/
theorem tabGet_canon (d : α) (t : Tab α) (k : Nat) : tabGet d (tabCanon d t) k = tabGet d t k := by
  unfold tabCanon
  split
  · rfl
  · have hw : ∀ t : Tab α, tabWf d (t.foldr (fun p acc => tabPut d acc p.1 p.2) []) = true := by
      intro t; induction t with
      | nil => rfl
      | cons p t ih => exact tabWf_put d _ _ _ ih
    clear * - hw
    induction t with
    | nil => rfl
    | cons p t ih =>
      rw [List.foldr_cons, tabGet_put d _ _ _ _ (hw t), ih]
      rfl

theorem tabCanon_of_wf (d : α) (t : Tab α) (h : tabWf d t = true) : tabCanon d t = t := by simp [tabCanon, h]

end Sys2Proof.Machine
end

