-- ==== Sys2Proof/Laws/Tenants.lean ====
section
/-! SUPPORT. What the end of commands leaves of every tenant: all but its queue pairs, messages, events, and the count of commands discarded. -/

namespace Sys2Proof.Machine

theorem tn_modTn {d : Dev} (h : tabWf {} d.tenants = true) (n m : Nat) (f : Tenant → Tenant) :
    tn (modTn d n f) m = if m = n then f (tn d n) else tn d m := tabGet_put _ _ _ _ _ h

theorem tn_modTn_ne (d : Dev) {n m : Nat} (f : Tenant → Tenant) (h : m ≠ n) : tn (modTn d n f) m = tn d m := tabGet_put_ne _ _ _ _ _ h

theorem wf_modTn {d : Dev} (h : tabWf {} d.tenants = true) (n : Nat) (f : Tenant → Tenant) : tabWf {} (modTn d n f).tenants = true :=
  tabWf_put _ _ _ _ h

/-- A tenant without its queue pairs, messages, events and discards. -/
def Tenant.kept (t : Tenant) : Tenant :=
  { t with msix := [], qps := [], event := 0, discards := 0, drain := t.drain.map fun x => { x with ended := 0 } }

/-- `e` keeps what every tenant of `d` is, but for what the end of commands changes. -/
structure KeepsTenants (d e : Dev) : Prop where
  wf : tabWf {} d.tenants = true → tabWf {} e.tenants = true
  kept : tabWf {} d.tenants = true → ∀ n, (tn e n).kept = (tn d n).kept

theorem KeepsTenants.refl (d : Dev) : KeepsTenants d d := ⟨id, fun _ _ => rfl⟩

theorem KeepsTenants.of_eq {d e : Dev} (h : e.tenants = d.tenants) : KeepsTenants d e :=
  ⟨fun w => by rw [h]; exact w, fun _ n => by unfold tn; rw [h]⟩

theorem KeepsTenants.trans {d e f : Dev} (h : KeepsTenants d e) (g : KeepsTenants e f) : KeepsTenants d f :=
  ⟨fun w => g.wf (h.wf w), fun w n => (g.kept (h.wf w) n).trans (h.kept w n)⟩

theorem KeepsTenants.modTn (d : Dev) (n : Nat) (f : Tenant → Tenant) (h : ∀ t, (f t).kept = t.kept) : KeepsTenants d (modTn d n f) :=
  ⟨fun w => wf_modTn w n f, fun w m => by rw [tn_modTn w]; split <;> simp [*]⟩

theorem KeepsTenants.foldl {β : Type} (f : Dev → β → Dev) (h : ∀ d b, KeepsTenants d (f d b)) (l : List β) (d : Dev) :
    KeepsTenants d (l.foldl f d) := by
  induction l generalizing d with
  | nil => exact .refl d
  | cons b t ih => exact (h d b).trans (ih _)

theorem keeps_setQp (d fn q p) : KeepsTenants d (setQp d fn q p) := by
  cases fn with
  | pf => exact .of_eq rfl
  | vf n => exact .modTn d n (fun t => { t with qps := tabPut {} t.qps q p }) fun _ => rfl

theorem keeps_setVector (d fn v x) : KeepsTenants d (setVector d fn v x) := by
  cases fn with
  | pf => exact .of_eq rfl
  | vf n => exact .modTn d n (fun t => { t with msix := tabPut {} t.msix v x }) fun _ => rfl

theorem keeps_signalVector (d fn v) : KeepsTenants d (signalVector d fn v) := by
  unfold signalVector
  dsimp only
  split
  · exact .refl d
  · split
    · exact keeps_setVector _ _ _ _
    · exact .of_eq (dma_tenants _ _ _ _)

theorem keeps_countDiscard (d fn g) : KeepsTenants d (countDiscard d fn g) := by
  cases fn with
  | pf => exact .of_eq rfl
  | vf n =>
    refine KeepsTenants.trans (e := { d with host.discardTotal := d.host.discardTotal + 1 }) (.of_eq rfl) ?_
    refine KeepsTenants.modTn _ n (fun t => { t with
      discards := holdAt 32 (t.discards + 1)
      drain := t.drain.map fun x => if x.oldGen = g then { x with ended := x.ended + 1 } else x }) fun t => ?_
    cases h : t.drain with
    | none => simp [Tenant.kept, h]
    | some x => by_cases hx : x.oldGen = g <;> simp [Tenant.kept, h, hx]

theorem leaveClaim_tenants (d k) : (leaveClaim d k).tenants = d.tenants := by unfold leaveClaim; split <;> rfl

theorem leaveFormat_tenants (d k) : (leaveFormat d k).tenants = d.tenants := by unfold leaveFormat; split <;> rfl

theorem freeCtx_tenants (d k) : (freeCtx d k).tenants = d.tenants := (leaveFormat_tenants _ _).trans (leaveClaim_tenants _ _)

theorem wake_tenants (d k) : (wake d k).tenants = d.tenants := by unfold wake; split <;> rfl

theorem wakeWhere_tenants (d p) : (wakeWhere d p).tenants = d.tenants := by
  unfold wakeWhere
  generalize ctxsWhere d (fun c => c.code == csWaiting && p c) = l
  induction l generalizing d with
  | nil => rfl
  | cons k t ih => rw [List.foldl_cons, ih, wake_tenants]

theorem keeps_discard (d k) : KeepsTenants d (discard d k) := (keeps_countDiscard _ _ _).trans (.of_eq (freeCtx_tenants _ _))

theorem keeps_coalesce (d fn q entry) : KeepsTenants d (coalesce d fn q entry) := by
  unfold coalesce
  dsimp only
  split
  · exact .refl d
  · cases fn with
    | pf => exact keeps_signalVector _ _ _
    | vf n =>
      dsimp only
      split
      · exact (keeps_setQp _ _ _ _).trans (keeps_signalVector _ _ _)
      · exact keeps_setQp _ _ _ _

theorem keeps_postEntry (d fn q entry r n g fwd) : KeepsTenants d (postEntry d fn q entry r n g fwd) :=
  .trans (e := orderedWrite d _ _ _) (.of_eq (dma_tenants _ _ _ _)) (keeps_setQp _ _ _ _)

theorem keeps_fenceAfter (d fn q) : KeepsTenants d (fenceAfter d fn q) := by
  unfold fenceAfter
  dsimp only
  split
  · exact keeps_setQp _ _ _ _
  · split
    · exact .of_eq (wakeWhere_tenants _ _)
    · exact .refl d

theorem writeOuts_tenants (d c l) : (writeOuts d c l).tenants = d.tenants := by
  unfold writeOuts
  generalize streams c l = b
  induction l generalizing d with
  | nil => rfl
  | cons k t ih => rw [List.foldl_cons, ih]; cases b <;> exact dma_tenants _ _ _ _

theorem keeps_deliver (d k r ok fwd) : KeepsTenants d (deliver d k r ok fwd) := by
  unfold deliver
  dsimp only
  refine .trans (.of_eq ?_) ((keeps_postEntry _ _ _ _ _ _ _ _).trans ((KeepsTenants.of_eq (freeCtx_tenants _ _)).trans
    ((keeps_coalesce _ _ _ _).trans (keeps_fenceAfter _ _ _))))
  split
  · exact writeOuts_tenants _ _ _
  · exact (dma_tenants _ _ _ _).trans (writeOuts_tenants d _ _)

theorem applyRing_tenants (d) : (applyRing d).tenants = d.tenants := by unfold applyRing; split <;> rfl

theorem sendVia_tenants (east west d dst b) : (sendVia east west d dst b).tenants = d.tenants := by
  cases east <;> cases west <;> rfl

theorem sendFrame_tenants (d dst b) : (sendFrame d dst b).tenants = d.tenants := (sendVia_tenants _ _ _ _ _).trans (applyRing_tenants d)

/-- The end of a command keeps what every tenant is. -/
theorem keeps_finishWith (d k r ok fwd) : KeepsTenants d (finishWith d k r ok fwd) := by
  unfold finishWith
  dsimp only
  split
  · split
    · exact .of_eq ((sendFrame_tenants _ _ _).trans (freeCtx_tenants _ _))
    · exact .of_eq (freeCtx_tenants _ _)
  · split
    · exact keeps_discard _ _
    · split
      · exact .of_eq (freeCtx_tenants _ _)
      · split
        · split <;> exact .of_eq (leaveFormat_tenants _ _)
        · exact keeps_deliver _ _ _ _ _

theorem keeps_endWith (d k st) : KeepsTenants d (endWith d k st) := keeps_finishWith _ _ _ _ _

end Sys2Proof.Machine
end

