-- ==== Sys2Proof/Laws/After.lean ====
section
/-! SUPPORT. What follows every meaning, said once: what `settle` may change and what it makes of the event registers, what the canonical form leaves,
and which contexts the wakes may change. -/

namespace Sys2Proof.Machine

/-- A device in which only MSI-X state, tenants, held transfers and outputs differ. -/
def MsixOnly (d e : Dev) : Prop := ∃ pm ten m o, e = { d with host.pfMsix := pm, tenants := ten, act.dma := m, out := o }

theorem MsixOnly.refl (d : Dev) : MsixOnly d d := ⟨_, _, _, _, rfl⟩

theorem MsixOnly.trans {a b c : Dev} (h : MsixOnly a b) (g : MsixOnly b c) : MsixOnly a c := by
  obtain ⟨p, t, m, o, rfl⟩ := h
  obtain ⟨p', t', m', o', rfl⟩ := g
  exact ⟨p', t', m', o', rfl⟩

theorem msixOnly_dma (d : Dev) (cls : Nat) (kind : Access) (o : Out) : MsixOnly d (dma d cls kind o) := by
  unfold dma
  repeat' split
  all_goals exact ⟨_, _, _, _, rfl⟩

theorem MsixOnly.foldl {β : Type} (f : Dev → β → Dev) (h : ∀ d b, MsixOnly d (f d b)) (l : List β) (d : Dev) : MsixOnly d (l.foldl f d) := by
  induction l generalizing d with
  | nil => exact .refl d
  | cons b t ih => exact (h d b).trans (ih _)

theorem msixOnly_setVector (d : Dev) (fn : Fn) (v : Nat) (x : Vector') : MsixOnly d (setVector d fn v x) := by
  cases fn <;> exact ⟨_, _, _, _, rfl⟩

theorem msixOnly_signalVector (d : Dev) (fn : Fn) (v : Nat) : MsixOnly d (signalVector d fn v) := by
  unfold signalVector
  dsimp only
  split
  · exact .refl d
  · split
    · exact msixOnly_setVector ..
    · exact msixOnly_dma ..

theorem msixOnly_eventMessage (fn : Fn) (v old new en : Nat) (d : Dev) : MsixOnly d (eventMessage fn v old new en d) := by
  unfold eventMessage
  split
  · exact .refl d
  · exact msixOnly_signalVector ..

theorem msixOnly_messages (old d : Dev) : MsixOnly d (messages old d) := by
  unfold messages
  dsimp only
  refine MsixOnly.trans ?_ (.foldl _ (fun d n => msixOnly_eventMessage ..) _ _)
  refine MsixOnly.trans ?_ (msixOnly_eventMessage ..)
  refine MsixOnly.trans ?_ (msixOnly_eventMessage ..)
  refine MsixOnly.trans ?_ (msixOnly_eventMessage ..)
  refine MsixOnly.trans ?_ (msixOnly_eventMessage ..)
  refine MsixOnly.trans ?_ (msixOnly_eventMessage ..)
  exact msixOnly_eventMessage ..

/-- The edges of the VFs change tenants alone. -/
theorem allVfEdges_changes (old d : Dev) : ∃ ten, allVfEdges old d = { d with tenants := ten } := by
  have key : ∀ (l : List Nat) (d : Dev), ∃ ten, l.foldl (vfEdges old) d = { d with tenants := ten } := by
    intro l
    induction l with
    | nil => exact fun d => ⟨d.tenants, rfl⟩
    | cons n t ih =>
      intro d
      have h : ∃ ten, vfEdges old d n = { d with tenants := ten } := by
        unfold vfEdges
        dsimp only
        split
        · exact ⟨_, rfl⟩
        · exact ⟨d.tenants, rfl⟩
      obtain ⟨ten, h⟩ := h
      obtain ⟨ten', h'⟩ := ih (vfEdges old d n)
      exact ⟨ten', by rw [List.foldl_cons, h', h]⟩
  unfold allVfEdges
  split
  · exact key _ _
  · exact ⟨d.tenants, rfl⟩

theorem alertEdge_changes (old d : Dev) : ∃ a, alertEdge old d = { d with bay.smbAlert := a } ∧
    ((d.bay.checkDone && !old.bay.checkDone) || (d.bay.safeToRemove && !old.bay.safeToRemove) || (d.glb.failStop && !old.glb.failStop) → a = true) := by
  unfold alertEdge
  split
  · exact ⟨true, rfl, fun _ => rfl⟩
  · rename_i h
    exact ⟨d.bay.smbAlert, rfl, fun g => absurd g h⟩

theorem entropyEdges_changes (old d : Dev) : ∃ l, entropyEdges old d = { d with sen.submitted := l } := by
  unfold entropyEdges
  dsimp only
  split
  · exact ⟨_, rfl⟩
  · split <;> split <;> exact ⟨_, rfl⟩

/-- All that `settle` may change, and the event registers after it. -/
theorem settle_changes (old d : Dev) : ∃ al sub pm ten m o,
    settle old d = { blockEdges old d with bay.smbAlert := al, sen.submitted := sub, host.pfMsix := pm, tenants := ten, act.dma := m, out := o } ∧
    ((d.bay.checkDone && !old.bay.checkDone) || (d.bay.safeToRemove && !old.bay.safeToRemove) || (d.glb.failStop && !old.glb.failStop) → al = true) := by
  obtain ⟨ten, h1⟩ := allVfEdges_changes old (blockEdges old d)
  obtain ⟨al, h2, ha⟩ := alertEdge_changes old { blockEdges old d with tenants := ten }
  obtain ⟨sub, h3⟩ := entropyEdges_changes old { blockEdges old d with tenants := ten, bay.smbAlert := al }
  obtain ⟨pm, ten', m, o, h4⟩ := msixOnly_messages old { blockEdges old d with tenants := ten, bay.smbAlert := al, sen.submitted := sub }
  refine ⟨al, sub, pm, ten', m, o, ?_, ha⟩
  rw [settle, h1, h2, h3, h4]

/-! ## Canonical tables through `settle` -/

theorem wf_setVector_host (d : Dev) (fn : Fn) (v : Nat) (x : Vector') (h : tabWf {} d.host.pfMsix = true) : tabWf {} (setVector d fn v x).host.pfMsix = true := by
  cases fn
  · exact tabWf_put _ _ _ _ h
  · exact h

theorem wf_setVector_tenants (d : Dev) (fn : Fn) (v : Nat) (x : Vector') (h : tabWf {} d.tenants = true) : tabWf {} (setVector d fn v x).tenants = true := by
  cases fn
  · exact h
  · exact wf_modTn h _ _

/-- Both tables that messages write. -/
def MsixWf (d : Dev) : Prop := tabWf {} d.host.pfMsix = true ∧ tabWf {} d.tenants = true

theorem msixWf_signalVector (d : Dev) (fn : Fn) (v : Nat) (h : MsixWf d) : MsixWf (signalVector d fn v) := by
  unfold signalVector
  dsimp only
  split
  · exact h
  · split
    · exact ⟨wf_setVector_host _ _ _ _ h.1, wf_setVector_tenants _ _ _ _ h.2⟩
    · exact ⟨by rw [dma_host]; exact h.1, by rw [dma_tenants]; exact h.2⟩

theorem msixWf_eventMessage (fn : Fn) (v old new en : Nat) (d : Dev) (h : MsixWf d) : MsixWf (eventMessage fn v old new en d) := by
  unfold eventMessage
  split
  · exact h
  · exact msixWf_signalVector _ _ _ h

theorem msixWf_foldl {β : Type} (f : Dev → β → Dev) (hf : ∀ d b, MsixWf d → MsixWf (f d b)) (l : List β) (d : Dev) (h : MsixWf d) : MsixWf (l.foldl f d) := by
  induction l generalizing d with
  | nil => exact h
  | cons b t ih => exact ih _ (hf d b h)

theorem msixWf_settle (old d : Dev) (h : MsixWf d) : MsixWf (settle old d) := by
  have h1 : MsixWf (allVfEdges old (blockEdges old d)) := by
    unfold allVfEdges
    split
    · refine msixWf_foldl _ (fun d n g => ?_) _ _ h
      unfold vfEdges
      dsimp only
      split
      · exact ⟨g.1, wf_modTn g.2 _ _⟩
      · exact g
    · exact h
  have h2 : MsixWf (alertEdge old (allVfEdges old (blockEdges old d))) := by
    unfold alertEdge
    split <;> exact h1
  have h3 : MsixWf (entropyEdges old (alertEdge old (allVfEdges old (blockEdges old d)))) := by
    obtain ⟨l, e⟩ := entropyEdges_changes old (alertEdge old (allVfEdges old (blockEdges old d)))
    rw [e]
    exact h2
  unfold settle messages
  dsimp only
  refine msixWf_foldl _ (fun d n g => msixWf_eventMessage _ _ _ _ _ _ g) _ _ ?_
  iterate 6 refine msixWf_eventMessage _ _ _ _ _ _ ?_
  exact h3

/-! ## The wakes -/

/-- Wakes change contexts and ready lists alone. -/
theorem wakeWhere_changes (d : Dev) (p : Ctx → Bool) : ∃ c r, wakeWhere d p = { d with sch.ctxs := c, sch.ready := r } := by
  unfold wakeWhere
  generalize ctxsWhere d _ = l
  induction l generalizing d with
  | nil => exact ⟨_, _, rfl⟩
  | cons k t ih =>
    have h : ∃ c r, wake d k = { d with sch.ctxs := c, sch.ready := r } := by
      unfold wake
      split
      · exact ⟨_, _, rfl⟩
      · exact ⟨_, _, rfl⟩
    obtain ⟨c, r, h⟩ := h
    obtain ⟨c', r', h'⟩ := ih (wake d k)
    exact ⟨c', r', by rw [List.foldl_cons, h', h]⟩

/-- Taking a unit changes the units alone. -/
theorem takeUnit_changes {d e : Dev} {k : Nat} {kind : UnitKind} {key locked : Option Nat} (h : takeUnit d k kind key locked = .got e) :
    ∃ l p q u, e = { d with eng.lanes := l, eng.pins := p, eng.pks := q, cvu.units := u } := by
  unfold takeUnit at h
  dsimp only at h
  repeat' split at h
  all_goals first | (cases h; done) | (cases h; exact ⟨_, _, _, _, rfl⟩)

/-- Contexts, ready lists and units alone differ. -/
def WokenOnly (d e : Dev) : Prop :=
  ∃ c r l p q u, e = { d with sch.ctxs := c, sch.ready := r, eng.lanes := l, eng.pins := p, eng.pks := q, cvu.units := u }

theorem WokenOnly.refl (d : Dev) : WokenOnly d d := ⟨_, _, _, _, _, _, rfl⟩

theorem WokenOnly.trans {a b c : Dev} (h : WokenOnly a b) (g : WokenOnly b c) : WokenOnly a c := by
  obtain ⟨_, _, _, _, _, _, rfl⟩ := h
  obtain ⟨_, _, _, _, _, _, rfl⟩ := g
  exact ⟨_, _, _, _, _, _, rfl⟩

theorem wokenOnly_pushReady (d : Dev) (k : Nat) : WokenOnly d (pushReady d k) := ⟨_, _, _, _, _, _, rfl⟩

theorem wokenOnly_serveUnit (d : Dev) (k : Nat) : WokenOnly d (serveUnit d k) := by
  unfold serveUnit
  split
  · exact .refl d
  · split
    · rename_i h
      obtain ⟨_, _, _, _, rfl⟩ := takeUnit_changes h
      exact .trans ⟨_, _, _, _, _, _, rfl⟩ (wokenOnly_pushReady _ k)
    · exact wokenOnly_pushReady _ _
    · exact .refl d

theorem wokenOnly_serveUnits (d : Dev) : WokenOnly d (serveUnits d) := by
  unfold serveUnits
  generalize unitQueue d = l
  induction l generalizing d with
  | nil => exact .refl d
  | cons k t ih => exact (wokenOnly_serveUnit d k).trans (ih _)

theorem wokenOnly_wakeWhere (d : Dev) (p : Ctx → Bool) : WokenOnly d (wakeWhere d p) := by
  obtain ⟨c, r, h⟩ := wakeWhere_changes d p
  exact ⟨c, r, _, _, _, _, h⟩

theorem wokenOnly_wakeEntropy (old d : Dev) : WokenOnly d (wakeEntropy old d) := by
  unfold wakeEntropy
  split
  · exact wokenOnly_wakeWhere ..
  · exact .refl d

theorem wokenOnly_orderWoken (old d : Dev) : WokenOnly d (orderWoken old d) := ⟨_, _, _, _, _, _, rfl⟩

/-- All that follows a meaning, up to `settle`: requests served, contexts woken and every store in its canonical form. -/
theorem after_changes (old d : Dev) : ∃ e, WokenOnly d e ∧ Dev.after old d = settle old (canon e) :=
  ⟨_, (wokenOnly_serveUnits d).trans ((wokenOnly_wakeEntropy old _).trans ((wokenOnly_wakeWhere _ _).trans (wokenOnly_orderWoken old _))), rfl⟩

/-! ## Meanings -/

/-- Every meaning that answers a next state answers the state after some device. -/
theorem exec_after (c : Instr) (s t : State) (h : exec c s = .next t) : ∃ d, t = s.after d := by
  cases c
  case jtagAccess =>
    simp only [exec, execJtagAccess] at h
    split at h
    · cases h
    · exact ⟨_, (Host.Outcome.next.inj h).symm⟩
  case serviceUartInput =>
    simp only [exec, execServiceUartInput] at h
    split at h
    · cases h
    · exact ⟨_, (Host.Outcome.next.inj h).symm⟩
  all_goals exact ⟨_, (Host.Outcome.next.inj h).symm⟩

end Sys2Proof.Machine
end

