-- ==== Sys2Proof/Laws/Run.lean ====
section
/-! SUPPORT. The course of a host command in one lemma: a command that reaches its effect runs it. -/

namespace Sys2Proof.Machine

open Sys2Proof.Safety

theorem readCommand_fields {card : Card} {d : Dev} {k : Nat} {i : Inputs} {c : Cmd} (h : readCommand card d k i = .ok c) :
    c.k = k ∧ c.i = i ∧ c.fn = (ctxOf d k).fn ∧ c.inbound = (ctxOf d k).origin.isSome ∧ c.entry = (ctxOf d k).entry := by
  unfold readCommand at h
  dsimp only at h
  repeat' split at h
  all_goals first | (cases h; done) | (injection h with h; subst h; exact ⟨rfl, rfl, rfl, rfl, rfl⟩)

/-- A command of which nothing concerns another member asks for no change lock; outside a ring it takes the holds of its keys. -/
theorem runLocks_here {card : Card} {d : Dev} {c : Cmd} (h : staysHere card d c = true)
    (hfree : holdsHere card d c = true → (lockKeys card d c).any (heldByOther d c.k) = false) :
    runLocks card d c = runChecks card (if holdsHere card d c then holdKeys d c.k (lockKeys card d c) else d) c := by
  simp only [staysHere, Bool.or_eq_true, Bool.not_eq_true', Bool.and_eq_true] at h
  rcases h with h | ⟨⟨h, -⟩, -⟩
  · unfold runLocks
    simp only [holdsHere, h, Bool.not_false, Bool.true_and] at hfree ⊢
    cases hk : (lockKeys card d c).isEmpty <;> cases ha : holdsAlone card <;> simp_all
  · have hk : lockKeys card d c = [] := by simp [lockKeys, List.isEmpty_iff.mp h]
    simp [runLocks, holdsHere, hk]

/-- Nor is it sent to another member. -/
theorem runRoute_here {card : Card} {d : Dev} {c : Cmd} (h : staysHere card d c = true) : runRoute card d c = runRecords card d c := by
  simp only [staysHere, Bool.or_eq_true, Bool.not_eq_true', Bool.and_eq_true] at h
  unfold runRoute
  rcases h with h | ⟨-, h⟩
  · simp [h]
  · cases hr : card.route c <;> simp_all
    split <;> simp_all

/-- Nor does it ask for a transfer. -/
theorem no_transfer_here {card : Card} {d : Dev} {c : Cmd} (h : staysHere card d c = true) :
    (card.handles c).find? (fun h => joined d && !holds d h && !(ctxOf d c.k).asked.contains h && (mapOf d (bucketOf h)).st != 5) = none := by
  simp only [staysHere, Bool.or_eq_true, Bool.not_eq_true', Bool.and_eq_true] at h
  rcases h with h | ⟨⟨-, h⟩, -⟩
  · simp [h]
  · rw [List.find?_eq_none]
    intro x hx
    simp [List.all_eq_true.mp h x hx]

/-- The device on which a command's own checks are made, where nothing of it concerns another member. -/
theorem runRecords_of_atHand {card : Card} {d e : Dev} {c : Cmd} (h : recordsAtHand card d c = some e) : runRecords card d c = runChecks card e c := by
  unfold recordsAtHand at h
  dsimp only at h
  split at h
  · cases h
  rename_i h0
  simp only [Bool.or_eq_true, Bool.not_eq_true', not_or, Bool.not_eq_true, Bool.not_eq_false, Option.isSome_eq_false_iff,
    Option.isNone_iff_eq_none] at h0
  obtain ⟨⟨⟨-, hst⟩, hheld⟩, hstop⟩ := h0
  unfold runRecords
  dsimp only
  rw [if_neg (by simp [hheld]), no_transfer_here hst, hstop]
  dsimp only
  split at h
  · rename_i hh
    cases h
    rw [runLocks_here hst (by simp_all)]
    simp_all
  · rename_i hh
    split at h
    · cases h
    rename_i hany
    cases h
    rw [runLocks_here hst (by simp_all)]
    simp_all

/-- What passing the checks on the entry leaves of a context and of Bus Master Enable. -/
theorem passEntry_fields (d : Dev) (k : Nat) :
    (ctxOf (passEntry d k) k).origin = (ctxOf d k).origin ∧ (ctxOf (passEntry d k) k).inputs = (ctxOf d k).inputs ∧
      (ctxOf (passEntry d k) k).fn = (ctxOf d k).fn ∧ ∀ fn, bmeOf (passEntry d k) fn = bmeOf d fn := by
  unfold passEntry
  dsimp only
  split
  · exact ⟨rfl, rfl, rfl, fun _ => rfl⟩
  · have e : ∀ f : Ctx → Ctx, (f (ctxOf d k)).policyPassed = true → ctxOf (modCtx d k f) k = f (ctxOf d k) := fun f hf =>
      tabGet_put_self _ _ _ _ fun h => by rw [h] at hf; cases hf
    rw [e _ rfl]
    exact ⟨rfl, rfl, rfl, fun fn => by cases fn <;> rfl⟩

/-- A command whose checks before its card's own pass comes to those: one that fails ends the command with its status, otherwise a unit is sought. -/
theorem execCard_of_ready {card : Card} {d : Dev} {k : Nat} {i : Inputs} {c : Cmd} {d1 : Dev} (h : ready card d k i = some (c, d1)) :
    c.k = k ∧ c.i = i ∧ execCard card k i d =
      match card.check c d1 with
      | some st => refuse (meetInvalid card d1 c) c.k st
      | none =>
        match takeUnit d1 c.k (card.unit c) (laneKey card d1 c) (lockedLane card d1 c) with
        | .offline => refuse d1 c.k stInternalFault
        | .waits => awaitUnit (modCtx d1 c.k fun x => { x with inputs := some c.i }) c.k (card.unit c) (laneKey card d1 c) (lockedLane card d1 c)
        | .got d2 => runReady card d2 c := by
  unfold ready at h
  split at h
  · cases h
  rename_i h0
  simp only [Bool.or_eq_true, Bool.not_eq_true', not_or, Bool.not_eq_true, Option.isSome_eq_false_iff, Option.isNone_iff_eq_none, Bool.not_eq_false] at h0
  obtain ⟨hr, hf⟩ := h0
  simp only [runsHere, Bool.and_eq_true, beq_iff_eq, Bool.not_eq_true', Option.isNone_iff_eq_none] at hr
  obtain ⟨⟨⟨⟨⟨⟨hc, ho⟩, hor⟩, hin⟩, hg⟩, hb⟩, hs⟩ := hr
  split at h
  · cases h
  rename_i c' hread
  obtain ⟨hk, hi, hfn, hinb, hent⟩ := readCommand_fields hread
  split at h
  · cases h
  rename_i d1' horig
  split at h
  · cases h
  rename_i e hhand
  split at h
  · cases h
  rename_i hpre
  rw [Bool.not_eq_true, Option.isSome_eq_false_iff, Option.isNone_iff_eq_none] at hpre
  obtain ⟨po, pi, pfn, pb⟩ := passEntry_fields d k
  have hst' : staysHere card d1' c' = true := by
    unfold recordsAtHand at hhand
    dsimp only at hhand
    split at hhand
    · cases hhand
    · simp_all
  have hinb' : c'.inbound = false := by rw [hinb, po, hor]; rfl
  have e1 : execCard card k i d = runChecks card e c' := by
    simp only [execCard, hc, ho, and_self, if_true, runCard, inputsOf, hin, abandoned, hg, bne_self_eq_false, Bool.and_false, Bool.false_and,
      Bool.false_eq_true, if_false, hf, pb, hb, Bool.not_true, hread, runOrigin, hinb', horig, runRoute_here hst', hk, pi, Option.isSome_none, Bool.or_self]
    exact runRecords_of_atHand hhand
  cases happ : approvedBy card e c' with
  | none => rw [happ] at h; cases h
  | some d2 =>
    rw [happ] at h
    cases h
    refine ⟨hk, hi, ?_⟩
    rw [e1]
    unfold runChecks
    rw [hpre, happ]
    all_goals rfl

/-- A command that is served runs its effect. -/
theorem runReady_of_served {card : Card} {d : Dev} {c : Cmd} {e : Dev} (h : served card d c = some e) :
    ∃ d2, takeUnit d c.k (card.unit c) (laneKey card d c) (lockedLane card d c) = .got d2 ∧
      runReady card d2 c = runEffect card e c := by
  unfold served at h
  split at h
  · rename_i d2 hu
    refine ⟨d2, hu, ?_⟩
    dsimp only at h
    unfold runReady
    dsimp only
    generalize (if drbgNeed card c = 0 then d2 else drbgBefore (decide (drbgNeed card c = 2)) d2) = d3 at h ⊢
    by_cases hd : (decide (0 < drbgNeed card c) && !drbgUp d3) = true
    · rw [if_pos hd] at h; cases h
    rw [if_neg hd] at h ⊢
    by_cases hw : (card.writesOut c && !bmeOf d3 c.fn) = true
    · rw [if_pos hw] at h; cases h
    rw [if_neg hw] at h
    cases h
    rw [if_neg]
    intro hx; apply hw
    simp only [Bool.and_eq_true] at hx ⊢
    exact ⟨hx.1.1.1, hx.1.2⟩
  · cases h

/-- A command that reaches its effect runs it on the device that its checks, its unit and its randomness leave. -/
theorem execCard_of_reach {card : Card} {d : Dev} {k : Nat} {i : Inputs} {c : Cmd} {e : Dev} (h : reach card d k i = some (c, e)) :
    c.k = k ∧ c.i = i ∧ execCard card k i d = runEffect card e c := by
  unfold reach at h
  split at h
  · rename_i c' d1 hready
    obtain ⟨hk, hi, he⟩ := execCard_of_ready hready
    split at h
    · cases h
    rename_i hchk
    rw [Bool.not_eq_true, Option.isSome_eq_false_iff, Option.isNone_iff_eq_none] at hchk
    cases hs : served card d1 c' with
    | none => rw [hs] at h; cases h
    | some e' =>
      rw [hs] at h
      cases h
      obtain ⟨d2, hu, hrun⟩ := runReady_of_served hs
      exact ⟨hk, hi, by rw [he, hchk]; dsimp only; rw [hu]; exact hrun⟩
  · cases h

theorem readCommand_ok {card : Card} {d : Dev} {k : Nat} {i : Inputs} {c : Cmd} (h : readCommand card d k i = .ok c) :
    card.lenLate c = true ∧ card.paramOk c = true := by
  unfold readCommand at h
  dsimp only at h
  repeat' split at h
  all_goals first | (cases h; done) | skip
  rename_i h1 h2 _
  injection h with h
  subst h
  simp only [Bool.not_eq_true', Bool.not_eq_false] at h1
  simp only [Bool.or_eq_true, Bool.not_eq_true', not_or, Bool.not_eq_true, Bool.not_eq_false] at h2
  exact ⟨h1, h2.2⟩

/-- What a command that reached its own checks has passed. -/
theorem ready_passed {card : Card} {d : Dev} {k : Nat} {i : Inputs} {c : Cmd} {d1 : Dev} (h : ready card d k i = some (c, d1)) :
    card.lenLate c = true ∧ card.paramOk c = true ∧ c.fn = (ctxOf d k).fn ∧ c.inbound = false := by
  unfold ready at h
  split at h
  · cases h
  rename_i h0
  split at h
  · cases h
  rename_i c' hread
  split at h
  · cases h
  split at h
  · cases h
  rename_i e _
  split at h
  · cases h
  cases happ : approvedBy card e c' with
  | none => rw [happ] at h; cases h
  | some d2 =>
    rw [happ] at h
    cases h
    obtain ⟨-, -, hfn, hinb, -⟩ := readCommand_fields hread
    obtain ⟨po, -, pfn, -⟩ := passEntry_fields d k
    simp only [Bool.or_eq_true, Bool.not_eq_true', not_or, Bool.not_eq_true, Bool.not_eq_false, runsHere, Bool.and_eq_true, Option.isNone_iff_eq_none] at h0
    refine ⟨(readCommand_ok hread).1, (readCommand_ok hread).2, by rw [hfn, pfn], ?_⟩
    rw [hinb, po]
    simp [h0]

/-- A command that reaches its effect passed its checks and was served. -/
theorem reach_passed {card : Card} {d : Dev} {k : Nat} {i : Inputs} {c : Cmd} {e : Dev} (h : reach card d k i = some (c, e)) :
    card.lenLate c = true ∧ card.paramOk c = true ∧ c.fn = (ctxOf d k).fn ∧ c.inbound = false ∧
      ∃ d1, ready card d k i = some (c, d1) ∧ card.check c d1 = none ∧ served card d1 c = some e := by
  unfold reach at h
  split at h
  · rename_i c' d1 hready
    split at h
    · cases h
    rename_i hchk
    rw [Bool.not_eq_true, Option.isSome_eq_false_iff, Option.isNone_iff_eq_none] at hchk
    cases hs : served card d1 c' with
    | none => rw [hs] at h; cases h
    | some e' =>
      rw [hs] at h
      cases h
      obtain ⟨h1, h2, h3, h4⟩ := ready_passed hready
      exact ⟨h1, h2, h3, h4, d1, hready, hchk, hs⟩
  · cases h

/-- A command's row leaves what its card's effect and the end of its run leave. -/
theorem ends_of_eff {row : Instr} {card : Card} {s : State} {k : Nat} {i : Inputs} {c : Cmd} {d e : Dev} {r : Reply}
    (hrow : exec row s = s.onDev (execCard card k i)) (h : reach card s.dev k i = some (c, d)) (he : card.eff c d = (e, .done r)) :
    ends row s d e k r i := by
  obtain ⟨hk, hi, hx⟩ := execCard_of_reach h
  simp only [ends, hrow, State.onDev, hx, runEffect, he, hk, hi]

/-- A command's row leaves it waiting as its card's effect says. -/
theorem waits_of_eff {row : Instr} {card : Card} {s : State} {k : Nat} {i : Inputs} {c : Cmd} {d e : Dev} {w : Wait}
    (hrow : exec row s = s.onDev (execCard card k i)) (h : reach card s.dev k i = some (c, d)) (he : card.eff c d = (e, .waits w)) :
    leavesWaiting row s e k w i := by
  obtain ⟨hk, hi, hx⟩ := execCard_of_reach h
  simp only [leavesWaiting, hrow, State.onDev, hx, runEffect, he, hk, hi]

/-- A command whose own checks pass and which is served reaches its effect. -/
theorem reach_of_ready {card : Card} {d : Dev} {k : Nat} {i : Inputs} {c : Cmd} {d1 e : Dev} (h : ready card d k i = some (c, d1))
    (hc : card.check c d1 = none) (hs : served card d1 c = some e) : reach card d k i = some (c, e) := by
  simp [reach, h, hc, hs]

/-- A command whose own checks fail ends with their status. -/
theorem refuses_of_check {row : Instr} {card : Card} {s : State} {k : Nat} {i : Inputs} {c : Cmd} {d : Dev} {st : Nat}
    (hrow : exec row s = s.onDev (execCard card k i)) (h : ready card s.dev k i = some (c, d)) (hc : card.check c d = some st) :
    leaves row s (refuse (meetInvalid card d c) k st) := by
  obtain ⟨hk, hi, hx⟩ := execCard_of_ready h
  simp only [leaves, hrow, State.onDev, hx, hc, hk]

/-- An effect that ends in an edit of the vault. -/
theorem edits_of_eff {row : Instr} {card : Card} {s : State} {k : Nat} {i : Inputs} {c : Cmd} {d d1 : Dev} {edit : Edit} {r : Reply}
    (hrow : exec row s = s.onDev (execCard card k i)) (h : reach card s.dev k i = some (c, d))
    (he : card.eff c d = match applyEdit d1 edit with | (e, true) => (e, .done r) | (e, false) => (e, .done (bare stBusy))) :
    edits row s d d1 edit k r i := by
  unfold edits
  rcases hx : applyEdit d1 edit with ⟨e, b⟩
  rw [hx] at he
  cases b <;> exact ends_of_eff hrow h he

/-- A host write that the table lets through writes its register. -/
theorem hostWrite_of_may {fn : Fn} {off bytes v : Nat} {d : Dev} (h : hostMay d fn off bytes = true) :
    hostWrite fn off bytes v d = writeImage fn off bytes v d := by
  simp only [hostMay, Bool.and_eq_true, beq_iff_eq, List.isEmpty_iff, Option.isNone_iff_eq_none] at h
  obtain ⟨⟨⟨⟨hf, hs⟩, hw⟩, hr⟩, hd⟩ := h
  have e : serveWaiting d = d := by
    unfold serveWaiting
    rw [hw]
    show ({ d with act.waiting := [] } : Dev) = d
    rw [← hw]
  simp [hostWrite, arriveAccess, hf, hs, e, performAccess, hr, hostAccess, hd]

end Sys2Proof.Machine
end

