-- ==== Sys2Proof/Tests/Slice0.lean ====
section
/-! SUPPORT. Tests: the refusals of WellFormed, the manual's worked values, and for every clause of the statements a state and operands that meet its
hypotheses. A clause that speaks of a command that reaches its effect is met by `met`, with what else the clause asks of the command and the device. -/

namespace Sys2Proof.Tests

set_option Elab.async false

open Sys2Proof.Machine Sys2Proof.Safety

/-! ## Helpers -/

/-- `n` parameter bytes: fields given as offset, length and value, zero elsewhere. -/
def par (n : Nat) (l : List (Nat × Nat × Nat)) : Bytes :=
  (List.range n).map fun j => match l.find? fun f => decide (f.1 ≤ j) && decide (j < f.1 + f.2.1) with
    | some f => (natLe f.2.1 f.2.2).getD (j - f.1) 0
    | none => 0

/-- A command entry with its parameters inside it (04 R97). -/
def entryOf (op units dlen : Nat) (p : Bytes) : Bytes :=
  natLe 2 op ++ [0] ++ natLe 1 1 ++ natLe 4 0x1234 ++ natLe 2 p.length ++ natLe 2 units ++ natLe 4 dlen ++ natLe 8 0x5000 ++ natLe 8 0x6000 ++
    p ++ zeroBytes (96 - p.length)

/-- Tenant 1, admitted to every class and group. -/
def tenant1 : Tenant := { enable := true, bme := true, policySet := true, groupMask := 0xFF, classMask := 0xFFE, maxPrio := 2, contextCap := 16 }

/-- A DIMM that passes 02 R56. -/
def dimm : Dimm := { fitted := true, rdimmEcc := true, megaTransfers := 4800, gigabytes := 16 }

/-- A seated module in service, in no ring, with Bus Master Enable set, two DIMMs fitted and no record in its vault. -/
def svc : Dev :=
  { Dev.reset with
    bay := { resetBay with auxPower := true, auxLogic := true, p12v := true, ramped := true, mainLoads := true, fabric := true, seatHigh := false, checkDone := true,
                           dimms := [dimm, dimm], dimmOk := [true, true, false, false] }
    glb := { resetGlb with fwRunning := true, vaultLoaded := true, rootOk := true }
    host := { resetHost with linkUp := true, vfEnable := true, numVFs := 2, pfBme := true }
    lcd := { resetLcd with st := 0x96 }
    vmp := { resetVmp with st := 0x96, n := 2 ^ 29, channels := 3, dimmCount := 2 }
    sen := { resetSen with response := 0x33 }
    ent := { resetEnt with seeded := true, online := 15 }
    act := { resetAct with entries := tabPut {} actAtReset 32 (vfEntry 2) }
    tenants := [(1, tenant1)] }

/-- A device whose context 1 runs a command of a function. -/
def running (d : Dev) (fn : Fn) (e : Bytes) : Dev := setCtx d 1 { code := csRunning, fn, gen := genOf d fn, entry := e, level := 1 }

/-- Context 1 runs a command of the PF, and one of tenant 1. -/
def pfRun (d : Dev) (op units dlen : Nat) (p : Bytes) : Dev := running d .pf (entryOf op units dlen p)
def vfRun (d : Dev) (op units dlen : Nat) (p : Bytes) : Dev := running d (.vf 1) (entryOf op units dlen p)

/-- The command in context 1 reaches its effect, with what `p` asks of it. -/
def met (card : Card) (d : Dev) (i : Inputs) (p : Cmd → Dev → Bool) : Bool :=
  match reach card d 1 i with
  | some x => p x.1 x.2
  | none => false

/-- A vault with records in its slots from 0 on. -/
def withRecs (d : Dev) (l : List Record) : Dev := { d with vmp.slots := l.zipIdx.map fun p => (p.2, p.1) }

/-- A state of a device with no command waiting. -/
def st (d : Dev) : State := { dev := d, pending := [] }

/-- The APPROVAL held by the command in context 1 (14 R412). -/
def approved (d : Dev) : Dev := modCtx d 1 fun c => { c with approved := true }

/-- A keeper that holds a key of zeros. -/
def keeper1 : Keeper := { resetKeeper with cells0 := some (zeroBytes 32, zeroBytes 32), zeroised := false }
/-- A root store whose slots are as given: bank A VERIFIED, its content wrapped under that key. -/
def storing (d : Dev) (l : List (Nat × Bytes)) : Dev :=
  let d := { d with keeper := keeper1 }
  { d with keys := { d.keys with root := l.foldl (fun t p => tabPut {} t p.1 { a := { code := 0x55, seq := 1, wrapped := wrapRoot d p.2 } }) [] } }
/-! ## Management, vault (04 R115 to R120; 07 R225 to R229) -/

theorem met_identify : met cardIdentify (pfRun svc 0x0001 1 0 []) {} (fun _ _ => true) = true := by decide +kernel
theorem met_get_status : met cardGetStatus (vfRun svc 0x0002 1 0 []) {} (fun _ _ => true) = true := by decide +kernel
theorem met_set_tenant_config :
    met cardSetTenantConfig (pfRun svc 0x0010 0 0 (par 16 [(0, 2, 1), (2, 1, 3), (4, 2, 8), (6, 2, 0x010), (8, 4, 0x81)])) {} (fun c _ => c.b2 0 == 1) = true := by
  decide +kernel
theorem met_get_tenant_config : met cardGetTenantConfig (vfRun svc 0x0012 0 0 (par 4 [(0, 2, 1)])) {} (fun c _ => c.b2 0 == 1) = true := by decide +kernel

theorem met_reset_tenant : met cardResetTenant (pfRun svc 0x0011 0 0 (par 4 [(0, 2, 1)])) {}
    (fun c d => tabWf {} d.tenants && !resetWaits d (c.b2 0) (ctxOf d 1).fetchNo && c.b1 2 == 0) = true := by decide +kernel

/-- A tenant's command in flight beside the RESET_TENANT. -/
def busyTenant : Dev := setCtx svc 2 { code := csReady, fn := .vf 1, gen := 1, level := 2, entry := entryOf 0x2001 0 0 [] }

theorem met_reset_tenant_drain : met cardResetTenant (pfRun busyTenant 0x0011 0 0 (par 4 [(0, 2, 1), (2, 1, 1)])) {}
    (fun c d => !resetWaits d (c.b2 0) (ctxOf d 1).fetchNo && c.b1 2 == 1 &&
      !drained (beginReset d 1 (c.b2 0) true) (c.b2 0) (tn d (c.b2 0)).gen) = true := by decide +kernel

/-- A RESET_TENANT with DRAIN whose last command has ended. -/
def drainOver : Dev :=
  modTn (setCtx svc 1 { code := csWaiting, fn := .pf, gen := 1, entry := entryOf 0x0011 0 0 (par 4 [(0, 2, 1), (2, 1, 1)]), wait := .tenantDrain 1 }) 1
    fun t => { t with gen := 2, drain := some { ctx := 1, oldGen := 1, newGen := 2, ended := 0, resets := 1 } }

theorem meets_drain_end : (ctxOf drainOver 1).wait = .tenantDrain 1 ∧ (drainOf drainOver 1).any (fun x => x.ctx == 1 && drained drainOver 1 x.oldGen) = true ∧
    (ctxOf drainOver 1).code = csWaiting := by decide +kernel

/-- A log with one entry. -/
def logged : Dev := place svc { type := 0x0030 }

theorem met_log_read : met cardLogRead (pfRun logged 0x0020 1 0 (par 16 [(8, 4, 1)])) {} (fun c d => !(logSlice c d).isEmpty) = true := by decide +kernel

/-- A module without a vault. -/
def empty : Dev := { svc with vmp := resetVmp, glb := { svc.glb with vaultLoaded := false } }

theorem met_vault_load_begin : met cardVaultLoadBegin (pfRun empty 0x0101 0 0 (par 8 [])) {}
    (fun _ d => !joined d && (population d).isSome) = true := by decide +kernel

/-- A vault being loaded. -/
def loading : Dev := { svc with vmp := { svc.vmp with st := 0x55 }, glb := { svc.glb with vaultLoaded := false } }

theorem met_vault_load_records : met cardVaultLoadRecords (pfRun loading 0x0102 0 168 (par 8 [])) { data := some (zeroBytes 168) }
    (fun c d => (loadAll (bit (c.b1 0) 0) (chunks 168 c.data) {} d).2.2 == stOk) = true := by decide +kernel

theorem met_vault_load_end : met cardVaultLoadEnd (pfRun { loading with vmp := { loading.vmp with acceptStale := true } } 0x0103 0 0 (par 8 [(0, 1, 1)])) {}
    (fun c d => !joined d && (loadEndFail c d []).isNone && (applyEdit d { puts := [], drops := brokenChains [] }).2 &&
      !joined (applyEdit d { puts := [], drops := [] }).1 && (d.vmp.slots.map Prod.snd ++ d.vmp.tombs).isEmpty) = true := by decide +kernel

/-- A module with its root slots in force. -/
def rooted (d : Dev) (slots : List Nat) : Dev := storing d (slots.map fun j => (j, []))

theorem met_vault_save_manifest : met cardVaultSave (pfRun (rooted svc [0, 1, 2]) 0x0104 2 0 (par 24 [(0, 1, 1)])) {}
    (fun c d => !joined d && c.b1 0 == 1 && (manifestKey d).isSome) = true := by decide +kernel

theorem met_vault_save_tenant : met cardVaultSave (pfRun (rooted svc [0x1001]) 0x0104 3 0 (par 24 [(0, 1, 2), (2, 2, 1), (4, 4, 1)])) {}
    (fun c d => !joined d && c.b1 0 == 2 && (bankInForce d (rootSlot d (0x1000 + c.b2 2))).isSome) = true := by decide +kernel

theorem met_vault_poison_report : met cardVaultPoisonReport (pfRun svc 0x0105 1 0 (par 8 [(4, 4, 1)])) {} (fun _ _ => true) = true := by decide +kernel

/-! ## Life cycle and dual control (14 R398 to R428; 02 R63) -/

def token1 : TokenSession := { target := 0x3C, shares := [], openedAt := 0 }
def tokened : Dev := { svc with lcd := { svc.lcd with token := some token1 } }
def draining1 : Dev := { svc with lcd := { svc.lcd with phase := .draining, pendingTarget := 0xF0 } }

theorem met_lifecycle_begin : met cardLifecycleTransition (pfRun svc 0x0201 0 0 (par 48 [(1, 1, 0x3C)])) {} (fun c _ => c.b1 0 == 0) = true := by decide +kernel
theorem met_lifecycle_share : met cardLifecycleTransition (pfRun tokened 0x0201 0 0 (par 48 [(0, 1, 1), (2, 1, 2), (0x10, 32, 7)])) {}
    (fun c _ => c.b1 0 == 1) = true := by decide +kernel
theorem met_lifecycle_abort : met cardLifecycleTransition (pfRun tokened 0x0201 0 0 (par 48 [(0, 1, 3)])) {} (fun c _ => c.b1 0 == 3) = true := by decide +kernel
theorem met_lifecycle_execute : met cardLifecycleTransition (pfRun { svc with lcd := { svc.lcd with st := 0x3C } } 0x0201 0 0 (par 48 [(0, 1, 2), (1, 1, 0xF0)])) {}
    (fun c d => c.b1 0 == 2 && !lcNeedsToken d.lcd.st (c.b1 1)) = true := by decide +kernel
/-- Three shares given, of a service module. -/
def shared3 : Dev := { tokened with lcd := { tokened.lcd with token := some { token1 with shares := [(0, [1]), (1, [2]), (2, [3])] } } }
theorem met_lifecycle_token : met cardLifecycleTransition (pfRun shared3 0x0201 0 0 (par 48 [(0, 1, 2), (1, 1, 0x3C)])) {}
    (fun c d => c.b1 0 == 2 && lcNeedsToken d.lcd.st (c.b1 1) && d.lcd.token.isSome) = true := by decide +kernel
theorem meets_lifecycle_drain : draining1.lcd.phase = .draining ∧ ({ svc.lcd with phase := .wiping } : Lcd).phase = .wiping ∧ canonical draining1 = true := by
  decide +kernel

/-- An enrolment as far as its serial (14 R405). -/
def enrolHead (index kind roles alg serial : Nat) : Bytes := (enrolBytes index kind roles alg serial 0 [] []).take 16
/-- Three approvers in force, two cards and a remote one, with a quorum of 2. -/
def custodied : Dev :=
  storing { svc with lcd := { svc.lcd with remoteEn := true } }
    [(0x10, enrolHead 0 0 3 0x30 0x111), (0x11, enrolHead 1 0 3 0x30 0x222), (0x12, enrolHead 2 1 3 0x49 0),
     (0x1F, policyContent 2 7 1)]

/-- A locked module with custodians, its sources quiet. -/
def lockedMod : Dev := { custodied with glb := { custodied.glb with locked := true } }

/-- A session in slot 0, approved by custodian 0, for an action. -/
def inSession (d : Dev) (action : Nat) : Dev :=
  { d with lcd := { d.lcd with sessions := { code := 0x33, action, digest := [1], approvedBy := [0] } :: List.replicate 7 {} } }

theorem met_unlock_request : met cardUnlockRequest (pfRun lockedMod 0x0210 1 0 []) {} (fun _ d => (freeSession d).isSome) = true := by decide +kernel
theorem met_approval_begin : met cardApprovalBegin (pfRun custodied 0x0220 2 0 (par 40 [(0, 2, 3)])) {} (fun _ d => (freeSession d).isSome) = true := by
  decide +kernel

/-- A card in slot 0, opened, with a step under way in context 1. -/
def carded : Dev := { custodied with lcd := { custodied.lcd with cards := [{ present := true, serial := 0x111, opened := true }, {}] } }
def exchanging : Dev := modCard carded 0 fun c => { c with exchange := some 1 }

def fullSig : Inputs := { data := some (zeroBytes 64) }
def addPar : Bytes := par 8 [(1, 1, 2), (2, 1, 2)]
/-- What the clauses of APPROVAL_ADD and UNLOCK_APPROVE ask of the session and the custodian. -/
def addAsks (unlocking : Bool) (c : Cmd) (d : Dev) : Bool :=
  let x := sessionOf d (c.b1 0)
  (checkSessions d == d) && x.code != 0x0F && ((x.action == 9) == unlocking) &&
    if c.b1 1 = 2 then d.lcd.remoteEn && (enrolment d (c.b1 2)).map enKind == some 1 && mayApprove d x (c.b1 2)
    else (cardReason d (c.b1 1)).isNone && (match cardEnrolment d (cardOf d (c.b1 1)).serial with | some j => (enrolment d j).isSome && mayApprove d x j | none => false)

theorem met_approval_add : met cardApprovalAdd (pfRun (inSession custodied 7) 0x0221 0 64 addPar) fullSig (addAsks false) = true := by decide +kernel
theorem met_unlock_approve : met cardUnlockApprove (pfRun (inSession lockedMod 9) 0x0211 0 64 addPar) fullSig
    (fun c d => addAsks true c d &&
      (let e := recount { d with lcd.sessions := modifyAt d.lcd.sessions (c.b1 0) fun z => { z with approvedBy := insertNat z.approvedBy (c.b1 2) } }
       (sessionOf e (c.b1 0)).code == 0x55 && unlockCause (closeSession e (c.b1 0) true) (sessionOf e (c.b1 0)).bound == 0)) = true := by
  decide +kernel
theorem met_approval_add_card : met cardApprovalAdd (pfRun (inSession { carded with lcd := { carded.lcd with cards := [{ present := true, serial := 0x222, opened := true, openedAt := 789004800000000 }, {}] } } 7)
    0x0221 0 0 (par 8 [])) { card := .returned [1] } (fun c d => addAsks false c d && c.b1 1 != 2) = true := by decide +kernel
theorem met_approval_close : met cardApprovalClose (pfRun (inSession custodied 7) 0x0222 0 0 (par 8 [])) {} (fun _ _ => true) = true := by decide +kernel
theorem meets_session_expiry : (sessionOf (inSession custodied 7) 0).code ≠ 0x0F ∧ 0 < (inSession custodied 7).lcd.sessions.length := by decide +kernel

theorem met_custodian_list : met cardCustodian (pfRun custodied 0x0230 15 0 (par 48 [])) {} (fun c _ => c.b1 0 == 0) = true := by decide +kernel
theorem met_custodian_remove : met cardCustodian (approved (pfRun custodied 0x0230 0 0 (par 48 [(0, 1, 2), (1, 1, 2)]))) {}
    (fun c d => c.b1 0 == 2 && policyOk (quorum d) ((inForce d).filter fun j => j != c.b1 1 && hasRole d 0 j).length) = true := by decide +kernel
theorem met_custodian_quorum : met cardCustodian (approved (pfRun custodied 0x0230 0 0 (par 48 [(0, 1, 3), (5, 1, 3)]))) {}
    (fun c d => c.b1 0 == 3 && policyOk (c.b1 5) (approvers d)) = true := by decide +kernel

/-- Whether an enrolment can be made of what the command brings. -/
def enrols (taken : Nat → Bool) (c : Cmd) (d : Dev) : Bool := match newEnrolment c d (c.b1 2) taken with | .ok x => policyOk 2 (2 + if bit (enRoles x.2) 0 then 1 else 0) | .error _ => false
theorem met_custodian_enrol : met cardCustodian (approved (pfRun custodied 0x0230 0 1952 (par 48 [(0, 1, 1), (1, 1, 3), (2, 1, 2), (3, 1, 1), (4, 1, 0x49)])))
    { data := some (zeroBytes 1952) } (fun c d => c.b1 0 == 1 && !bit (enrolMask d) (c.b1 1) && enrols (fun _ => false) c d && quorum d == 2 && approvers d == 3) = true := by decide +kernel
theorem met_custodian_key : met cardCustodian (approved (pfRun custodied 0x0230 0 1952 (par 48 [(0, 1, 4), (4, 1, 0x49)]))) { data := some (zeroBytes 1952) }
    (fun c _ => c.b1 0 == 4 && c.b1 4 == 0x49) = true := by decide +kernel
theorem met_custodian_unkey : met cardCustodian (approved (pfRun custodied 0x0230 0 0 (par 48 [(0, 1, 5)]))) {} (fun c _ => c.b1 0 == 5) = true := by decide +kernel

/-- Out of service, without a root store, and a ROOT_INIT session with two cards in it. -/
def rootless : Dev := { svc with lcd := { svc.lcd with st := 0x55 }, vmp := resetVmp, glb := { svc.glb with rootOk := false, vaultLoaded := false } }
def rooting : Dev :=
  storing { rootless with lcd := { rootless.lcd with rootInit := some [0, 1] } }
    [(0x10, enrolHead 0 0 3 0x30 0x111), (0x11, enrolHead 1 0 3 0x30 0x222)]

theorem met_root_begin : met cardRootInit (pfRun rootless 0x0231 0 0 (par 48 [])) {}
    (fun c d => c.b1 0 == 0 && d.lcd.rootInit.isNone && (d.lcd.st == 0x55 || d.lcd.st == 0x96) && (bankInForce d (rootSlot d 0)).isNone &&
      !d.bay.ringJoin && d.vmp.st == 0x0F) = true := by decide +kernel
theorem met_root_enrol : met cardRootInit (pfRun rooting 0x0231 0 1952 (par 48 [(0, 1, 2), (1, 1, 5), (3, 1, 1), (4, 1, 0x49)])) { data := some (zeroBytes 1952) }
    (fun c d => c.b1 0 == 2 && d.lcd.rootInit.any (fun l => !l.contains (c.b1 1)) && c.b1 4 == 0x49) = true := by decide +kernel
theorem met_root_card : met cardRootInit (pfRun { rooting with lcd := { rooting.lcd with cards := [{ present := true, serial := 0x333, opened := true, openedAt := 789004800000000 }, {}] } } 0x0231 0 0
    (par 48 [(0, 1, 1), (1, 1, 5), (3, 1, 3)])) { card := .returned (0x30 :: zeroBytes 65) }
    (fun c d => c.b1 0 == 1 && d.lcd.rootInit == some [0, 1] && enrols (fun _ => false) c d) = true := by decide +kernel
theorem met_root_finish : met cardRootInit (pfRun rooting 0x0231 0 0 (par 48 [(0, 1, 3), (5, 1, 2)])) {}
    (fun c d => c.b1 0 == 3 && d.lcd.rootInit.any fun l =>
      decide (2 ≤ (l.filter fun j => enKind (initContent d (0x10 + j)) == 0 && bit (enRoles (initContent d (0x10 + j))) 0).length) &&
      policyOk (c.b1 5) (l.filter fun j => bit (enRoles (initContent d (0x10 + j))) 0).length) = true := by decide +kernel
theorem met_root_abort : met cardRootInit (pfRun rooting 0x0231 0 0 (par 48 [(0, 1, 4)])) {} (fun c d => c.b1 0 == 4 && d.lcd.rootInit.isSome) = true := by
  decide +kernel

theorem met_card_open : met cardCardOpen (pfRun carded 0x0233 0 0 (par 16 [(1, 1, 4), (8, 8, 0xFFFFFFFFFFFF3412)])) { card := .returned [] }
    (fun c d => (cardOf d (c.b1 0)).present) = true := by decide +kernel
theorem meets_card_events : carded.bay.mainLoads = true ∧ carded.lcd.cards.length = 2 ∧ (cardOf carded 0).exchange = none ∧ (cardOf carded 0).present = true ∧
    (cardOf carded 0).opened = true ∧ (cardOf exchanging 0).exchange = some 1 := by decide +kernel

/-! ## Keys (06; 08 R234 to R259; 14 R429) -/

/-- A sound ACTIVE record of tenant 1. -/
def rec (cls idx alg usage mode expo : Nat) (params : Bytes) (m : Nat) : Record :=
  { handle := mkHandle 1 cls idx 1, alg, usage, mode, expo, st := 0x55, kcvMethod := 1, params := fitTo 7 params, notAfter := noLimit, material := zeroBytes m }
/-- The handle of a key of tenant 1, without a version. -/
def key (cls idx : Nat) : Nat := mkHandle 1 cls idx 0
/-- Any index. -/
def anyIdx : Nat := 0xFFFFFFFF

def dataRec : Record := rec 4 1 0x10 uD0 mB mS [3] 16
def kekRec : Record := rec 1 2 0x12 uK1 mB mN [] 32
def macRec : Record := rec 3 3 0x12 uM6 mC mN [] 32
def baseRec : Record := rec 5 4 0x12 (uOwn 1) mX mN [] 32
def attestRec : Record := rec 3 0xFFFFFFFE 0x12 (uOwn 8) mC mN [] 32
/-- A module whose vault holds those records. -/
def keyed : Dev := withRecs svc [dataRec, kekRec, macRec, baseRec, attestRec]

def genPar (cls alg usage mode : Nat) (kcv params : Nat) : Bytes :=
  par 40 [(0, 8, key cls anyIdx), (8, 1, alg), (9, 1, kcv), (0x0A, 2, usage), (0x0C, 1, mode), (0x0D, 1, mN), (0x18, 8, noLimit), (0x20, 7, params)]

/-- The key a KEY_GENERATE creates, of a material. -/
def generated (c : Cmd) (d : Dev) (classes : List Nat) (m : Bytes) : NewKey :=
  { handle := newHandle d (c.b8 0) classes, alg := c.b1 8, usage := c.b2 0x0A, mode := c.b1 0x0C, expo := c.b1 0x0D, kcvMethod := c.b1 9, params := genParams c,
    notBefore := c.b8 0x10, notAfter := c.b8 0x18, material := m }
/-- Whether the vault takes new keys. -/
def takes (d : Dev) (l : List NewKey) : Bool := (applyEdit d { puts := l.flatMap fun n => n.chain d.keys.floor 0x55 0, drops := [] }).2

theorem met_key_generate : met cardKeyGenerate (vfRun keyed 0x1001 0 0 (genPar 4 0x10 uD0 mB 1 3)) {} (fun c d =>
    hClass (c.b8 0) != 8 && takes (draw d 16).2 [generated c d [4] (drawBytes d.ent.draws 16)]) = true := by decide +kernel
theorem met_key_generate_pair : met cardKeyGenerate (vfRun keyed 0x1001 0 0 (genPar 8 0x30 uS0 mS 3 0)) { testPasses := true }
    (fun c _ => hClass (c.b8 0) == 8) = true := by decide +kernel
theorem met_key_generate_fail : met cardKeyGenerate (vfRun keyed 0x1001 0 0 (genPar 8 0x30 uS0 mS 3 0)) { testPasses := false }
    (fun c _ => hClass (c.b8 0) == 8) = true := by decide +kernel

/-- A command that is ready, and served on a device: both as the clause asks, at one time. -/
def metReady (card : Card) (d : Dev) (i : Inputs) (p : Cmd → Dev → Bool) : Bool :=
  match ready card d 1 i with
  | some x => (served card x.2 x.1).any (fun e => p x.1 e && now e == now x.2) && p x.1 x.2
  | none => false
/-- Whether a key check passes. -/
def passes (x : Except Nat (Record × Bytes)) : Bool := match x with | .ok _ => true | .error _ => false

/-- A TR-31 block of version D with an AES-128 key of zeros under an AES-256 key of zeros, its KP as AES enciphers zeros. -/
def block1 : Bytes := natBe 128 (0x44303132384430414230304E303230304B5030433030363645393442504230343736433133314235443145363831444535424331414238323631424234304534 * 2 ^ 512 +
  0x41353734353246324641394138463646373844423437443432333830383637323341343135373545424538313145334531324635433839383733373633443738)
/-- Whether what a block says may become a record of a class as the import asks. -/
def brings (c : Cmd) (d : Dev) (at' target : Nat) (w : Record × Bytes) : Bool := match tr31Open w.2 c.data with
  | some b => (blockFault b (hClass target) (strength w.1.alg) 1 (c.p.drop at')).isNone && b.key == zeroBytes 16 && (roomCheck (useOnce d 1 w.1) target 1).isNone
  | none => false
/-- Whether an import is ready with these data, and what the wrapping key makes of the block. -/
def metImport (data : Bytes) (p : Cmd → Dev → Record × Bytes → Bool) : Bool :=
  metReady cardKeyImport (vfRun keyed 0x1002 0 data.length (par 24 [(0, 8, key 4 7), (8, 8, key 1 2), (0x10, 1, 1)])) { data := some data } fun c d =>
    (existsCheck c d (c.b8 0)).isNone && (firstError [useKey c d (c.b8 8) (importKek c.data) 1]).isNone &&
    match useKey c d (c.b8 8) (importKek c.data) 1 with | .ok w => p c d w | .error _ => false
theorem met_key_import : metImport block1 (fun c d w => blockFormOk c.data && brings c d 0x11 (c.b8 0) w) = true := by decide +kernel
theorem met_key_import_mac : metImport (block1.take 127 ++ [0x39]) (fun c _ w => blockFormOk c.data && (tr31Open w.2 c.data).isNone) = true := by decide +kernel
theorem met_key_import_form : metImport (block1.take 127 ++ [0x7A]) (fun c _ _ => !blockFormOk c.data) = true := by decide +kernel
theorem met_key_export : metReady cardKeyExport (vfRun keyed 0x1003 20 0 (par 24 [(0, 8, key 4 1), (8, 8, key 1 2), (0x10, 1, 0x44)])) {}
    (fun c d => passes (sentKey c d (c.b8 0) exportPerm) &&
      passes (useKey c d (c.b8 8) (exportKek (c.b1 0x10) (got (sentKey c d (c.b8 0) exportPerm)).1) 1)) = true := by decide +kernel

theorem met_key_replace : met cardKeyReplace (vfRun keyed 0x1004 0 0 (par 48 [(8, 8, key 4 1)])) { testPasses := true } (fun c d =>
    c.b1 0 == 0 && c.b1 1 == 0 && (activeNamed (storeOf d 1 (c.b8 8)) (c.b8 8)).any fun v =>
      (replaceRun (draw d 32).2 (storeOf d 1 (c.b8 8)) v (nextVersion v (drawBytes d.ent.draws (symLen v.alg))) (c.b8 0x18) (slice c.p 0x20 5) true).2 == stOk)
    = true := by decide +kernel
/-- A replacement by a block, sound or with a wrong authenticator. -/
def metReplace (data : Bytes) (p : Cmd → Dev → Record → Record × Bytes → Bool) : Bool :=
  met cardKeyReplace (vfRun keyed 0x1004 0 data.length (par 48 [(1, 1, 1), (8, 8, key 4 1), (0x10, 8, key 1 2)])) { data := some data, testPasses := true } fun c d =>
    c.b1 0 == 0 && c.b1 1 == 1 && match useKey c d (c.b8 0x10) (importKek c.data) 1, activeNamed (storeOf d 1 (c.b8 8)) (c.b8 8) with
      | .ok w, some v => p c d v w
      | _, _ => false
theorem met_key_replace_mac : metReplace (block1.take 127 ++ [0x39]) (fun c _ _ w => (tr31Open w.2 c.data).isNone) = true := by decide +kernel
theorem met_key_replace_block : metReplace block1 (fun c d v w =>
    match tr31Open w.2 c.data, activeNamed (storeOf (useOnce d 1 w.1) 1 (c.b8 8)) (c.b8 8) with
    | some b, some x => (blockFault b 4 (strength w.1.alg) v.kcvMethod v.params).isNone &&
      (replaceRun (useOnce d 1 w.1) (storeOf (useOnce d 1 w.1) 1 (c.b8 8)) x
        { nextVersion x b.key with alg := blockAlg b, usage := b.usage, mode := b.mode, expo := b.expo } (c.b8 0x18) (slice c.p 0x20 5) true).2 == stOk
    | _, _ => false) = true := by decide +kernel
theorem met_key_replace_root : met cardKeyReplace (approved (pfRun { rooted keyed [0] with glb := { keyed.glb with rootOk := true } } 0x1004 0 0 (par 48 [(0, 1, 1)])))
    { testPasses := true } (fun c d => c.b1 0 == 1 && !joined d && slice c.p 0x20 5 == zeroBytes 5) = true := by decide +kernel

/-- A component session of tenant 1, with components given. -/
def session1 (given : List Nat) : Component :=
  { handle := key 4 9, count := 2, replace := false, alg := 0x10, kcvMethod := 1, usage := uD0, mode := mB, expo := mN, expected := zeroBytes 5, notBefore := 0,
    notAfter := noLimit, given, partialXor := zeroBytes 16, openedAt := 0, challenge := zeroBytes 32, kemPriv := [1] }
def composing (given : List Nat) : Dev := { keyed with tenants := [(1, { tenant1 with component := some (session1 given) })] }

theorem met_component_begin : met cardKeyComponent (vfRun keyed 0x1005 0 0 (par 56
    [(2, 1, 2), (8, 8, key 4 9), (0x10, 1, 0x10), (0x11, 1, 1), (0x12, 2, uD0), (0x14, 1, mB), (0x15, 1, mN), (0x28, 8, noLimit)])) {}
    (fun c _ => c.b1 0 == 0) = true := by decide +kernel
theorem met_component_add : met cardKeyComponent (vfRun (composing [0]) 0x1005 0 10 (par 56 [(0, 1, 1), (1, 1, 2), (8, 8, key 4 9)])) { data := some (zeroBytes 10) }
    (fun c d => c.b1 0 == 1 && c.b1 1 == 2 && (componentOf c d).any fun x => decide (x.given.length < x.count)) = true := by decide +kernel
theorem met_component_card : met cardKeyComponent (vfRun { composing [0] with keeper := keeper1, keys := custodied.keys, lcd := { custodied.lcd with cards := [{ present := true, serial := 0x111, opened := true, openedAt := 789004800000000 }, {}] } } 0x1005 0 0
    (par 56 [(0, 1, 1), (8, 8, key 4 9)])) { card := .returned [1] }
    (fun c d => c.b1 0 == 1 && c.b1 1 == 0 && (componentOf c d).any fun x => decide (x.given.length < x.count)) = true := by decide +kernel
theorem met_component_finish : met cardKeyComponent (vfRun (composing [0, 1]) 0x1005 0 0 (par 56 [(0, 1, 2), (8, 8, key 4 9)])) {}
    (fun c d => c.b1 0 == 2 && (componentOf c d).any fun x => decide (x.count ≤ x.given.length) && x.expected == zeroBytes 5 && !x.replace &&
      (createCheck c d x.handle true 1).isNone &&
      (applyEdit d { puts := (componentKey x (newHandle d x.handle [hClass x.handle])).chain d.keys.floor 0x55 0, drops := [] }).2) = true := by decide +kernel
theorem met_component_abort : met cardKeyComponent (vfRun (composing [0]) 0x1005 0 0 (par 56 [(0, 1, 3), (8, 8, key 4 9)])) {} (fun c _ => c.b1 0 == 3) = true := by
  decide +kernel
theorem met_component_transport : met cardComponentTransport (vfRun (composing [0]) 0x0232 19 0 (par 8 [(0, 8, key 4 9)])) {}
    (fun c d => (componentOf c d).isSome) = true := by decide +kernel

theorem met_key_derive : met cardKeyDerive (vfRun keyed 0x1008 0 0 (par 49
    [(0, 8, key 5 4), (8, 8, key 4 anyIdx), (0x10, 1, 0x10), (0x11, 1, 1), (0x12, 2, uD0), (0x14, 1, mB), (0x15, 1, mN), (0x16, 1, 1), (0x20, 8, noLimit), (0x30, 1, 7)])) {}
    (fun c d => passes (useKey c d (c.b8 0) derivePerm 1)) = true := by decide +kernel

def unwrapPar : Bytes := par 48 [(0, 8, key 4 anyIdx), (8, 8, key 1 2), (0x10, 1, 0x10), (0x11, 1, 1), (0x12, 2, uD0), (0x14, 1, mB), (0x15, 1, mN), (0x28, 8, noLimit)]
theorem met_key_unwrap : met cardKeyUnwrap (vfRun keyed 0x2005 0 24 unwrapPar) { data := some (zeroBytes 24) }
    (fun c d => slice c.p 0x18 5 == zeroBytes 5 && passes (useKey c d (c.b8 8) (unwrapKekPerm c) 1)) = true := by decide +kernel
theorem met_key_wrap : met cardKeyWrap (vfRun keyed 0x2004 1 0 (par 24 [(0, 8, key 4 1), (8, 8, key 1 2)])) {} (fun c d =>
    match sentKey c d (c.b8 0) wrapKeyPerm with | .ok x => passes (useKey c d (c.b8 8) (wrapKekPerm x.1) 1) | .error _ => false) = true := by decide +kernel

theorem met_key_destroy : met cardKeyDestroy (vfRun keyed 0x1006 0 0 (par 8 [(0, 8, key 4 1)])) {} (fun c d => (reportedOf d (c.b8 0)).isEmpty &&
    (applyEdit d (destroyEdit (storeOf d 1 (c.b8 0)) (destroyed (storeOf d 1 (c.b8 0)) (c.b8 0)))).2) = true := by decide +kernel
theorem met_key_info : met cardKeyInfo (vfRun keyed 0x1007 1 0 (par 16 [(8, 8, key 4 1)])) {} (fun c d => c.b1 0 == 0 && passes (infoKey c d)) = true := by
  decide +kernel
theorem met_key_info_root : met cardKeyInfo (pfRun (rooted keyed [0]) 0x1007 1 0 (par 16 [(0, 1, 1), (2, 2, 3)])) {} (fun c _ => c.b1 0 == 1) = true := by decide +kernel
theorem met_attest : met cardAttest (vfRun keyed 0x1010 1 0 (par 16 [])) {} (fun c d => passes (useKey c d (mkHandle 1 3 0xFFFFFFFE 0) attestPerm 1)) = true := by
  decide +kernel
theorem met_attest_pf : met cardAttest (pfRun (rooted keyed [3]) 0x1010 53 0 (par 16 [])) {} (fun _ d => (rootPrivate d 3 0x49).isSome) = true := by decide +kernel

/-! ### Data (08 R234 to R257) -/

def data16 : Inputs := { data := some (zeroBytes 16) }
/-- SYM_CIPHER of sixteen bytes: operation, mode, flags. -/
def symPar (op mode flags iv : Nat) : Bytes := par 48 [(0, 8, key 4 1), (8, 1, op), (9, 1, mode), (0x0A, 1, flags), (0x10, 8, 0x9000), (0x18, 16, iv)]
/-- The key a SYM_CIPHER finds, and its output not empty. -/
def symAsks (c : Cmd) (d : Dev) : Bool := passes (cipherKey c d (symPerm c) (symValues c)) && !c.data.isEmpty

theorem met_sym_ctr : met cardSymCipher (vfRun keyed 0x2001 0 16 (symPar 0 2 0 0)) data16
    (fun c d => symAsks c d && c.b1 9 == 2 && symEnc c && !symHostIv c && !(ctr (zeroBytes 16) (zeroBytes 16) c.data).isEmpty) = true := by decide +kernel
theorem met_sym_cbc : met cardSymCipher (vfRun keyed 0x2001 0 16 (symPar 0 1 0 0)) data16
    (fun c d => symAsks c d && c.b1 9 == 1 && symEnc c && !symHostIv c && (cbcEnc true (zeroBytes 16) (zeroBytes 16) c.data).length == 16) = true := by decide +kernel
theorem met_sym_host_iv : met cardSymCipher (vfRun keyed 0x2001 0 16 (symPar 0 1 4 7)) data16
    (fun c d => symAsks c d && c.b1 9 == 1 && symEnc c && symHostIv c) = true := by decide +kernel
theorem met_sym_ecb : met cardSymCipher (vfRun keyed 0x2001 0 16 (symPar 1 0 0 0)) data16
    (fun c d => symAsks c d && c.b1 9 == 0 && (ecb true true (zeroBytes 16) c.data).length == 16) = true := by decide +kernel
theorem met_sym_decipher : met cardSymCipher (vfRun keyed 0x2001 0 16 (symPar 1 1 0 7)) data16
    (fun c d => symAsks c d && c.b1 9 == 1 && !symEnc c && (cbcDec true (zeroBytes 16) (zeroBytes 16) c.data).length == 16) = true := by decide +kernel

/-- AEAD of sixteen bytes: operation, flags, IV length and tag. -/
def aeadPar (op flags ivLen tag : Nat) : Bytes :=
  par 72 [(0, 8, key 4 1), (8, 1, op), (0x0A, 1, flags), (0x0B, 1, 16), (0x0C, 1, ivLen), (0x10, 8, 0x9000), (0x38, 16, tag)]
/-- The tag of sixteen zero bytes under the key of zeros and the IV of zeros. -/
def goodTag : Nat := field (gcmTag (zeroBytes 16) (zeroBytes 12) [] (zeroBytes 16)) 0 16
/-- What AEAD's pass finds. -/
def aeadTagGood (c : Cmd) (d : Dev) : Bool := match cipherKey c d (aeadPerm c) 1 with
  | .ok x => (aeadPass c x.2 (slice c.p 0x28 (aeadIvLen c)) [] c.data).2 == slice c.p 0x38 (aeadTagLen c)
  | .error _ => false

theorem met_aead_encrypt : met cardAead (vfRun keyed 0x2002 1 16 (aeadPar 0 0 0 0)) data16
    (fun c d => passes (cipherKey c d (aeadPerm c) 1) && aeadEnc c && !c.data.isEmpty && !aeadCcm c) = true := by decide +kernel
theorem met_aead_good : met cardAead (vfRun keyed 0x2002 0 16 (aeadPar 1 0 12 goodTag)) data16
    (fun c d => aeadTagGood c d && !aeadEnc c && !bit (c.b1 0x0A) 1) = true := by decide +kernel
theorem met_aead_bad : met cardAead (vfRun keyed 0x2002 0 16 (aeadPar 1 0 12 1)) data16
    (fun c d => passes (cipherKey c d (aeadPerm c) 1) && !aeadTagGood c d && !aeadEnc c && !bit (c.b1 0x0A) 1) = true := by decide +kernel
theorem met_aead_twice_good : met cardAead (vfRun keyed 0x2002 0 16 (aeadPar 1 2 12 goodTag)) { data16 with dataAgain := some (zeroBytes 16) }
    (fun c d => aeadTagGood c d && !aeadEnc c && bit (c.b1 0x0A) 1) = true := by decide +kernel
theorem met_aead_twice_bad : met cardAead (vfRun keyed 0x2002 0 16 (aeadPar 1 2 12 1)) data16
    (fun c d => passes (cipherKey c d (aeadPerm c) 1) && !aeadTagGood c d && !aeadEnc c && bit (c.b1 0x0A) 1) = true := by decide +kernel

theorem met_cmac_generate : met cardCmac (vfRun keyed 0x2003 0 16 (par 40 [(0, 8, key 3 3), (9, 1, 16)])) data16
    (fun c d => passes (useKey c d (c.b8 0) (cmacPerm c) 1) && c.b1 8 == 0) = true := by decide +kernel
theorem met_cmac_good : met cardCmac (vfRun keyed 0x2003 0 16 (par 40 [(0, 8, key 3 3), (8, 1, 1), (9, 1, 4), (0x10, 4, field (aesCmac (zeroBytes 32) (zeroBytes 16)) 0 4)])) data16
    (fun c d => c.b1 8 == 1 && match useKey c d (c.b8 0) (cmacPerm c) 1 with
      | .ok x => (aesCmac x.2 c.data).take (c.b1 9) == slice c.p 0x10 (c.b1 9) | .error _ => false) = true := by decide +kernel
theorem met_cmac_bad : met cardCmac (vfRun keyed 0x2003 0 16 (par 40 [(0, 8, key 3 3), (8, 1, 1), (9, 1, 4)])) data16
    (fun c d => c.b1 8 == 1 && match useKey c d (c.b8 0) (cmacPerm c) 1 with
      | .ok x => (aesCmac x.2 c.data).take (c.b1 9) != slice c.p 0x10 (c.b1 9) | .error _ => false) = true := by decide +kernel

/-! ## Public key (09 R271 to R280) -/

/-- The chain of a sound ACTIVE asymmetric record of tenant 1. -/
def pkRec (cls idx alg usage mode bits n : Nat) : List Record :=
  NewKey.chain { handle := mkHandle 1 cls idx 1, alg, usage, mode, expo := mN, kcvMethod := 3, params := rsaParams bits 0, notBefore := 0, notAfter := noLimit,
                 material := zeroBytes n } 0 0x55 0
/-- A module that holds one more chain of records. -/
def withPk (l : List Record) : Dev := withRecs svc ([dataRec] ++ l)

theorem met_pk_sign : met cardPkSign (vfRun (withPk (pkRec 8 1 0x30 uS0 mS 0 32)) 0x3001 1 16 (par 16 [(0, 8, key 8 1), (8, 1, 0x10)])) data16
    (fun c d => passes (useKey c d (c.b8 0) (signPerm c) 1)) = true := by decide +kernel
theorem met_pk_verify : met cardPkVerify (vfRun (withPk (pkRec 9 1 0x30 uS0 mV 0 64)) 0x3002 0 16 (par 80 [(0, 8, key 9 1), (8, 1, 0x10), (0x0C, 2, 64)])) data16
    (fun c d => passes (useKey c d (c.b8 0) (verifyPerm c) 1)) = true := by decide +kernel
theorem met_pk_decrypt : met cardPkDecrypt (vfRun (withPk (pkRec 8 1 0x20 uD1 mD 2048 644)) 0x3003 4 256 (par 16 [(0, 8, key 8 1)])) { data := some (zeroBytes 256) }
    (fun c d => passes (useKey c d (c.b8 0) decryptPerm 1)) = true := by decide +kernel
theorem met_pk_kem : met cardPkKem (vfRun (withPk (pkRec 9 1 0x41 uD1 mE 0 1184)) 0x3004 17 0 (par 48
      [(0, 8, key 9 1), (0x10, 8, key 4 anyIdx), (0x18, 1, 1), (0x19, 1, mB), (0x1A, 2, uD0), (0x1C, 1, mN), (0x28, 8, noLimit)])) {}
    (fun c d => passes (useKey c d (c.b8 0) (kemPerm c) 1)) = true := by decide +kernel
theorem met_pk_public_export : met cardPkPublic (vfRun (withPk (pkRec 9 1 0x30 uS0 mV 0 64)) 0x3005 2 0 (par 48 [(8, 8, key 9 1)])) {}
    (fun c d => c.b1 0 == 0 && passes (sentKey c d (c.b8 8) publicPerm)) = true := by decide +kernel
theorem met_pk_public_import : met cardPkPublic (vfRun (withPk []) 0x3005 0 32 (par 48
    [(0, 1, 1), (8, 8, key 9 anyIdx), (0x10, 1, 0x33), (0x11, 1, mV), (0x12, 2, uS0), (0x20, 8, noLimit)])) { data := some (zeroBytes 32) }
    (fun c _ => c.b1 0 == 1) = true := by decide +kernel

/-- What EMV_CERT finds in its input. -/
def emvAsks (op : Nat) (c : Cmd) (d : Dev) : Bool := c.b1 8 == op && match useKey c d (c.b8 0) (emvPerm c) 1 with
  | .ok x => (emvParse (c.b1 8) (c.b1 9) (recBits x.1 / 8) c.data).isSome
  | .error _ => false
def emvSigner : Dev := withPk (pkRec 8 1 0x20 uS1 mS 1024 324)
def emvVerifier : Dev := withPk (pkRec 9 1 0x20 uS1 mV 1024 132)

theorem met_emv_icc : met cardEmvCert (vfRun emvSigner 0x3010 2 21 (par 24 [(0, 8, key 8 1)])) { data := some (zeroBytes 15 ++ [1, 3, 1, 5, 0, 0]) } (emvAsks 0) = true := by
  decide +kernel
theorem met_emv_static : met cardEmvCert (vfRun emvSigner 0x3010 2 4 (par 24 [(0, 8, key 8 1), (8, 1, 1)])) { data := some (zeroBytes 4) } (emvAsks 1) = true := by
  decide +kernel
/-- A command of which `metReady` holds reaches its effect where its own checks pass. -/
theorem reach_of_metReady {card : Card} {d : Dev} {i : Inputs} {p : Cmd → Dev → Bool} (h : metReady card d i p = true)
    (hc : ∀ c e, p c e = true → card.check c e = none) : ∃ c e, reach card d 1 i = some (c, e) ∧ p c e = true := by
  unfold metReady at h
  cases hr : ready card d 1 i with
  | none => simp [hr] at h
  | some x =>
    obtain ⟨c, d1⟩ := x
    rw [hr] at h
    simp only [Bool.and_eq_true] at h
    cases hs : served card d1 c with
    | none => simp [hs] at h
    | some e =>
      simp only [hs, Option.any_some, Bool.and_eq_true] at h
      exact ⟨c, e, by simp [reach, hr, hs, hc c d1 h.2], h.1.1⟩

/-- The checks of a recovery without a target, which end the same whatever is recovered. -/
theorem emvCheck_recover {c : Cmd} {d : Dev} (h : (emvAsks 2 c d && c.b8 0x10 == 0 && match useKey c d (c.b8 0) (emvPerm c) 1 with
      | .ok x => decide (signerLen x.1 ≤ c.cap) | .error _ => false) = true) : emvCheck c d = none := by
  unfold emvAsks at h
  cases hk : useKey c d (c.b8 0) (emvPerm c) 1 with
  | error st => simp [hk] at h
  | ok x =>
    simp only [hk, Bool.and_eq_true, beq_iff_eq, decide_eq_true_eq] at h
    obtain ⟨⟨⟨hop, hp⟩, ht⟩, hcap⟩ := h
    obtain ⟨e, he⟩ := Option.isSome_iff_exists.mp hp
    have hcap : ¬ c.cap < signerLen x.1 := Nat.not_lt.mpr hcap
    simp only [hop] at he
    simp only [signerLen] at hcap
    simp [emvCheck, hk, hop, ht, signerLen, he, hcap, firstFail, orElse]

theorem met_emv_recover : ∃ c d, reach cardEmvCert (vfRun emvVerifier 0x3010 2 130 (par 24 [(0, 8, key 9 1), (8, 1, 2), (9, 1, 3)])) 1
    { data := some (zeroBytes 130) } = some (c, d) ∧ (emvAsks 2 c d && c.b8 0x10 == 0 && match useKey c d (c.b8 0) (emvPerm c) 1 with
      | .ok x => decide (signerLen x.1 ≤ c.cap) | .error _ => false) = true :=
  reach_of_metReady (by decide +kernel) fun _ _ h => emvCheck_recover h
theorem met_emv_target : metReady cardEmvCert (vfRun emvVerifier 0x3010 2 131 (par 24 [(0, 8, key 9 1), (8, 1, 2), (9, 1, 2), (0x10, 8, key 9 anyIdx)]))
    { data := some (zeroBytes 128 ++ [0, 1, 3]) } (fun c d => emvAsks 2 c d && c.b8 0x10 != 0 && match useKey c d (c.b8 0) (emvPerm c) 1 with
      | .ok x => decide (signerLen x.1 ≤ c.cap) | .error _ => false) = true := by decide +kernel

/-- A receiver's and a sender's key, as each operation of TR34 asks for them. -/
def krdHeld : Dev := withPk (pkRec 8 1 0x20 uD1 mD 2048 644 ++ pkRec 9 2 0x20 uS0 mV 2048 260)
def kdhHeld : Dev := withPk (pkRec 9 1 0x20 uD1 mE 2048 260 ++ pkRec 8 2 0x20 uS0 mS 2048 644)

theorem met_tr34_nonce : met cardTr34 (vfRun krdHeld 0x3020 0 0 (par 40 [(8, 8, key 8 1)])) {} (fun c _ => c.b1 0 == 0) = true := by decide +kernel

/-- `ready` asks the card's holds of the command alone. -/
theorem ready_locks (card : Card) (f : Cmd → List Nat) (d : Dev) (k : Nat) (i : Inputs)
    (h : ∀ c, readCommand card (passEntry d k) k i = .ok c → card.locks c = f c) : ready { card with locks := f } d k i = ready card d k i := by
  have hr : readCommand { card with locks := f } (passEntry d k) k i = readCommand card (passEntry d k) k i := rfl
  have he : entryFail { card with locks := f } d (ctxOf d k) = entryFail card d (ctxOf d k) := rfl
  have hh : runsHere { card with locks := f } d k = runsHere card d k := rfl
  unfold ready
  rw [hr, he, hh]
  cases hc : readCommand card (passEntry d k) k i with
  | error st => rfl
  | ok c =>
    have hf := h c hc
    have hk : ∀ e, lockKeys { card with locks := f } e c = lockKeys card e c := fun e => by simp only [lockKeys, hf]
    have hl : ∀ e, linesRead { card with locks := f } e c = linesRead card e c := fun e => by
      simp only [linesRead, slotsRead, namedSlots, readsAll, hf] <;> rfl
    have hn : ∀ e, namedSlots { card with locks := f } e c = namedSlots card e c := fun e => by simp only [namedSlots, hf]
    have hq : ∀ e, fetchRecords { card with locks := f } e c = fetchRecords card e c := fun e => by
      unfold fetchRecords; rw [hl]; simp only [hn]; rfl
    have hv : ∀ e, vaultStop { card with locks := f } e c = vaultStop card e c := fun e => by
      unfold vaultStop; rw [hl]; simp only [slotsRead, hn, readsAll, hf] <;> rfl
    have hs : ∀ e, staysHere { card with locks := f } e c = staysHere card e c := fun e => by simp only [staysHere, hf]
    have ho : ∀ e, holdsHere { card with locks := f } e c = holdsHere card e c := fun e => by unfold holdsHere; rw [hk]; rfl
    have ha : ∀ d1, recordsAtHand { card with locks := f } d1 c = recordsAtHand card d1 c := fun d1 => by
      unfold recordsAtHand; simp only [hq, hv, hs, ho, hk] <;> rfl
    simp only [ha]
    rfl

theorem metReady_locks (card : Card) (f : Cmd → List Nat) (d : Dev) (i : Inputs) (p : Cmd → Dev → Bool)
    (h : ∀ c, readCommand card (passEntry d 1) 1 i = .ok c → card.locks c = f c) : metReady card d i p = metReady { card with locks := f } d i p := by
  unfold metReady
  rw [ready_locks card f d 1 i h]
  rfl

/-- The holds of a TR34 import whose token is as given: no token, a two-pass or a one-pass one. -/
def importLocks (t : Option Bool) (c : Cmd) : List Nat :=
  if c.b1 0 = 1 then (match t with | some b => if b then [c.b8 0x18] else [c.b8 0x18, c.b8 0x10] | none => [c.b8 0x18]) else []

theorem cardTr34_locks (c : Cmd) : cardTr34.locks c = importLocks ((tokenIn c).map Config.Token.twoPass) c := by
  simp only [cardTr34, importLocks]
  cases tokenIn c <;> rfl

def importing : Dev := vfRun krdHeld 0x3020 0 16 (par 40 [(0, 1, 1), (2, 1, 1), (8, 8, key 8 1), (0x10, 8, key 9 2), (0x18, 8, key 4 anyIdx)])
theorem met_tr34_import : metReady cardTr34 importing data16
    (fun c d => c.b1 0 == 1 && passes (krdKey c d 1) && passes (kdhKey c d) && (tenantStep c d (c.b8 0x18)).isNone) = true := by
  have h : ∀ t, metReady { cardTr34 with locks := importLocks t } importing data16
      (fun c d => c.b1 0 == 1 && passes (krdKey c d 1) && passes (kdhKey c d) && (tenantStep c d (c.b8 0x18)).isNone) = true := by
    intro t; cases t with
    | none => decide +kernel
    | some b => cases b <;> decide +kernel
  let t := match readCommand cardTr34 (passEntry importing 1) 1 data16 with | .ok c => (tokenIn c).map Config.Token.twoPass | .error _ => none
  refine (metReady_locks cardTr34 (importLocks t) importing data16 _ fun c hc => ?_).trans (h t)
  rw [cardTr34_locks, show t = (tokenIn c).map Config.Token.twoPass by simp only [t, hc]]

theorem met_tr34_build : metReady cardTr34 (vfRun kdhHeld 0x3020 8 0 (par 40 [(0, 1, 2), (8, 8, key 9 1), (0x10, 8, key 8 2), (0x18, 8, key 4 1)])) {}
    (fun c d => c.b1 0 == 2 && passes (krdKey c d 1) && passes (kdhKey c d) && passes (tr34Sent c d)) = true := by decide +kernel

/-! ## Payment (10 R284 to R314) -/

def pinRec : Record := rec 2 1 1 uP0 mB mN [] 16
def pvkRec : Record := rec 7 2 1 uV1 mC mN [0x01, 0x23, 0x45, 4] 16
def pvvRec : Record := rec 7 3 1 uV2 mC mN [1] 16
def imkRec : Record := rec 5 4 1 uE0 mX mN [] 16
def smiRec : Record := rec 5 5 1 uE1 mX mN [] 16
def cvkRec : Record := rec 6 6 1 uC0 mC mN [] 16
def makRec : Record := rec 3 7 1 uM1 mC mN [] 16
/-- A module that holds payment keys. -/
def paying : Dev := withRecs svc [pinRec, pvkRec, pvvRec, imkRec, smiRec, cvkRec, makRec]

/-- Digits a reference of `n` digits leaves at zero, the nibbles after it 0xF. -/
def ref4 : Nat := 0xFFFFFFFF0000

theorem met_pin_translate : met cardPinTranslate (vfRun paying 0x4001 0 0 (par 64 [(0, 8, key 2 1), (0x18, 8, key 2 1), (0x23, 1, 16), (0x2C, 2, 0xFFFF)])) {}
    (fun c d => passes (translateSrc c d) && passes (translateDst c d)) = true := by decide +kernel
theorem met_pin_verify : met cardPinVerify (vfRun paying 0x4002 0 0 (par 80
    [(0, 8, key 2 1), (0x18, 8, key 7 2), (0x22, 1, 4), (0x23, 1, 16), (0x2C, 2, 0xFFFF), (0x48, 6, ref4)])) {}
    (fun c d => passes (translateSrc c d) && passes (pvkKey c d [mC, mV])) = true := by decide +kernel
theorem met_pin_change : met cardPinChange (vfRun paying 0x4004 0 0 (par 96
    [(0, 8, key 2 1), (0x18, 8, key 7 3), (0x21, 1, 1), (0x22, 1, 4), (0x23, 1, 16), (0x2C, 2, 0xFFFF), (0x58, 6, ref4)])) {}
    (fun c d => passes (translateSrc c d) && passes (pvkKey c d [mC])) = true := by decide +kernel
theorem met_pin_generate : met cardPinGenerate (vfRun paying 0x4003 1 0 (par 48
    [(0, 8, key 7 2), (8, 8, key 2 1), (0x13, 1, 4), (0x14, 1, 4), (0x15, 1, 16), (0x1E, 2, 0xFFFF)])) {}
    (fun c d => passes (genPvk c d) && passes (genDst c d)) = true := by decide +kernel
theorem met_arqc_verify : met cardArqcVerify (vfRun paying 0x5001 0 0 (par 57 [(0, 8, key 5 4), (0x0B, 1, 2), (0x0C, 1, 16), (0x18, 2, 0xFFFF), (0x1B, 1, 1)])) {}
    (fun c d => passes (arqcKey c d)) = true := by decide +kernel
theorem met_emv_script : met cardEmvScript (vfRun paying 0x5003 0 1 (par 32 [(0, 8, key 5 5), (0x0A, 1, 16), (0x18, 2, 0xFFFF)])) { data := some [1] }
    (fun c d => passes (scriptKey c d)) = true := by decide +kernel
theorem met_cvc : met cardCvc (vfRun paying 0x5002 0 0 (par 32 [(0, 8, key 6 6), (9, 1, 3), (0x0A, 1, 16), (0x18, 2, 0xFFFF)])) {}
    (fun c d => passes (cvcKey c d)) = true := by decide +kernel
theorem met_pay_mac : met cardPayMac (vfRun paying 0x5010 0 16 (par 48 [(0, 8, key 3 7), (0x19, 1, 1), (0x1A, 1, 1), (0x1B, 1, 4)])) data16
    (fun c d => passes (payMacKey c d)) = true := by decide +kernel

/-! ## Metering (11 R315 to R338) -/

def vendRec : Record := rec 10 1 0x70 (uOwn 2) mX mN [2, 0x12, 0x34, 0x56, 1] 8
def decRec : Record := rec 10 2 0x70 (uOwn 3) mB mN [1, 1, 1, 0] 8
def ekRec : Record := rec 11 3 0x10 (uOwn 4) mB mS [] 16
def akRec : Record := rec 11 4 0x10 (uOwn 5) mC mS [] 16
def mwRec : Record := rec 11 5 0x12 (uOwn 6) mD mN [2] 32
def mkRec : Record := rec 1 6 0x12 uK0 mB mN [] 32
/-- A module that holds metering keys. -/
def metering : Dev := withRecs svc [vendRec, decRec, ekRec, akRec, mwRec, mkRec]

theorem met_sts_credit : met cardStsCreditToken (vfRun metering 0x6001 1 0 (par 16 [(0, 8, key 10 2), (0x0C, 4, 200024)])) {} (fun c d =>
    match tokenKey c d with
    | .ok x => (amountField (c.b4 0x0C)).isSome && (nextTid d x.1).isSome && (issueTid (draw d 1).2 1 x.1 (nextTid d x.1)).2
    | .error _ => false) = true := by decide +kernel
theorem met_sts_mgmt : metReady { cardStsMgmtToken with paramOk := fun c => decide (c.b1 8 ≤ 15) && zeros c.p 9 3 && zeros c.p 0x0E 2 }
    (vfRun metering 0x6004 1 0 (par 16 [(0, 8, key 10 2), (8, 1, 2), (0x0C, 2, 5)])) {} (fun c d => passes (tokenKey c d)) = true := by decide +kernel
theorem met_sts_decoder : met cardStsDecoderKey (vfRun metering 0x6002 0 0 (par 48
    [(0, 8, key 10 1), (8, 8, key 10 anyIdx), (0x19, 1, 0xFF), (0x1A, 1, 1), (0x1C, 1, 1), (0x1D, 1, 1), (0x1E, 1, mN), (0x28, 8, noLimit)])) {}
    (fun c d => passes (stsVending c d 0)) = true := by decide +kernel
theorem met_sts_key_change : met cardStsKeyChange (vfRun metering 0x6003 1 0 (par 56
    [(0, 8, key 10 2), (8, 8, key 10 1), (0x19, 1, 0xFF), (0x1A, 1, 1), (0x1C, 1, 1)])) {}
    (fun c d => passes (stsVending c d 8) && passes (useKey c d (changedVersion c d).handle decoderPerm 1)) = true := by decide +kernel
theorem met_dlms_encrypt : met cardDlmsProtect (vfRun metering 0x6010 0 16 (par 40 [(0, 8, key 11 3), (0x20, 1, 0x20)])) data16
    (fun c d => passes (frameEk c d) && !scA (c.b1 0x20)) = true := by decide +kernel
theorem met_dlms_protect : met cardDlmsProtect (vfRun metering 0x6010 0 16 (par 40 [(0, 8, key 11 3), (8, 8, key 11 4), (0x20, 1, 0x30)])) data16
    (fun c d => passes (frameEk c d) && passes (frameAk c d) && scA (c.b1 0x20)) = true := by decide +kernel
theorem met_dlms_decrypt : met cardDlmsUnprotect (vfRun metering 0x6011 0 20 (par 32 [(0, 8, key 11 3)])) { data := some (0x20 :: zeroBytes 19) }
    (fun c d => passes (frameEk c d) && !scA (field c.data 0 1)) = true := by decide +kernel
theorem met_dlms_unprotect : met cardDlmsUnprotect (vfRun metering 0x6011 0 20 (par 32 [(0, 8, key 11 3), (8, 8, key 11 4)])) { data := some (0x10 :: zeroBytes 19) }
    (fun c d => passes (frameEk c d) && passes (frameAk c d) && scA (field c.data 0 1)) = true := by decide +kernel
theorem met_meter_rotate : met cardMeterKeyRotate (vfRun metering 0x6020 1 32 []) { data := some (par 32 [(0, 8, key 1 6), (8, 8, key 11 3)]), testPasses := true }
    (fun c d => (rotateEntries c.data).all fun e => (rotateCheck c d e).isNone) = true := by decide +kernel
theorem met_meter_load : met cardMeterKeyLoad (vfRun metering 0x6021 0 24 (par 48
    [(0, 8, key 11 anyIdx), (8, 8, key 11 5), (0x10, 1, 0x10), (0x11, 1, 1), (0x12, 2, uOwn 4), (0x14, 1, mB), (0x15, 1, mN), (0x28, 8, noLimit)]))
    { data := some (zeroBytes 24) } (fun c d => passes (useKey c d (c.b8 8) (meterWrapPerm c) 1)) = true := by decide +kernel

/-! ## Maintenance (18 R502 to R517; 15 R442) -/

/-- A module with an activity in its slot. -/
def busyWith (a : Activity) : Dev := { svc with mnt := { svc.mnt with occupant := some a, running := some factoryImage } }

theorem met_maint_start : met cardMaintStart (pfRun svc 0x0301 0 0 (par 16 [(0, 1, 7), (4, 4, 1)])) {} (fun _ d => d.mnt.occupant.isNone) = true := by decide +kernel
theorem met_maint_companion : met cardMaintStart (pfRun (busyWith { code := 6, st := 2 }) 0x0301 0 0 (par 16 [(0, 1, 7), (4, 4, 1)])) {}
    (fun _ d => d.mnt.occupant.isSome) = true := by decide +kernel
theorem met_maint_status : met cardMaintStatus (pfRun svc 0x0302 2 0 []) {} (fun _ _ => true) = true := by decide +kernel
theorem met_maint_stop : met cardMaintStop (pfRun (busyWith { code := 7, st := 2 }) 0x0303 0 0 (par 8 [])) {} (fun _ _ => true) = true := by decide +kernel
theorem met_shutdown : met cardShutdown (pfRun svc 0x0304 0 0 (par 8 [])) {} (fun c d => c.b1 0 == 0 && d.bay.removal == .idle) = true := by decide +kernel
theorem met_shutdown_safe : met cardShutdown (pfRun { svc with bay := { svc.bay with removal := .safe, drainKind := 1, drainFrom := 9 } } 0x0304 0 0 (par 8 [])) {}
    (fun c d => c.b1 0 == 0 && d.bay.removal == .safe && d.bay.drainKind != 2) = true := by decide +kernel
theorem met_shutdown_joins : met cardShutdown (pfRun { svc with bay := { svc.bay with removal := .draining, drainKind := 0, drainFrom := 9 } } 0x0304 0 0 (par 8 [])) {}
    (fun c d => c.b1 0 == 0 && d.bay.removal == .draining && d.bay.drainKind != 2) = true := by decide +kernel
theorem met_shutdown_cancel : met cardShutdown (pfRun { svc with bay := { svc.bay with removal := .safe, safeToRemove := true, drainKind := 1, drainFrom := 9 } } 0x0304 0 0 (par 8 [(0, 1, 1)])) {}
    (fun c _ => c.b1 0 == 1) = true := by decide +kernel

/-- An image that passes every check. -/
def writing (im : Image) : Dev := busyWith { code := 1, st := 2, detail := 1, image := some im }
theorem meets_fw_write : (activityOf (writing factoryImage) 1).any (fun a => (imageFault (writing factoryImage) (a.image.getD {})).isNone) = true ∧
    firmwareLess (writing factoryImage) = false := by decide +kernel
/-- A module whose ROM runs in the firmware's place. -/
def bare0 : Dev := { writing factoryImage with glb := { resetGlb with fwRunning := false } }
theorem meets_fw_write_rom : (activityOf bare0 1).any (fun a => (imageFault bare0 (a.image.getD {})).isNone) = true ∧ firmwareLess bare0 = true := by decide +kernel
theorem meets_fw_write_bad : (activityOf (writing {}) 1).any (fun a => (imageFault (writing {}) (a.image.getD {})).isSome) = true := by decide +kernel
theorem meets_fetched : fetchedInFlight (pfRun svc 2 1 0 []) = true ∧ fetchedInFlight bare0 = false ∧ firmwareLess { bare0 with sch := (pfRun svc 2 1 0 []).sch } = true ∧
    fetchedInFlight { bare0 with sch := (pfRun svc 2 1 0 []).sch } = true := by decide +kernel
theorem meets_fw_activate : (activityOf { busyWith { code := 2, st := 2 } with bay := { svc.bay with drainKind := 2, removal := .safe } } 2).isSome = true := by decide +kernel
theorem meets_fuses : (activityOf (busyWith { code := 5, st := 2, arg := 31 }) 5).isSome = true ∧ svc.otp.tamperFuses.length = 5 := by decide +kernel
/-- A cell pack seated after the old one went. -/
def reseated (st : Nat) : Dev := { busyWith { code := 6, st := 2, withdrawn := true } with bay := { svc.bay with cell := { seated := true }, cellState := st } }
theorem meets_cell : (activityOf (reseated 0) 6).any (·.withdrawn) = true ∧ (reseated 0).bay.cell.seated = true ∧ (reseated 0).bay.cellState = 0 ∧
    (activityOf (reseated 2) 6).any (·.withdrawn) = true ∧ (reseated 2).bay.cellState ≠ 0 := by decide +kernel
theorem meets_self_test : (activityOf (busyWith { code := 7, st := 2, arg := 63 }) 7).any (fun a => a.st == 2) = true ∧
    sweepRuns (busyWith { code := 7, st := 2, arg := 63 }) = false := by decide +kernel

/-! ## Ring commands (12 R373 to R376) -/

/-- An entry of a ring configuration, and a configuration of two members whose first is this module. -/
def cfgEntry (m serial : Nat) (digest : Bytes) : Bytes := natLe 1 m ++ zeroBytes 7 ++ natLe 8 serial ++ zeroBytes 16 ++ digest
def noEntry : Bytes := 0xFF :: zeroBytes 63
def config2 (digest : Bytes) : Bytes :=
  ascii [0x49, 0x57, 0x52, 0x43] ++ [1, 0, 1, 0] ++ natLe 8 7 ++ natLe 8 1 ++ zeroBytes 8 ++ cfgEntry 0 resetOtp.serial digest ++ cfgEntry 1 5 (zeroBytes 32) ++
    (List.replicate 14 noEntry).flatten
/-- The attachment record of a module bound to a chassis. -/
def attached (d : Dev) : Dev := { d with bay := { d.bay with attach := some { dimms := [], cell := 0, cellFitted := 0, chassis := zeroBytes 16, position := 0 } } }
/-- A member of a ring of two, the acting anchor. -/
def inRing : Dev :=
  attached { svc with ring :=
    { resetRing with
      st := 0x55, config := some (config2 (zeroBytes 32)), present := 3, acting := 0, epoch := 1, ringKey := some (zeroBytes 32)
      peers := [(1, { pairKey := some (zeroBytes 32), beatAt := some 0 })] } }
/-- The same, with member 1 acting. -/
def second : Dev := { inRing with otp := { inRing.otp with serial := 5 } }

theorem met_ring_identity : met cardRingConfig (pfRun (rooted { svc with glb := { svc.glb with rootOk := true } } [1, 2]) 0x7001 33 0 (par 8 [])) {}
    (fun c _ => c.b1 0 == 0) = true := by decide +kernel
theorem met_ring_adopt : met cardRingConfig (approved (pfRun (attached svc) 0x7001 0 1056 (par 8 [(0, 1, 1)]))) { data := some (config2 (sha256 [])) }
    (fun c d => c.b1 0 == 1 && !joined (adoptConfig d c.data)) = true := by decide +kernel
theorem met_ring_read : met cardRingConfig (pfRun inRing 0x7001 17 0 (par 8 [(0, 1, 2)])) {} (fun c d => c.b1 0 == 2 && d.ring.config.isSome) = true := by decide +kernel
theorem met_ring_leave : met cardRingCtrl (pfRun inRing 0x7002 0 0 (par 8 [])) {} (fun c _ => c.b1 0 == 0) = true := by decide +kernel
theorem met_ring_return : met cardRingCtrl (pfRun inRing 0x7002 0 0 (par 8 [(0, 1, 1), (4, 2, 9)])) {} (fun c d => c.b1 0 == 1 && isAnchor d) = true := by decide +kernel
theorem met_ring_ask : met cardRingCtrl (pfRun second 0x7002 0 0 (par 8 [(0, 1, 1), (4, 2, 0xFFFF)])) {} (fun c d => c.b1 0 == 1 && !isAnchor d) = true := by
  decide +kernel
theorem met_ring_view : met cardRingView (vfRun inRing 0x7003 4 0 []) {} (fun _ _ => true) = true := by decide +kernel
theorem met_map_read : met cardPlacementMapRead (pfRun inRing 0x7004 1 0 (par 16 [(4, 2, 16)])) {} (fun c _ => c.b1 0 == 0) = true := by decide +kernel
theorem met_map_handle : met cardPlacementMapRead (vfRun inRing 0x7004 0 0 (par 16 [(0, 1, 1), (8, 8, key 4 1)])) {} (fun c _ => c.b1 0 == 1) = true := by
  decide +kernel

/-! ## Check values, random, entropy (16 R461 to R476) -/

theorem met_check_value : met cardCheckValue (pfRun svc 0x8001 0 16 (par 32 [(0, 1, 32), (8, 8, 0x04C11DB7)])) data16 (fun _ _ => true) = true := by decide +kernel
theorem met_random : met cardRandom (pfRun svc 0x8002 0 0 (par 8 [(0, 4, 16)])) {} (fun c _ => decide (c.b4 0 ≤ 16)) = true := by decide +kernel
theorem met_random_long : met cardRandom (pfRun svc 0x8002 1 0 (par 8 [(0, 4, 17)])) {} (fun c _ => decide (16 < c.b4 0)) = true := by decide +kernel
theorem meets_cvu_start : (decideAccess svc 6 hostWindow .read).1 = true ∧ hostMay svc .pf 0x302C 4 = true ∧ hostMay svc .pf (0x302C + 0x100 * 3) 4 = true ∧ (cvuOf svc 3).busy = false ∧ svc.host.pfBme = true ∧
    svc.cvu.units.length = 4 ∧ bit 3 0 = true ∧ bit 3 1 = true ∧ bit 1 1 = false := by decide +kernel
theorem meets_cvu_start_bme : hostMay { svc with host := { svc.host with pfBme := false } } .pf 0x302C 4 = true := by decide +kernel
/-- Unit 0 with a job. -/
def jobbing : Dev := modCvu svc 0 fun c => { c with busy := true, len := 9 }
theorem meets_cvu_job : runsJob (cvuOf jobbing 0) = true ∧ (cvuOf jobbing 0).pend = false ∧ jobbing.cvu.pending = false ∧ jobbing.act.st ≠ 0xF0 ∧
    runsJob (cvuOf { jobbing with act := { jobbing.act with st := 0xF0 } } 0) = true := by decide +kernel
theorem meets_source : svc.bay.fabric = true ∧ bit svc.ent.online 3 = true ∧ svc.ent.fails.length = 4 ∧ svc.ent.inRow.length = 4 ∧ svc.ent.seeded = true ∧
    hostMay svc .pf 0x8008 4 = true := by decide +kernel
theorem meets_source_back : bit { svc with ent := { svc.ent with online := 7 } }.ent.online 3 = false ∧ bit svc.ent.retired 3 = false := by decide +kernel
theorem meets_entropy_wait : (ctxOf (modCtx (pfRun svc 0x8002 0 0 []) 1 fun c => { c with code := csWaiting, wait := .entropy }) 1).wait = .entropy := by decide +kernel

/-! ## Queues (04 R87 to R107) -/

/-- A queue pair in use, and one ready to be enabled. -/
def qpUp : Qp := { enable := true, irqEn := true, time := 5, unsignalled := 1, sqBase := 0x1000, cqBase := 0x2000, sqTail := 3 }
def qpReady : Qp := { sqBase := 0x1000, cqBase := 0x2000 }
/-- A module whose admin queue pair and tenant 1's first one are as given. -/
def queued (p : Qp) : Dev :=
  { svc with glb := { svc.glb with admin := p, pace := 0x100 }, tenants := [(1, { tenant1 with qps := [(0, p)], credit := 10 })] }
/-- A CFG word that enables with sizes 6, and with a size of 13. -/
def cfgOn : Nat := 0x6601
def cfgBad : Nat := 0x6D01

theorem meets_doorbells : qpExists (queued qpUp) (.vf 1) 0 = true ∧ qpOf (queued qpUp) (.vf 1) 0 = qpUp ∧ mayFetch (queued qpUp) (.vf 1) = true ∧
    hostMay (queued qpUp) (.vf 1) (qpOffset (.vf 1) 0 0x18) 4 = true ∧ hostMay (queued qpUp) (.vf 1) (qpOffset (.vf 1) 0 0x1C) 4 = true ∧
    headPast qpUp 0 = false ∧ headPast qpUp 1 = true := by decide +kernel
theorem meets_doorbells_pf : hostMay (queued qpUp) .pf (qpOffset .pf 0 0x18) 4 = true ∧ hostMay (queued qpUp) .pf (qpOffset .pf 0 0x1C) 4 = true ∧
    (qpOf (queued qpUp) .pf 0).enable = true ∧ (qpOf svc .pf 0).enable = false ∧ hostMay svc .pf (qpOffset .pf 0 0x18) 4 = true ∧
    hostMay svc .pf (qpOffset .pf 0 0x1C) 4 = true := by decide +kernel
theorem meets_qp_cfg : qpExists (queued qpReady) (.vf 1) 0 = true ∧ hostMay (queued qpReady) (.vf 1) (qpOffset (.vf 1) 0 0x10) 4 = true ∧
    cfgFault (qpBusy qpReady) qpReady cfgOn = none ∧ cfgFault (qpBusy qpReady) qpReady 0x6600 = none ∧
    cfgFault (qpBusy qpReady) qpReady cfgBad = some true ∧ cfgFault (qpBusy qpUp) qpUp 0x6701 = some false ∧
    cfgFault (qpBusy qpUp) qpUp cfgOn = none ∧ cfgFault (qpBusy qpUp) qpUp 0x6600 = none := by decide +kernel
theorem meets_admin_cfg : hostMay (queued qpReady) .pf 0x50 4 = true ∧ cfgFault (adminBusy (queued qpReady)) qpReady cfgOn = none ∧
    cfgFault (adminBusy (queued qpReady)) qpReady cfgBad = some true ∧ cfgFault (adminBusy (queued qpUp)) qpUp 0x6600 = none ∧
    cfgFault (adminBusy (queued qpUp)) qpUp cfgOn = none ∧ (queued qpUp).glb.admin.enable = true ∧ hostMay (queued qpUp) .pf 0x50 4 = true ∧
    cfgFault (adminBusy (queued qpUp)) qpUp 0x6701 = some false := by decide +kernel
theorem meets_fetch_admin : fetchOpen (queued qpUp) .pf = true ∧ fetchCount (queued qpUp) .pf 0 = 3 ∧ (queued qpUp).act.st ≠ 0x33 ∧
    (decideAccess (queued qpUp) 5 hostWindow .read).1 = true ∧
    fetchCount { queued qpUp with act := { svc.act with st := 0x33 } } .pf 0 = 3 ∧ fetchOpen { queued qpUp with act := { svc.act with st := 0x33 } } .pf = true := by
  decide +kernel
/-- The same without an admin queue pair. -/
def tenantsOnly : Dev := { queued qpUp with glb := { svc.glb with pace := 0x100 } }
theorem meets_fetch_tenant : (fetchOpen tenantsOnly .pf && decide (0 < fetchCount tenantsOnly .pf 0)) = false ∧ (tn tenantsOnly 1).commitMarked = false ∧
    tenantsOnly.tenants.length = 1 ∧ tn svc 2 = {} ∧ ({} : Tenant).commitMarked = false ∧ (tenantOrder tenantsOnly).find? (fun n => (nextQp tenantsOnly n).isSome) = some 1 ∧ nextQp tenantsOnly 1 = some 0 := by decide +kernel
theorem meets_fetch_read : { svc with host := { svc.host with reads := [{ fn := .vf 1, q := 0, first := 0, count := 1 }] } }.host.reads[0]? =
    some { fn := .vf 1, q := 0, first := 0, count := 1 } := rfl
theorem meets_fetch_retry : (qpOf (queued { qpUp with retryHold := true }) (.vf 1) 0).retryHold = true ∧ (qpOf (queued qpUp) (.vf 1) 0).irqEn = true ∧
    (qpOf (queued qpUp) (.vf 1) 0).time ≠ 0 ∧ 0 < (qpOf (queued qpUp) (.vf 1) 0).unsignalled ∧ (entryOf 1 0 0 []).length = 128 := by decide +kernel

/-! ## Starter (05 R121 to R132) -/

/-- Context 1 waiting for flag 3, with a count of posts of flag 5. -/
def flagged (posts : Nat) : Dev :=
  setCtx svc 1 { code := csWaiting, fn := .pf, gen := 1, level := 1, entry := entryOf 2 1 0 [], mask := 8, flags := if posts = 0 then [] else [(5, posts)] }
theorem meets_flag : ctxHeld (ctxOf (flagged 14) 1) = true ∧ (ctxOf (flagged 14) 1).useNo = 0 ∧ tabGet 0 (ctxOf (flagged 14) 1).flags 5 = 14 ∧
    tabGet 0 (ctxOf (flagged 15) 1).flags 5 = 15 ∧ codeKnown (ctxOf (flagged 14) 1).code = true ∧ (ctxOf (flagged 0) 1).code = csWaiting ∧ (ctxOf (flagged 0) 1).wait = .nothing ∧
    flagUp { ctxOf (flagged 0) 1 with flags := [(3, 1)] } = some 3 ∧ flagUp (ctxOf (flagged 14) 1) = none ∧ ctxHeld (ctxOf svc 7) = false := by decide +kernel

/-- A context of no state of 05 R123. -/
theorem meets_bad_context : ctxHeld (ctxOf (setCtx svc 1 { code := 0x77 }) 1) = true ∧ (ctxOf (setCtx svc 1 { code := 0x77 }) 1).useNo = 0 ∧
    codeKnown (ctxOf (setCtx svc 1 { code := 0x77 }) 1).code = false := by decide +kernel

/-- Context 1 READY at level 1; with `full`, every core runs context 2 at level 5. -/
def readied (full : Bool) : Dev :=
  let d := setCtx (setCtx svc 1 { code := csReady, fn := .pf, gen := 1, level := 1, entry := entryOf 2 1 0 [] }) 2 { code := csRunning, fn := .vf 1, gen := 1, level := 5 }
  { d with sch := { d.sch with ready := [[], [1], [], [], [], [], [], []],
                               cores := if full then List.replicate 24 { running := some 2 } else d.sch.cores } }
theorem meets_dispatch : decideDispatch (readied false) = some (1, 0, false) ∧ (readied false).sch.pending = false ∧ (readied false).glb.failStop = false ∧
    (ctxOf (readied false) 1).code = csReady ∧ (readied false).sch.toRun = [] := by decide +kernel
/-- After a pre-emption at a post, context 1 waits on its core for its work. -/
theorem meets_to_run : (preemptAtPost (readied true)).sch.toRun = [1] ∧ (preemptAtPost (readied true)).bay.fabric = true ∧
    (preemptAtPost (readied true)).glb.failStop = false := by decide +kernel
theorem meets_preempt : decideDispatch (readied true) = some (1, 0, true) ∧ (readied true).sch.pending = false ∧ (readied true).sch.toRun = [] ∧ ((readied true).sch.cores.getD 0 {}).running = some 2 ∧
    (ctxOf (readied true) 1).code = csReady ∧ 0 < (readied true).sch.cores.length := by decide +kernel

/-! ## Resets (03 R67 to R85) -/

theorem meets_resets : vfExists svc 1 = true ∧ svc.glb.failStop = false ∧ svc.host.linkUp = true ∧ svc.host.vfEnable = true ∧ fnExists svc (.vf 1) = true ∧
    fnExists svc .pf = true ∧ svc.bay.fabric = true := by decide +kernel
theorem meets_reset_tenant : svc.vmp.st ≠ 0x33 ∧ tabWf {} svc.tenants = true ∧ 1 ≤ genOf svc (.vf 1) ∧ genOf svc (.vf 1) < 2 ^ 16 ∧ (stampsOf svc (.vf 1)).length ≤ 4096 := by decide +kernel

/-! ## Pace, commits, accesses (01 R23 to R33; 05 R141 to R144; 13 R380 to R392) -/

def hot (t : Int) : Dev := { svc with bay := { svc.bay with dieTemp := t } }
theorem meets_pace : deniedPiece svc 4 (imageAddr .pf (timeOffset .pf)) 4 .read = none ∧ hostReaches svc .pf (timeOffset .pf) = true ∧
    deniedPiece svc 4 (imageAddr (.vf 1) (timeOffset (.vf 1))) 4 .read = none ∧ hostReaches svc (.vf 1) (timeOffset (.vf 1)) = true ∧
    hostMay svc .pf 0x1C 4 = true ∧ (hot 1680).bay.dieTemp ≤ 1680 ∧ hostMay (hot 1681) .pf 0x1C 4 = true ∧ hostMay svc .pf 0x30 4 = true ∧
    (paceRange (creditRefill (closeWindow [] 1681 [] svc))).glb.thermalFallback = false := by decide +kernel
theorem meets_stall : { svc with ring := { svc.ring with east := { lanes := 4 } } }.ring.east.lanes ≠ 0 ∧ svc.ring.east.lanes = 0 ∧ svc.ring.west.lanes = 0 ∧
    (cardOf svc 1).exchange = none ∧ svc.lcd.st ≠ 0x0F ∧ svc.lcd.st ≠ 0x33 ∧ (cardOf exchanging 0).exchange = some 1 := by decide +kernel
theorem meets_refill : tabWf {} svc.tenants = true ∧ svc.glb.pace = 0 := by decide +kernel

theorem meets_commit_go : ((List.range 7).all fun j => hostMay svc .pf (0x1000 * (j + 2) + 0xFF8) 4 && !blockPending (j + 2) svc) = true ∧
    blockPending 2 (setPending 2 svc) = true ∧ hostMay (setPending 2 svc) .pf 0x2FF8 4 = true ∧ hostMay svc .pf 0x60 4 = true ∧ svc.glb.vfCommitPending = false := by
  decide +kernel
theorem meets_commit_apply : (setPending 2 svc).sch.pending = true ∧ (setPending 5 svc).ring.pending = true ∧ (setPending 6 svc).vmp.pending = true ∧
    (setPending 8 svc).ent.pending = true := by decide +kernel
/-- The access table closed for an update, claimed by context 1, and stopped. -/
def closed : Dev := { svc with act := { svc.act with st := 0x33, claim := some 1, stage := tabPut {} svc.act.stage 40 { base := 1, last := 2, mask := 16, r := true, valid := true } } }
def claimed : Dev := { pfRun svc 2 1 0 [] with act := { svc.act with claim := some 1, stage := svc.act.entries } }
def stopped : Dev := { svc with act := { svc.act with st := 0xF0 } }
theorem meets_access : hostMay svc .pf 0x2008 4 = true ∧ closed.act.st = 0x33 ∧ closed.act.waiting = [] ∧ closed.act.dma = [] ∧ closed.bay.fabric = true ∧
    hostReaches svc .pf 0x30 = true ∧ deniedPiece svc 4 (imageAddr .pf 0x30) 4 .read = none ∧
    (deniedPiece stopped 4 (imageAddr .pf 0x30) 4 .write).isSome = true := by decide +kernel
theorem meets_access_denied : hostReaches svc (.vf 1) 0xF000 = true ∧ svc.act.st = 0x0F ∧
    (deniedPiece { svc with act := { svc.act with entries := actAtReset } } 4 (imageAddr (.vf 1) 0xF000) 4 .write).isSome = true := by decide +kernel
theorem meets_access_internal : initiatorUp (pfRun svc 2 1 0 []) 2 1 = true ∧ deniedPiece (pfRun svc 2 1 0 []) 2 0x44000004 4 .read = none ∧
    (deniedPiece (pfRun svc 2 1 0 []) 2 0xFF00000000 1 .read).isSome = true := by decide +kernel
theorem meets_claim : (ctxOf claimed 1).code = csRunning ∧ (ctxOf claimed 1).level ≤ 1 ∧ deniedPiece claimed 2 0x44000004 4 .read = none ∧
    deniedPiece claimed 2 0x44000008 4 .write = none ∧ claimed.act.claim = some 1 ∧ stageOk claimed = true ∧ (pfRun svc 2 1 0 []).act.claim = none ∧
    stageOk { claimed with act := { claimed.act with stage := tabPut {} claimed.act.stage 40 { base := 2, last := 1 } } } = false := by decide +kernel
theorem meets_decision : svc.act.entries.all (fun p => !covers p.2 0x800000000) = true ∧ svc.act.entries = [] ++ (0, romEntry 0x0044000000 0x004400FFFF 0x007 true true false true) :: svc.act.entries.tail ∧
    covers (romEntry 0x0044000000 0x004400FFFF 0x007 true true false true) 0x44000000 = true ∧ stopped.act.st = 0xF0 ∧
    entryPermits 12 (romEntry 0x0010000000 0x00100FFFFF 0x01E true true false false) 4 .read = true := by decide +kernel

/-! ## Lock mode (08 R248 to R253) -/

/-- Tenant 1 asks for its data key, holds a grant, or may do neither. -/
def asking (t : Tenant) : Dev := { keyed with tenants := [(1, t)], eng := { keyed.eng with lockQueue := [1] } }
def locker : Tenant := { tenant1 with lockAllowed := true, lockKey := key 4 1 }
def grant1 : Grant := { lane := 3, handle := mkHandle 1 4 1 1, grantedAt := 0, recs := [] }
theorem meets_lock_request : hostMay (asking locker) (.vf 1) 0x28 4 = true ∧ (tn (asking locker) 1).lockAllowed = true ∧ (tn (asking locker) 1).lockReq = false ∧
    (tn (asking locker) 1).grant = none ∧ (tn (asking tenant1) 1).lockAllowed = false ∧ hostMay (asking tenant1) (.vf 1) 0x28 4 = true ∧
    (tn (asking { locker with grant := some grant1 }) 1).grant.isSome = true ∧ hostMay (asking { locker with grant := some grant1 }) (.vf 1) 0x28 4 = true := by
  decide +kernel
theorem meets_lock_grant : (asking locker).eng.lockQueue = [1] ∧ laneFree ((asking locker).eng.lanes.getD 3 { online := false }) = true ∧ lockedLanes (asking locker) < 32 ∧
    lockNameOk (asking locker) 1 (key 4 1) = true ∧ draining (asking locker) = false ∧ holds (asking locker) (key 4 1) = true ∧
    underRepair (asking locker) false (key 4 1) = false ∧ vmpHeld (asking locker) = false ∧ (lockRecord (asking locker) (recsOfKey (asking locker) (keyOf (key 4 1))) (key 4 1)).isSome = true ∧
    lockNameOk (asking tenant1) 1 0 = false := by decide +kernel
theorem meets_lock_end : tabWf {} (asking { locker with grant := some grant1 }).tenants = true ∧ (tn (asking { locker with grant := some grant1 }) 1).grant = some grant1 := by
  decide +kernel

/-! ## The sideband, power and removal (02), the cell and the keeper -/

/-- A sled on auxiliary power alone; one out of a bay; and a bay record that R57 accepts. -/
def onAux : Dev := { Dev.reset with bay := { resetBay with auxPower := true, auxLogic := true, straps := 2 } }
def noAux : Dev := { onAux with bay := { onAux.bay with auxLogic := false } }
def bayRecord : Bytes := ascii [0x49, 0x57, 0x42, 0x59] ++ [1, 3, 3, 0, 144, 0] ++ zeroBytes 21 ++ [0x2E]
/-- A keeper whose shares do not agree with each other any more is one without a key. -/
def shareless (d : Dev) : Dev := { d with keeper := { d.keeper with cells0 := none, zeroised := false } }

theorem meets_sideband : svc.bay.auxLogic = true ∧ smbusAddress svc = 0x60 ∧ 3 ≠ svc.bay.straps ∧ logUp svc = true ∧ onAux.bay.auxLogic = true ∧ 3 ≠ onAux.bay.straps ∧
    logUp onAux = false := by decide +kernel
theorem meets_power_up : Dev.reset.bay.auxPower = false ∧ noAux.bay.auxPower = true ∧ noAux.bay.auxLogic = false ∧ bayRecordOk (some bayRecord) = true ∧
    onAux.bay.checkDone = false ∧ (onAux.keeper.answers && !onAux.keeper.zeroised && (keeperKey onAux).isNone) = false ∧
    (shareless onAux).keeper.answers = true ∧ (shareless onAux).keeper.zeroised = false ∧ keeperKey (shareless onAux) = none ∧ onAux.bay.p12v = false := by
  decide +kernel
/-- Main power on, everything done but the connection of the loads; and start-up going on. -/
def ramped : Dev := { onAux with bay := { onAux.bay with p12v := true, ramped := true, checkDone := true } }
def beginning : Dev := { svc with glb := { svc.glb with starting := true } }
theorem meets_main_loads : ramped.bay.unsuitable = false ∧ ramped.bay.mainLoads = false ∧ ({ ramped.bay with ramped := false } : Bay).ramped = false ∧
    (svc.bay.p12v && svc.bay.ramped && svc.bay.checkDone && !svc.bay.unsuitable && !svc.bay.mainLoads) = false ∧
    beginning.bay.fabric = true ∧ beginning.glb.starting = true ∧ beginning.glb.fwRunning = true := by decide +kernel

/-- A module with an attention switch in the phases of a removal. -/
def removing (r : Removal) (p : Bool) (kind : Nat) : Dev := { svc with bay := { svc.bay with attnFitted := true, removal := r, removalPending := p, drainKind := kind } }
theorem meets_power_loss : ramped.bay.p12v = true ∧ ramped.bay.fabric = false ∧ svc.bay.p12v = true ∧ svc.bay.fabric = true ∧ svc.bay.auxPower = true ∧
    svc.bay.cell.seated = false ∧ svc.bay.seatHigh = false ∧ ({ onAux.bay with seatHigh := false } : Bay).p12v = false := by decide +kernel
theorem meets_attention : (removing .idle false 0).bay.attnFitted = true ∧ (removing .idle false 0).bay.fabric = true ∧ (removing .idle false 0).glb.failStop = false ∧
    (removing .abortWindow true 0).bay.removal = .abortWindow ∧ (removing .abortWindow true 0).bay.removalPending = true ∧
    draining (removing .draining true 0) = true ∧ (removing .draining true 0).bay.drainKind ≠ 2 ∧ svc.bay.attnFitted = false ∧
    draining (removing .draining true 2) = true ∧ (removing .draining true 2).bay.drainKind = 2 := by decide +kernel
theorem meets_removal_drain : drainDone (removing .draining true 0) = true ∧ (removing .draining true 0).ring.st = 0x0F ∧
    (removing .draining true 0).bay.ringJoin = false ∧ { (removing .draining true 0).bay with ringJoin := true }.ringJoin = true ∧
    ({ resetRing with st := 0x96 } : Ring).st = 0x96 ∧ (removing .draining true 0).bay.shutdownCtxs = [] := by decide +kernel

/-- A good cell pack, and a sled on holdover. -/
def pack : Cell := { seated := true, readable := true, partOk := true, serial := 77, millivolts := 3000 }
def packed : Dev := { svc with bay := { svc.bay with cell := pack } }
def held : Dev := { Dev.reset with keeper := { keeper1 with onHoldover := true } }
def lost : Dev := { svc with keeper := { keeper1 with timeLost := true } }
theorem meets_cell_pack : svc.bay.cell.seated = false ∧ pack.seated = true ∧ svc.bay.auxLogic = true ∧ packed.bay.cell.seated = true ∧ packed.bay.auxPower = true ∧
    (2700 : Nat) < 2800 ∧ held.keeper.onHoldover = true ∧ held.bay.auxPower = false ∧ held.bay.cell.seated = false := by decide +kernel
theorem meets_clock : hostMay svc .pf 0x4024 4 = true ∧ hostMay svc .pf 0x4028 8 = true ∧ svc.sen.full = false ∧ unsigned 32 1000000 = 1000000 ∧
    unsigned 32 0xFFF0BDC0 = -1000000 ∧ 1000000 < unsigned 32 1000001 ∧ unsigned 32 0xFFF0BDBF < -1000000 ∧ lost.keeper.timeLost = true ∧
    now lost < 2 ^ 63 ∧ hostMay lost .pf 0x4028 8 = true ∧ svc.keeper.timeLost = false := by decide +kernel
theorem meets_remask : keeperPowered lost = true ∧ lost.keeper.answers = true ∧ lost.keeper.zeroised = false ∧ keeperKey lost = some (zeroBytes 32) ∧
    (zeroBytes 32).length = 32 := by decide +kernel
theorem meets_tick : keeperPowered svc = true ∧ svc.keeper.clockValid = true ∧ svc.keeper.frac < 32768 ∧ (-200 : Int) ≤ svc.keeper.trim ∧
    svc.keeper.trim ≤ 200 := by decide +kernel

/-! ## The sentinel and its log (15) -/

def entry0 : LogEntry := { type := 0x0022, time := 5 }
/-- A module with what its sentinel holds. -/
def logging (s : Sen) : Dev := { svc with sen := s }
theorem meets_scan : keeperPowered svc = true ∧ svc.bay.fabric = true ∧ keeperPowered onAux = true ∧ onAux.bay.fabric = false ∧
    bit (logging { svc.sen with active := 2 ^ 10 }).sen.active 10 = true := by decide +kernel
theorem meets_append : (logging { svc.sen with submitted := [entry0] }).sen.submitted = entry0 :: [] ∧
    logRefuses (logging { svc.sen with submitted := [entry0] }) entry0.type = false ∧
    logRefuses (logging { svc.sen with submitted := [entry0], full := true }) entry0.type = true ∧ logReserve entry0.type = false := by decide +kernel
theorem meets_release : hostMay (logging { svc.sen with readMax := 4 }) .pf 0x4058 8 = true ∧ (4 : Nat) ≠ 0xFFFFFFFFFFFFFFFF ∧
    (logging { svc.sen with readMax := 4 }).sen.oldest < 5 ∧ (5 : Nat) ≤ (logging { svc.sen with readMax := 4 }).sen.readMax + 1 ∧
    svc.sen.releasing = none ∧ svc.sen.readMax = 0xFFFFFFFFFFFFFFFF ∧ hostMay svc .pf 0x4058 8 = true ∧
    (logging { svc.sen with releasing := some 5 }).sen.releasing = some 5 := by decide +kernel
theorem meets_windowed : (histOf { svc with sen.hist := [(10, { out := true })] } 10).out = true ∧ escalates svc 10 = false := by decide +kernel

/-! ## Ring frames and links (12) -/

/-- Two trained ports, each with an authenticated neighbour; a member of a ring of two with RING_JOIN high. -/
def port1 : Port := { lanes := 4, auth := true, neighbour := 1 }
def onRing (d : Dev) : Dev := { d with bay := { d.bay with ringJoin := true }, ring := { d.ring with east := port1, west := port1 } }
def member : Dev := onRing inRing
/-- The same, still joining, authenticated or not; and one that leaves. -/
def joiner (auth : Bool) : Dev :=
  { member with ring := { member.ring with st := 0x33, epoch := 0, present := 0, east := { port1 with auth }, west := { port1 with auth } } }
def leaver : Dev := { member with ring := { member.ring with st := 0x96 } }
/-- A header of a frame that member 1 sends, whose tag verifies. -/
def hdr (type dst : Nat) : Hdr :=
  { type, src := 1, dst, cls := 0, epoch := 1, seq := 2 ^ 56 + 9, length := 0, keysel := keyselOf type, clock := 5, tagOk := true, east := true }
/-- Whether a member catches a frame of a type. -/
def catches (d : Dev) (type : Nat) : Bool := (receive (hdr type 0) type d).2 && (hdr type 0).src != memberNo d

theorem meets_reception : linksUp member = true ∧ (portOf member true).failed = false ∧ (portOf member true).lanes ≠ 0 ∧ memberNo member = 0 ∧
    hasKey member (hdr 1 0) = true ∧ hasKey { member with ring := { member.ring with epoch := 9 } } (hdr 1 0) = false ∧
    (hdr 1 0).keysel ≠ keyselOf 4 ∧ seenBefore (peerOf member 1) (hdr 1 0) = false ∧ member.ring.st ≠ 0x33 ∧
    seenBefore (peerOf (receive (hdr 1 0) 1 member).1 1) (hdr 1 0) = true ∧ linksUp (joiner false) = true ∧ authDone (joiner false) = false ∧
    memberNo (joiner false) = 0 := by decide +kernel
theorem meets_frames_taken : [1, 2, 3, 4, 5, 6, 7, 8, 9, 0x10, 0x11, 0x12, 0x20, 0x21, 0x30, 0x31].all (catches member) = true ∧ joined member = true ∧
    catches (joiner true) 2 = true ∧ catches leaver 6 = true ∧ isAnchor member = true := by decide +kernel

/-- A module that may join, and one that has lost sight of member 1. -/
def ready2Join : Dev :=
  let d := rooted inRing [1, 2]
  { d with ring := { d.ring with st := 0x0F, config := some (config2 (identityDigest (identityPublic d 1) (identityPublic d 2))) } }
def suspicious : Dev := { member with ring := { member.ring with suspects := [1], loopProof := true, proofHeld := true } }
/-- A joiner that has met no one; and a member's own frames come round to it. -/
def alone : Dev := { joiner false with ring := { (joiner false).ring with east := { lanes := 4 }, west := { lanes := 4 }, peers := [] } }
theorem meets_own_frames : (receive { hdr 1 0 with src := 0, east := false } 1 { member with ring := { member.ring with loopProof := true } }).2 = true ∧
    (receive { hdr 2 255 with src := 0 } 2 alone).2 = true ∧ alone.ring.st = 0x33 ∧ metMembers alone = [] ∧ authDone alone = false := by decide +kernel
theorem meets_join : canJoin (drbgBefore false ready2Join) = true ∧ drbgUp (drbgBefore false ready2Join) = true ∧
    (drbgBefore false ready2Join).ring.east = {} ∧ (drbgBefore false ready2Join).ring.west = {} ∧ mayForm (joiner true) = true ∧
    authDone (joiner false) = false ∧ beats member = true ∧ bit member.ring.present 1 = true ∧ 1 ≠ memberNo member ∧ 1 ∉ member.ring.suspects ∧
    inMajority suspicious = true ∧ actingOf suspicious (reachable suspicious) = some (memberNo suspicious) ∧ joined suspicious = true ∧
    linksUp suspicious = true := by decide +kernel
theorem meets_view_frames : member.ring.st ≠ 0x0F ∧ member.ring.st ≠ 0xF0 ∧ (receive (hdr 4 0) 4 member).1.ring.epoch < 2 ∧
    (receive (hdr 6 0) 6 leaver).1.ring.st = 0x96 ∧ joined (receive (hdr 6 0) 6 member).1 = true ∧ isAnchor (receive (hdr 6 0) 6 member).1 = true ∧
    heldCfg (receive (hdr 7 0) 7 member).1 ≠ [] ∧
    (receive (hdr 3 0) 3 { member with ring := { member.ring with nextKey := some (2, [1]) } }).1.ring.nextKey = some (2, [1]) := by decide +kernel
theorem meets_notice : primaryOf (receive (hdr 9 0) 9 member).1 7 ≠ memberNo member ∧
    primaryOf (receive (hdr 9 0) 9 { member with ring := { member.ring with map := [(bucketOf 0, { primary := 0, secondary := 1, st := 0 })] } }).1 (keyOf 0) = 0 := by
  decide +kernel

/-- A member that holds bucket 0 with member 1, in either order. -/
def mapped (p s : Nat) : Dev := { member with ring := { member.ring with map := tabPut {} [] (bucketOf 0) { primary := p, secondary := s, st := 0 } } }
theorem meets_forward : shareOf (receive (hdr 0x10 0) 0x10 member).1 1 < 28 ∧ hereAlready (receive (hdr 0x10 0) 0x10 member).1 1 3 = false := by decide +kernel
/-- Context 1 waits for a reply of member 1 under issue 3. -/
def forwarding : Dev :=
  setCtx member 1 { code := csWaiting, wait := .ringReply, fn := .vf 1, gen := 1, level := 1, sentTo := some 1, issue := 3, entry := entryOf 0x2001 0 0 [] }
theorem meets_reply : (receive (hdr 0x11 0) 0x11 forwarding).2 = true ∧ ctxHeld (ctxOf forwarding 1) = true ∧ (ctxOf forwarding 1).code ≠ csHeld ∧
    (ctxOf forwarding 1).origin = none ∧ (ctxOf forwarding 1).sentTo = some 1 ∧ (ctxOf forwarding 1).issue = 3 := by decide +kernel
theorem meets_change_lock : catches (mapped 0 1) 0x12 = true ∧ primaryOf (mapped 0 1) 0 = memberNo (mapped 0 1) ∧ lockOf (mapped 0 1) 0 = none ∧
    lockOf { mapped 0 1 with ring := { (mapped 0 1).ring with locks := [{ key := 0, holder := (1, 4), waiters := [] }] } } 0 =
      some { key := 0, holder := (1, 4), waiters := [] } ∧ catches (mapped 1 0) 0x12 = true ∧ primaryOf (mapped 1 0) 0 = 1 ∧ lockOf (mapped 1 0) 0 = none := by
  decide +kernel
theorem meets_replicate : cachedOf member 1 3 = none ∧ applyChanges false [.loadEnd] member = .ok (vaultReady member) ∧
    (3 : Nat) ≠ joinKey (memberNo member) ∧ (applyChanges false [.format true] { member with bay := { member.bay with dimmOk := [] } }).isOk = false ∧
    cacheRoomFor (vaultReady member) = true ∧ (cachedOf (cachePut member 1 3 (bare stOk)) 1 3).isSome = true ∧ catches (joiner true) 0x20 = true ∧
    ((applyChanges true [.format true] (joiner true)).toOption.any fun e => cacheRoomFor e && e.ring.formatDue == some true) = true ∧
    ((applyChanges true [.loadEnd] (joiner true)).toOption.any fun e => cacheRoomFor e && e.ring.formatDue == none) = true := by decide +kernel
/-- A member whose cache holds 8,192 outcomes, none of them aged. -/
def cacheFull : Dev :=
  { member with ring := { member.ring with cache := List.replicate 8192 { origin := 1, issue := 4, at' := 0, aged := false, outcome := bare stOk } } }
theorem meets_full_cache : cachedOf cacheFull 1 3 = none ∧ applyChanges false [.loadEnd] cacheFull = .ok (vaultReady cacheFull) ∧
    cacheRoomFor (vaultReady cacheFull) = false := by
  refine ⟨by simp [cachedOf, cacheFull, -List.reduceReplicate], rfl, ?_⟩
  simp [cacheRoomFor, vaultReady, cacheFull, -List.reduceReplicate]
theorem meets_transfer : catches { mapped 0 1 with vmp := (withRecs member [dataRec]).vmp } 0x21 = true := by decide +kernel
theorem meets_copy : (mapOf { member with ring := { member.ring with map := [(7, { primary := 1, incoming := 0, st := 3 })] } } 7).incoming = memberNo member ∧
    (mapOf { member with ring := { member.ring with map := [(7, { primary := 1, incoming := 0, st := 3 })] } } 7).primary = 1 ∧ copyIn [] member = .ok member := by
  decide +kernel
theorem meets_save : catches { member with ring := { member.ring with gatherCtx := some 4, gatherLeft := [1] } } 0x31 = true := by decide +kernel

/-- A port with an unacknowledged frame, sent again n times; with one lane; and failed. -/
def frame9 : Frame := { dst := 1, epoch := 1, count := 9, clock := 0, east := true, body := .beat 0 }
def replaying (n : Nat) : Dev := { member with ring := { member.ring with east := { port1 with replay := [(frame9, n)] } } }
def ported (p : Port) : Dev := { member with ring := { member.ring with east := p } }
theorem meets_links : (portOf (replaying 7) true).replay.head? = some (frame9, 7) ∧ (portOf (replaying 8) true).replay.head? = some (frame9, 8) ∧
    (portOf (replaying 7) true).replay.find? (fun y => y.1.count == 9) = some (frame9, 7) ∧ linksUp (replaying 7) = true ∧
    (portOf (ported { port1 with failed := true }) true).failed = true ∧ member.bay.fabric = true ∧ member.glb.failStop = false ∧
    1 < (portOf member true).lanes ∧ (portOf (ported { port1 with lanes := 1 }) true).lanes = 1 ∧ (portOf (ported { port1 with lanes := 1 }) true).failed = false := by
  decide +kernel
/-- A joiner whose vault is to be formatted. -/
def formatting : Dev := { joiner true with ring := { (joiner true).ring with formatDue := some true } }
theorem meets_format : formatting.ring.formatDue = some true ∧ (population formatting).isSome = true ∧ formatting.ring.st = 0x33 ∧ linksUp formatting = true ∧
    drbgUp (drbgBefore false formatting) = true ∧ (population (drbgBefore false formatting)).isSome = true := by decide +kernel

/-! ## Vault events, faults, debug (07, 14, 17, 18, 19) -/

/-- A module whose vault is as given. -/
def vault (v : Vmp) : Dev := { svc with vmp := v }
/-- An open poison entry of a group without records, of one with a record, and of a node above the groups. -/
def poisoned (first level : Nat) (mirrored : Bool) : Dev :=
  { member with vmp := { svc.vmp with mirrored, poison := [(0, { first, level, outcome := 0, copies := 1 })], slots := [(0, dataRec)] } }
theorem meets_repair : outcomeOk (poisoned 0 0 true) (tabGet {} (poisoned 0 0 true).vmp.poison 0) 1 [] = true ∧ vaultBuilt (poisoned 0 0 true) = true ∧
    outcomeOk (poisoned 0 0 false) (tabGet {} (poisoned 0 0 false).vmp.poison 0) 2 [] = true ∧
    outcomeOk (poisoned 0 0 false) (tabGet {} (poisoned 0 0 false).vmp.poison 0) 3 [dataRec.handle] = true ∧
    outcomeOk (poisoned 0 15 false) (tabGet {} (poisoned 0 15 false).vmp.poison 0) 5 [] = true ∧
    outcomeOk (poisoned 0x10000 0 false) (tabGet {} (poisoned 0x10000 0 false).vmp.poison 0) 6 [] = true ∧
    (tabGet {} (poisoned 0 0 false).vmp.poison 0).outcome = 0 ∧ (tabGet {} (poisoned 0 0 false).vmp.poison 0).level ≠ 0xC := by decide +kernel
theorem meets_sweep : svc.vmp.frogPeriod ≠ 0 ∧ svc.vmp.st = 0x96 ∧ svc.vmp.frog = 0x0F ∧ sweepHeldBack svc = false ∧
    sweepHeldBack { svc with mnt := { svc.mnt with occupant := some { code := 2 } } } = true ∧ (vault { svc.vmp with drawRetry := true }).vmp.drawRetry = true ∧
    svc.vmp.row + 1 < groupCount svc.vmp.n ∧ groupCount 64 ≤ svc.vmp.row + 1 ∧ groupPoisoned svc 0 = false ∧ tabWf {} svc.vmp.groups = true ∧
    svc.mnt.occupant = none ∧ frogKnown svc.vmp.frog = true ∧ svc.vmp.frog ≠ 0x55 ∧ vmpHeld svc = false ∧
    (vault { svc.vmp with frog := 0x55 }).vmp.frog = 0x55 ∧
    ([{ kind := 0, channel := 0, level := 0, first := 0 }].foldl (fun d x => if onWalk d (groupLines d.vmp.row) x then meetFail x d else d)
      (vault { svc.vmp with frog := 0x55 })).vmp.frog = 0x55 := by decide +kernel
theorem meets_hot_dimm : svc.bay.fabric = true ∧ (svc.bay.dimms.getD 1 {}).fitted = true ∧ (86 : Int) > 85 ∧ svc.bay.refreshDouble.getD 1 false = false := by decide +kernel

/-- A fault of a cause, and a module whose handler of a scope holds it. -/
def fault (scope cause subsystem object : Nat) : FaultInfo := { scope, cause, subsystem, unit := if scope = 3 then 0xFF else 0, object, detail := 0, inHandler := none }
def handling (d : Dev) (f : FaultInfo) : Dev :=
  { d with flt := { d.flt with scopes := modifyAt d.flt.scopes f.scope fun _ => { current := some { info := f } } } }
theorem meets_command_scope : (scopeOf (handling (pfRun svc 2 1 0 []) (fault 0 6 4 1)) 0).current = some { info := fault 0 6 4 1 } ∧
    ctxHeld (ctxOf (handling (pfRun svc 2 1 0 []) (fault 0 6 4 1)) 1) = true ∧ (ctxOf (pfRun svc 2 1 0 []) 1).code ≠ csHeld ∧
    (ctxOf (pfRun svc 2 1 0 []) 1).ranAgain = false ∧ (ctxOf (pfRun svc 2 1 0 []) 1).held = none ∧ ctxHeld (ctxOf (handling svc (fault 0 6 4 1)) 1) = false := by
  decide +kernel
theorem meets_tenant_scope : (scopeOf (handling svc (fault 1 3 2 1)) 1).current = some { info := fault 1 3 2 1 } ∧ qpExists (forceRelease svc 1) (.vf 1) 0 = true := by
  decide +kernel
/-- A member whose context 1 waits for member 1's acknowledgement. -/
def unanswered : Dev := { member with ring := { member.ring with waitAcks := [(1, [1])] } }
theorem meets_silent : silent (handling unanswered (fault 2 9 9 1)) 1 = true ∧ (1 : Nat) ≠ memberNo unanswered ∧
    silent (handling member (fault 2 9 9 1)) 1 = false := by decide +kernel
theorem meets_ring_scope : [5, 8, 9].all (fun c => (scopeOf (handling member (fault 2 c 9 0)) 2).current == some { info := fault 2 c 9 0 }) = true ∧
    (fault 2 9 9 0).object = memberNo (handling member (fault 2 9 9 0)) := by decide +kernel
theorem meets_module_scope : unitFault (fault 3 0xA 8 0) = false ∧ unitFault (fault 3 6 1 0) = false ∧ unitFault (fault 3 7 2 0) = false ∧
    unitFault (fault 3 5 4 0) = false ∧ unitFault { fault 3 6 5 0 with unit := 3 } = true ∧
    (scopeOf (handling svc (fault 3 7 2 0)) 3).current = some { info := fault 3 7 2 0 } ∧ svc.glb.failStop = false ∧ svc.bay.fabric = true := by decide +kernel

/-- A module in a life-cycle state, its JTAG fuse as given. -/
def inState (st fuse : Nat) : Dev := { svc with lcd := { svc.lcd with st }, otp := { svc.otp with jtagFuse := fuse } }
theorem meets_uart : (statusLine (inState 0x96 255)).isSome = true ∧ statusLine (inState 0x33 255) = none ∧ uartInput 0x33 = true ∧ uartInput 0x96 = false ∧
    (inState 0x33 255).bay.fabric = true ∧ jtagOpen (inState 0x0F 0) = true ∧ (inState 0x0F 0).lcd.phase = .none ∧ jtagOpen (inState 0x33 0) = true ∧
    jtagOpen (inState 0x96 0) = false := by decide +kernel
theorem meets_addressSpace : (2 : Nat) ^ 40 ≤ 0xFFFFFFFFFFFFFFFF ∧ jtagOpen (inState 0x33 0) = true ∧ uartInput (inState 0x33 255).lcd.st = true := by decide +kernel
/-- A RETIRING version whose time is past. -/
def retiring : Dev := withRecs svc [{ dataRec with st := 0x96, notAfter := 1 }]
theorem meets_expiry : retiring.bay.fabric = true ∧ retiring.vmp.st ≠ 0xF0 ∧ (expiring retiring dataRec.handle).isSome = true := by decide +kernel

/-! ## Worked values of the manual -/

/-- "123456789". -/
def nine : Bytes := ascii [0x31, 0x32, 0x33, 0x34, 0x35, 0x36, 0x37, 0x38, 0x39]
/-- 16 R462, the table of check values. -/
theorem test_crc : crc 16 0x1021 0xFFFF 0 false false false nine = 0x29B1 ∧ crc 16 0x1021 0 0 true true false nine = 0x2189 ∧
    crc 16 0x1021 0xFFFF 0xFFFF true true false nine = 0x906E ∧ crc 32 0x04C11DB7 0xFFFFFFFF 0xFFFFFFFF true true false nine = 0xCBF43926 ∧
    crc 32 0x1EDC6F41 0xFFFFFFFF 0xFFFFFFFF true true false nine = 0xE3069283 ∧
    crc 64 0x42F0E1EBA9EA3693 (2 ^ 64 - 1) (2 ^ 64 - 1) true true false nine = 0x995DC9BBDF1939FA := by decide +kernel
/-- 02 R58, the bay record of the example. -/
theorem test_bay_record : bayRecordOk (some (ascii [0x49, 0x57, 0x42, 0x59, 0x01, 0x05, 0x03, 0x00, 0x90, 0, 0, 0, 0x4B, 0x58, 0x34, 0x30, 0x2D, 0x31, 0x31, 0x38,
    0x32, 0x37, 0x33, 0, 0, 0, 0, 0, 0, 0, 0, 0xC2])) = true ∧ bayRingBan (some (ascii [0x49, 0x57, 0x42, 0x59, 0x01, 0x05, 0x03])) 5 = false := by decide +kernel
/-- 04, credits on a warm die; 01, a hot die. -/
theorem test_refill : (6000 : Nat) * 962 / 1000 = 5772 ∧ refillOf 5772 256 768 = 1924 ∧ refillOf 5772 512 768 = 3848 ∧ refillOf 5772 256 1024 = 1443 ∧
    pacesOf [962418] = [962] := by decide
/-- 07, following a line: N of four 64 GB DIMMs and data line 0x5A3C_9E47. -/
theorem test_following_a_line : dataLines (2 ^ 32) = 0xE0000000 ∧ tagLine (2 ^ 32) 0x5A3C9E47 = 0xEB4793C8 ∧ nodeIndex 0x5A3C9E47 0 = 0x0168F279 ∧
    counterLine (2 ^ 32) 0x5A3C9E47 = 0xFD68F279 ∧
    [1, 2, 3, 4, 5, 6].map (nodeIndex 0x5A3C9E47) = [0x002D1E4F, 0x0005A3C9, 0xB479, 0x168F, 0x2D1, 0x5A] ∧
    [1, 2, 3, 4, 5, 6].map (nodeLine (2 ^ 32) 0x5A3C9E47) = [0xFFAD1E4F, 0xFFF5A3C9, 0xFFFEB479, 0xFFFFD68F, 0xFFFFFAD1, 0xFFFFFF5A] := by decide +kernel
/-- 07: the level-2 node's range is 4,096 data lines, 0x5A3C_9000 to 0x5A3C_9FFF. -/
theorem test_unit_of_a_node : poisonLines (2 ^ 32) 2 = 4096 ∧ 0x5A3C9E47 / 4096 * 4096 = 0x5A3C9000 := by decide +kernel
/-- 08 R238, the GCM IV of the example. -/
theorem test_iv : serialIv Dev.reset 0x0000030000000012 = ascii [0x3A, 0x07, 0x01, 0x19, 0x5C, 0x2E, 0x88, 0x10, 0, 0, 3, 0, 0, 0, 0, 0x12] := by decide +kernel
/-- 10, format 0 to format 4: the PAN fields of the example and the clear PIN field. -/
def pan1 : List Nat := [6, 2, 7, 1, 3, 9, 0, 4, 5, 5, 1, 8, 2, 2, 3, 6]
theorem test_pan_field : panField 0 pan1 = ascii [0, 0, 0x13, 0x90, 0x45, 0x51, 0x82, 0x23] ∧
    panField 4 pan1 = ascii [0x46, 0x27, 0x13, 0x90, 0x45, 0x51, 0x82, 0x23, 0x60, 0, 0, 0, 0, 0, 0, 0] ∧
    xorBytes (ascii [0x04, 0x94, 0x06, 0x6F, 0xBA, 0xAE, 0x7D, 0xDC]) (panField 0 pan1) = ascii [0x04, 0x94, 0x15, 0xFF, 0xFF, 0xFF, 0xFF, 0xFF] := by
  decide +kernel
/-- 10 R301. -/
theorem test_weak_pins : weakPin [1, 1, 1, 1] = true ∧ weakPin [3, 4, 5, 6] = true ∧ weakPin [9, 8, 7, 6] = true ∧ weakPin [8, 9, 0, 1] = false := by decide
/-- 11 R318 and the credit token. -/
theorem test_amounts : amountField 200000 = none ∧ amountField 200024 = some (2 * 2 ^ 14 + 198) ∧ amountField 18201625 = none ∧ amountField 250 = some 0xFA ∧
    amountField 0 = some 0 ∧ amountField 16383 = some 16383 ∧ amountField 16384 = some (2 ^ 14) := by decide +kernel
theorem test_token_entry : decimal 20 0x3A5C91E760B427D2 = ascii [0x30, 0x34, 0x32, 0x30, 0x35, 0x33, 0x39, 0x36, 0x35, 0x37, 0x35, 0x30, 0x30, 0x33, 0x30, 0x39,
    0x32, 0x39, 0x34, 0x36] ∧ transpose 0 0x3A5C91E760B427D2 = 0x3A5C91E760B427D2 := by decide +kernel
/-- 12, a member pulled: bucket 0xA77. -/
theorem test_bucket : bucketOf 0x0A32000186A00003 = 0xA77 ∧ bucketOf 0x0A32000186A10000 = 0xA76 := by decide
/-- 13 R385, the pieces of a 192-byte write; and entry 32 with 2,048 VFs. -/
theorem test_pieces : pieces 193 0x000BFFFF80 192 = [0x000BFFFF80, 0x000BFFFFC0, 0x000C000000] ∧ (vfEntry 2048).base = 0x800000 ∧ (vfEntry 2048).last = 0x9FFFFF ∧
    (vfEntry 2048).mask = 0x1C := by decide +kernel
/-- 15 R441, the core rail: the dip at 10.3 s does not escalate, that at 10.5 s does. -/
def dips (l : List Nat) (t : Nat) : Dev :=
  { svc with sen := { svc.sen with hist := [(10, { times := l })] }, keeper := { svc.keeper with timeUs := t } }
theorem test_escalation : escalates (dips [0, 800000, 2100000, 3000000, 4400000, 6000000, 7700000] 10300000) 10 = false ∧
    escalates (dips [0, 800000, 2100000, 3000000, 4400000, 6000000, 7700000, 10300000] 10500000) 10 = true := by decide +kernel
/-- 14: INTENT of transition 3 cut after six bits is completed, and DONE ends in all ones. -/
theorem test_intent : setIntent 0x003FFFFFFFFFFFFF 3 = 0x00FFFFFFFFFFFFFF := by decide +kernel
/-- FIPS 180-4 and FIPS 197: SHA-256 of "abc", AES-256 of the standard's example. -/
theorem test_sha256 : (sha256 (ascii [0x61, 0x62, 0x63])).take 4 = ascii [0xBA, 0x78, 0x16, 0xBF] := by decide +kernel
/-- FIPS 180-4's example "abc" for SHA-1; ANSI X9.24-1's example initial key, KSN FFFF9876543210E00000 under BDK 0123456789ABCDEFFEDCBA9876543210. -/
theorem test_sha1 : (sha1 (ascii [0x61, 0x62, 0x63])).take 4 = ascii [0xA9, 0x99, 0x3E, 0x36] := by decide +kernel
theorem test_dukpt : (tdesDukptInitial (natBe 16 0x0123456789ABCDEFFEDCBA9876543210) (natBe 10 0xFFFF9876543210E00000)).take 4 =
    ascii [0x6A, 0xC2, 0x92, 0xFA] := by decide +kernel
theorem test_aes256 : aesEnc ((List.range 32).map fun j => BitVec.ofNat 8 j) ((List.range 16).map fun j => BitVec.ofNat 8 (17 * j)) =
    ascii [0x8E, 0xA2, 0xB7, 0xCA, 0x51, 0x67, 0x45, 0xBF, 0xEA, 0xFC, 0x49, 0x90, 0x4B, 0x49, 0x60, 0x89] := by decide +kernel

/-! ## WellFormed refuses an operand outside its field -/

/-- Every command of a context: the context's number is below 4,096. -/
theorem test_wf_contexts : ([
    .identify 4096 {}, .getStatus 4096 {}, .setTenantConfig 4096 {}, .getTenantConfig 4096 {}, .resetTenant 4096 {}, .logRead 4096 {},
    .vaultLoadBegin 4096 {}, .vaultLoadRecords 4096 {}, .vaultLoadEnd 4096 {}, .vaultSave 4096 {}, .vaultPoisonReport 4096 {},
    .lifecycleTransition 4096 {}, .unlockRequest 4096 {}, .unlockApprove 4096 {}, .approvalBegin 4096 {}, .approvalAdd 4096 {},
    .approvalClose 4096 {}, .custodian 4096 {}, .rootInit 4096 {}, .componentTransport 4096 {}, .cardOpen 4096 {}, .maintStart 4096 {},
    .maintStatus 4096 {}, .maintStop 4096 {}, .shutdown 4096 {}, .keyGenerate 4096 {}, .keyImport 4096 {}, .keyExport 4096 {}, .keyReplace 4096 {},
    .keyComponent 4096 {}, .keyDestroy 4096 {}, .keyInfo 4096 {}, .keyDerive 4096 {}, .attest 4096 {}, .symCipher 4096 {}, .aead 4096 {},
    .cmac 4096 {}, .keyWrap 4096 {}, .keyUnwrap 4096 {}, .pkSign 4096 {}, .pkVerify 4096 {}, .pkDecrypt 4096 {}, .pkKem 4096 {}, .pkPublic 4096 {},
    .emvCert 4096 {}, .tr34 4096 {}, .pinTranslate 4096 {}, .pinVerify 4096 {}, .pinGenerate 4096 {}, .pinChange 4096 {}, .arqcVerify 4096 {},
    .cvc 4096 {}, .emvScript 4096 {}, .payMac 4096 {}, .stsCreditToken 4096 {}, .stsDecoderKey 4096 {}, .stsKeyChange 4096 {}, .stsMgmtToken 4096 {},
    .dlmsProtect 4096 {}, .dlmsUnprotect 4096 {}, .meterKeyRotate 4096 {}, .meterKeyLoad 4096 {}, .ringConfig 4096 {}, .ringCtrl 4096 {},
    .ringView 4096 {}, .placementMapRead 4096 {}, .checkValue 4096 {}, .random 4096 {}] : List Instr).all (fun c => !c.wf) = true := by decide +kernel
/-- Contexts, functions, queues, indexes and register words. -/
theorem test_wf_queues : ([.resetTenantDrainEnd 4096, .sqTailDoorbell (.vf 4096) 0 0, .sqTailDoorbell .pf 8 0, .sqTailDoorbell .pf 0 0x10000,
    .cqHeadDoorbell (.vf 4096) 0 0, .cqHeadDoorbell .pf 8 0, .cqHeadDoorbell .pf 0 0x10000, .qpEnable 4096 0 0, .qpEnable 0 8 0, .qpEnable 0 0 0x100000000,
    .qpDisable 4096 0 0, .qpDisable 0 8 0, .qpDisable 0 0 0x100000000, .adminQueueEnable 0x100000000, .adminQueueDisable 0x100000000,
    .fetchEntriesArrive 4096 none, .fetchEntriesArrive 0 (some [zeroBytes 127]), .fetchEntriesArrive 0 (some (List.replicate 9 (zeroBytes 128))),
    .fetchRetryTimer (.vf 4096) 0, .fetchRetryTimer .pf 8, .irqCoalesceTimeout 4096 0, .irqCoalesceTimeout 0 8, .eventFlagPost 4096 0 0,
    .eventFlagPost 0 256 0, .eventFlagPost 0 0 32, .runLimitExpiry 24, .taskWaitTimer 4096] : List Instr).all (fun c => !c.wf) = true := by decide +kernel
/-- Resets, registers, lock mode and the access table. -/
theorem test_wf_registers : ([.flrVf 4096, .d3hotReturn (.vf 4096), .vfEnableSet 4097, .busMasterEnableClear (.vf 4096), .busMasterEnableSet (.vf 4096),
    .glbTimeLowRead (.vf 4096), .profileWrite 0x100000000, .paceWindowClose [0, 0, 0] 0 [none, none, none, none],
    .paceWindowClose [0, 0, 0, 65536000] 0 [none, none, none, none], .paceWindowClose [0, 0, 0, 0] 32768 [none, none, none, none],
    .paceWindowClose [0, 0, 0, 0] 0 [none], .paceWindowClose [0, 0, 0, 0] 0 [none, none, none, some 128], .interfaceStall 11 0, .interfaceStall 0 4,
    .registerWrite (.config (.vf 4096) true 0 0), .registerWrite (.config .pf true 4096 0), .registerWrite (.config .pf true 0 0x100000000),
    .attachAck 0x100000000, .commitGo 16 0, .commitGo 0 0x100000000, .vfcfgCommitWrite 0x100000000, .commitApply 16,
    .registerWrite (.host (.vf 4096) true 0 4 0 0), .registerWrite (.host .pf true 0x4000000 4 0 0), .registerWrite (.host .pf true 0 9 0 0),
    .registerWrite (.host .pf true 0 8 0x10000000000000000 0), .registerWrite (.internal 16 0 0 4 .read 0), .registerWrite (.internal 1 4096 0 4 .read 0),
    .registerWrite (.internal 1 0 0x10000000000 4 .read 0), .registerWrite (.internal 1 0 0 65 .read 0), .lockRequest 4096, .lockRelease 4096, .lockGrant 64,
    .lockExpiry 4096, .actClaimRead 4096, .actUpdateGo 4096, .actUpdateAbandon 4096] : List Instr).all (fun c => !c.wf) = true := by decide +kernel
/-- The bay, the cards, the sentinel. -/
theorem test_wf_events : ([.smbusWrite 256 0, .smbusWrite 0 0x10000000000000000, .auxLogicResetRelease 16 false none {}, .bayIdChange 16,
    .cellVoltageLow 65536, .cardInserted 2 0 false, .cardInserted 0 0x10000000000000000 false, .cardWithdrawn 2, .cardExchangeTimeout 2, .cardOpeningExpiry 2,
    .approvalSessionExpiry 8, .componentSessionExpiry 4096, .retiringVersionExpiry 0x10000000000000000, .windowedSourceSecond 32 0,
    .logReleaseWrite 0x10000000000000000, .timeAdjWrite 0x100000000, .timeSetWrite 0x10000000000000000, .memberLossDetected 16] : List Instr).all
    (fun c => !c.wf) = true := by decide +kernel
/-- A header, and a header with one field outside its range. -/
def hdr0 : Hdr := hdr 1 0
def badHdrs : List Hdr :=
  [{ hdr0 with type := 256 }, { hdr0 with src := 16 }, { hdr0 with dst := 256 }, { hdr0 with cls := 256 }, { hdr0 with epoch := 2 ^ 32 }, { hdr0 with seq := 2 ^ 64 },
    { hdr0 with length := 2 ^ 32 }, { hdr0 with keysel := 256 }, { hdr0 with clock := 2 ^ 64 }]
def forwarded0 : Forwarded := { issue := 0, originCtx := 0, tenant := 0, gen := 0, level := 0, entry := zeroBytes 128, inputs := {} }
theorem test_wf_headers : hdrWf hdr0 = true ∧ badHdrs.all (fun h => !hdrWf h && !(Instr.beatReceived h 0).wf && !(Instr.joinFrame h default).wf &&
    !(Instr.viewFrame h default).wf && !(Instr.keysFrame h 0 []).wf && !(Instr.mapFrame h 0 []).wf && !(Instr.leaveFrame h false 0).wf &&
    !(Instr.configFrame h [] [] []).wf && !(Instr.syncFrame h false 0).wf && !(Instr.noticeFrame h 0).wf && !(Instr.forwardFrame h forwarded0).wf &&
    !(Instr.replyFrame h 0 0 default).wf && !(Instr.changeLockFrame h false 0 0).wf && !(Instr.replicateFrame h false 0 0 [] default).wf &&
    !(Instr.transferFrame h false 0 0 []).wf && !(Instr.copyFrame h 0 [] false).wf && !(Instr.saveFrame h 0 [] false).wf) = true := by decide +kernel
theorem test_wf_frames : ([.beatReceived hdr0 65536, .keysFrame hdr0 0x10000000000000000 [], .mapFrame hdr0 0x10000000000000000 [], .leaveFrame hdr0 false 16,
    .syncFrame hdr0 false 0x10000000000000000, .noticeFrame hdr0 0x10000000000000000, .forwardFrame hdr0 { forwarded0 with originCtx := 4096 },
    .forwardFrame hdr0 { forwarded0 with tenant := 65536 }, .forwardFrame hdr0 { forwarded0 with level := 8 }, .forwardFrame hdr0 { forwarded0 with entry := [] },
    .replyFrame hdr0 4096 0 default, .replyFrame hdr0 0 0x10000000000000000 default, .changeLockFrame hdr0 false 0x10000000000000000 0,
    .changeLockFrame hdr0 false 0 4096, .replicateFrame hdr0 false 16 0 [] default, .replicateFrame hdr0 false 0 0x10000000000000000 [] default,
    .transferFrame hdr0 false 0x10000000000000000 0 [], .transferFrame hdr0 false 0 8192 [], .copyFrame hdr0 4096 [] false, .saveFrame hdr0 4096 [] false,
    .ringLaneFail false 16, .ringLinkAck false 0x10000000000000000 false, .outcomeCacheEntryAged 16 0, .outcomeCacheEntryAged 0 0x10000000000000000] :
    List Instr).all (fun c => !c.wf) = true := by decide +kernel
/-- The vault, entropy, check values, faults, maintenance and debug. -/
theorem test_wf_units : ([.frogGroupStep [{ kind := 3, channel := 0, level := 0, first := 0 }], .frogGroupStep [{ kind := 0, channel := 4, level := 0, first := 0 }],
    .frogGroupStep [{ kind := 0, channel := 0, level := 7, first := 0 }], .frogGroupStep [{ kind := 0, channel := 0, level := 0, first := 0x100000000 }],
    .poisonRepairDone 128 0 [] [], .poisonRepairDone 0 8 [] [], .dimmTempExcursion 4 0, .dimmTempExcursion 0 128, .noiseSourceTestFail 32 0,
    .noiseSourceTestFail 0 16, .noiseSourceRetest 32 false, .entReseedWrite 0x100000000, .entropyWaitTimeout 4096, .cvuStart 4 0, .cvuStart 0 0x100000000,
    .cvuJobDone 4 default, .faultDetected { fault 0 1 1 0 with scope := 4 }, .faultDetected { fault 0 1 1 0 with cause := 256 }, .handlerTimeLimit 4,
    .selfTestDone [102], .serviceUartInput 256 0 1 .read, .serviceUartInput 0 0x10000000000000000 1 .read, .serviceUartInput 0 0 9 .read,
    .jtagAccess 0x10000000000000000 1 .read 0 false, .jtagAccess 0 9 .read 0 false, .jtagAccess 0 1 .read 0x10000000000000000 false, .journalFlashRefresh 4] :
    List Instr).all (fun c => !c.wf) = true := by decide +kernel
/-- `step` refuses an ill-formed command and takes a well-formed one. -/
theorem test_step_refuses : step { State.reset with pending := [.flrVf 4096] } = .refused .illFormed ∧ (Instr.flrVf 4095).wf = true := ⟨rfl, by decide +kernel⟩

/-! ## The statements about every step -/

theorem meets_structural : canonical State.reset.dev = true ∧ canonical svc = true ∧ (ctxOf (pfRun svc 2 1 0 []) 1).code ≠ csFree ∧
    (ctxOf (pfRun svc 2 1 0 []) 1).origin = none ∧ canonical (pfRun svc 2 1 0 []) = true ∧
    (ctxOf (pfRun svc 2 1 0 []) 1).gen = genOf (pfRun svc 2 1 0 []) .pf ∧ svc.bay.seatHigh = false ∧ bmeOf svc .pf = true ∧
    genOf (pfRun { svc with glb := { svc.glb with pfGen := 2 } } 2 1 0 []) .pf = (ctxOf (pfRun { svc with glb := { svc.glb with pfGen := 2 } } 2 1 0 []) 1).gen ∧
    bmeOf { svc with host := { svc.host with pfBme := false } } .pf = false := by decide +kernel
theorem meets_checks : (ctxOf (pfRun svc 2 1 0 []) 1).code = csRunning ∧ eOpcode (ctxOf (pfRun svc 2 1 0 []) 1).entry = 2 ∧
    abandoned (pfRun svc 2 1 0 []) (ctxOf (pfRun svc 2 1 0 []) 1) = false ∧ (ctxOf (pfRun svc 2 1 0 []) 1).policyPassed = false ∧
    entryChecks cardIdentify (pfRun svc 1 0 0 (par 8 [])) (ctxOf (pfRun svc 1 0 0 (par 8 [])) 1) = some stBadLength ∧
    lcAccepts 0x0F 0x2001 false = false ∧ lcAccepts 0x96 0x2001 false = true ∧ issuerOk cardLogRead svc (ctxOf (vfRun svc 0x20 0 0 []) 1) = false ∧
    rdAccepts (readiness { svc with glb := { svc.glb with locked := true } }) 0x2001 = false := by decide +kernel
theorem meets_edges : exec .attentionPress (st (removing .idle false 0)) ≠ .refused .illFormed ∧ admitted svc 1 = true ∧ vfExists svc 1 = true := by
  refine ⟨fun h => ?_, by decide +kernel, by decide +kernel⟩
  cases h
theorem meets_protected : svc.act.st ≠ 0xF0 ∧ (decider svc 0x44000000).isSome = true ∧ ((decider svc 0x44000000).map fun x => x.2.prot) = some true := by decide +kernel
theorem meets_use_number : csRunning ≠ csFree ∧ (freeCtxNo svc, 1) ∉ svc.sch.owed ∧
    (freeCtxNo { svc with sch := { svc.sch with owed := [(0, 0)] } }, 1) ∉ [(0, 0)] := by decide +kernel
theorem meets_approval_close : (sessionOf svc 0).code = 0x0F ∧ 0 < svc.lcd.sessions.length := by decide +kernel

end Sys2Proof.Tests
end

section
/-! SUPPORT. The end of an approval session (14 R410, R425): what closing a session leaves of it, and what APPROVAL_CLOSE checks. -/

namespace Sys2Proof.Machine

open Sys2Proof.Safety

/-! ## Sessions closed -/

@[simp] theorem closeSession_sessions (d : Dev) (j : Nat) (consumed : Bool) :
    (closeSession d j consumed).lcd.sessions = modifyAt d.lcd.sessions j fun _ => {} := rfl

/-- Also where there is no session j: a session not listed reads as a free one. -/
theorem sessionOf_closeSession_same (d : Dev) (j : Nat) (consumed : Bool) : sessionOf (closeSession d j consumed) j = {} := by
  simp only [sessionOf, closeSession_sessions, modifyAt, List.getD_eq_getElem?_getD, List.getElem?_modify_eq]
  cases d.lcd.sessions[j]? <;> rfl

/-! ## Facts about cards -/

/-- A command that names no key meets no record, so no undefined STATE. -/
theorem meetInvalid_of_no_handles {card : Card} {c : Cmd} (d : Dev) (h : card.handles c = []) : meetInvalid card d c = d := by
  simp [meetInvalid, h]

theorem eParamLen_of_lens {plen dmin dmax cap : Nat} {e : Bytes} (h : lens plen dmin dmax cap e = true) : eParamLen e = plen := by
  simp only [lens, Bool.and_eq_true, decide_eq_true_eq] at h
  obtain ⟨⟨⟨hlen, -⟩, -⟩, -⟩ := h
  exact hlen

/-! ## APPROVAL_CLOSE -/

theorem exec_approvalClose (k : Nat) (i : Inputs) (s : State) :
    exec (.approvalClose k i) s = s.onDev (execCard cardApprovalClose k i) := rfl

theorem approvalClose_paramOk_iff (c : Cmd) : cardApprovalClose.paramOk c = true ↔ c.b1 0 ≤ 7 ∧ zeros c.p 1 7 = true := by
  simp [cardApprovalClose]

theorem approvalClose_check_of_free {c : Cmd} {d : Dev} (h : (sessionOf d (c.b1 0)).code = 0x0F) :
    cardApprovalClose.check c d = some stNotReady := by
  simp [cardApprovalClose, h, firstFail]

theorem approvalClose_eff (c : Cmd) (d : Dev) :
    cardApprovalClose.eff c d = (closeSession d (c.b1 0) false, .done (rep [] [])) := rfl

theorem approvalClose_closes {s : State} {k : Nat} {i : Inputs} {c : Cmd} {d : Dev} (h : reach cardApprovalClose s.dev k i = some (c, d)) :
    zeros c.p 1 7 = true ∧ ends (.approvalClose k i) s d (closeSession d (c.b1 0) false) k (rep [] []) i := by
  obtain ⟨-, hparam, -⟩ := reach_passed h
  obtain ⟨-, hzeros⟩ := (approvalClose_paramOk_iff c).mp hparam
  exact ⟨hzeros, ends_of_eff (exec_approvalClose k i s) h (approvalClose_eff c d)⟩

theorem approvalClose_refuses_free {s : State} {k : Nat} {i : Inputs} {c : Cmd} {d : Dev}
    (h : ready cardApprovalClose s.dev k i = some (c, d)) (hfree : (sessionOf d (c.b1 0)).code = 0x0F) :
    leaves (.approvalClose k i) s (refuse d k stNotReady) := by
  have hmeet : meetInvalid cardApprovalClose d c = d := meetInvalid_of_no_handles d rfl
  have hleaves := refuses_of_check (exec_approvalClose k i s) h (approvalClose_check_of_free hfree)
  rwa [hmeet] at hleaves

/-- Settles O15: the effect and the refusal come from the course of a host command (`ends_of_eff`, `refuses_of_check`); a closed session reads as
a free one. -/
theorem approvalClose : Obligations.ApprovalClose := by
  unfold Obligations.ApprovalClose
  refine ⟨fun s k i c d h => ⟨rfl, approvalClose_closes h⟩, fun s k i c d => approvalClose_refuses_free,
    fun e h => eParamLen_of_lens h, fun d j _ => ?_⟩
  rw [sessionOf_closeSession_same]

end Sys2Proof.Machine
end

section
/-! SUPPORT. The keeper clock and the chain of the log (15 R433, R451 to R453): what one tick makes of module time and its fraction, and the entry that
placing puts at the log's end. -/

namespace Sys2Proof.Machine

open Sys2Proof.Safety

/-! ## The keeper clock -/

theorem slewOf_bounds (adjust : Int) : -100 ≤ slewOf adjust ∧ slewOf adjust ≤ 100 := by
  unfold slewOf
  split
  · decide
  · split <;> decide

/-- The units of 1/32,768 µs that one tick adds to the fraction, beside its 30 µs (R433). -/
def tickUnits (k : Keeper) : Int := 16960 + k.trim + slewOf k.adjust

/-- With TRIM in its range a tick adds some units and fewer than a microsecond's, so it carries one microsecond at most. -/
theorem tickUnits_bounds {k : Keeper} (hlow : -200 ≤ k.trim) (hhigh : k.trim ≤ 200) : 0 < tickUnits k ∧ tickUnits k < 32768 := by
  obtain ⟨hslow, hfast⟩ := slewOf_bounds k.adjust
  unfold tickUnits
  omega

theorem tick_timeUs (k : Keeper) : (tick k).timeUs = k.timeUs + 30 + (if 32767 < (k.frac + tickUnits k).toNat then 1 else 0) := by
  simp [tick, tickUnits, add_assoc]

theorem tick_frac (k : Keeper) : (tick k).frac = (k.frac + tickUnits k).toNat % 32768 := by
  simp [tick, tickUnits, add_assoc]

theorem tick_frac_lt (k : Keeper) : (tick k).frac < 32768 := by
  rw [tick_frac]
  exact Nat.mod_lt _ (by decide)

/-- Module time with its fraction advances by exactly the tick: the carry is the quotient of what the fraction leaves as its remainder. -/
theorem tick_advances {k : Keeper} (hfrac : k.frac < 32768) (hunits : 0 < tickUnits k ∧ tickUnits k < 32768) :
    (32768 * (tick k).timeUs + (tick k).frac : Int) = 32768 * k.timeUs + k.frac + 32768 * 30 + tickUnits k := by
  obtain ⟨hpos, hlt⟩ := hunits
  rw [tick_timeUs, tick_frac]
  by_cases hcarry : 32767 < (k.frac + tickUnits k).toNat
  · rw [if_pos hcarry]
    omega
  · rw [if_neg hcarry]
    omega

/-! ## KEEPER_TICK -/

theorem leaves_keeperTick (s : State) : leaves .keeperTick s (keeperTickEff s.dev) := rfl

theorem keeperTickEff_keeper {d : Dev} (hpower : keeperPowered d = true) (hvalid : d.keeper.clockValid = true) :
    (keeperTickEff d).keeper = tick d.keeper := by
  simp [keeperTickEff, hpower, hvalid]

/-- Settles O13: the step leaves `keeperTickEff`, whose keeper is ticked once; TRIM's range bounds what the tick adds. -/
theorem keeperClockTick : Obligations.KeeperClockTick := by
  unfold Obligations.KeeperClockTick
  intro s hpower hvalid hfrac hlow hhigh
  refine ⟨keeperTickEff s.dev, leaves_keeperTick s, ?_⟩
  rw [keeperTickEff_keeper hpower hvalid]
  refine ⟨tick_frac_lt _, ?_⟩
  rw [tick_advances hfrac (tickUnits_bounds hlow hhigh)]
  simp only [tickUnits, slewOf, add_assoc]

/-! ## The log -/

/-- The entry that placing `e` puts in the log: with the next SEQ, chained after the entry before it (R451, R453). -/
def placedEntry (d : Dev) (e : LogEntry) : LogEntry :=
  { e with seq := d.sen.nextSeq, chain := chainOf d.sen.lastChain { e with seq := d.sen.nextSeq } }

@[simp] theorem place_sen_log (d : Dev) (e : LogEntry) : (place d e).sen.log = d.sen.log ++ [placedEntry d e] := rfl
@[simp] theorem place_sen_nextSeq (d : Dev) (e : LogEntry) : (place d e).sen.nextSeq = d.sen.nextSeq + 1 := rfl
@[simp] theorem place_sen_lastChain (d : Dev) (e : LogEntry) : (place d e).sen.lastChain = (placedEntry d e).chain := rfl

/-- The bytes that the chain covers end before CHAIN itself. -/
theorem logHead_of_chain (e : LogEntry) (chain : Bytes) : logHead { e with chain := chain } = logHead e := rfl

theorem placedEntry_chain (d : Dev) (e : LogEntry) :
    (placedEntry d e).chain = (sha256 (d.sen.lastChain ++ logHead (placedEntry d e))).take 16 := by
  rw [placedEntry, logHead_of_chain { e with seq := d.sen.nextSeq }, chainOf]

/-- Settles O51: the entry is `placedEntry`, whose chain covers its own head because the head leaves CHAIN out. -/
theorem logEntriesAreChained : Obligations.LogEntriesAreChained := by
  unfold Obligations.LogEntriesAreChained
  exact ⟨fun d e => ⟨placedEntry d e, place_sen_log d e, rfl, rfl, rfl, rfl, placedEntry_chain d e, place_sen_nextSeq d e, place_sen_lastChain d e⟩,
    rfl, rfl⟩

end Sys2Proof.Machine
end

section
/-! SUPPORT. The use numbers of task contexts (05 R128, 17 R492): the search for the next number finds one that no post bears, wherever a number is left
that no post bears. -/

namespace Sys2Proof.Machine

/-! ## The search -/

theorem nextUseNo_of_owed {owed : List (Nat × Nat)} {k u : Nat} (h : (k, u) ∈ owed) (f : Nat) :
    nextUseNo owed k (f + 1) u = nextUseNo owed k f ((u + 1) % 256) := by
  simp [nextUseNo, h]

theorem nextUseNo_of_not_owed {owed : List (Nat × Nat)} {k u : Nat} (h : (k, u) ∉ owed) (f : Nat) : nextUseNo owed k (f + 1) u = u := by
  simp [nextUseNo, h]

/-- The search reaches a number that no post bears if one lies within its fuel, `j` steps on from where it begins. -/
theorem nextUseNo_not_owed {owed : List (Nat × Nat)} {k : Nat} {f u j : Nat} (hu : u < 256) (hj : j < f)
    (hfree : (k, (u + j) % 256) ∉ owed) : (k, nextUseNo owed k f u) ∉ owed := by
  induction f generalizing u j with
  | zero => omega
  | succ f ih =>
    by_cases howed : (k, u) ∈ owed
    · rw [nextUseNo_of_owed howed]
      cases j with
      | zero =>
        rw [Nat.add_zero, Nat.mod_eq_of_lt hu] at hfree
        exact absurd howed hfree
      | succ j =>
        have hstep : ((u + 1) % 256 + j) % 256 = (u + (j + 1)) % 256 := by omega
        exact ih (Nat.mod_lt _ (by decide)) (Nat.lt_of_succ_lt_succ hj) (hstep ▸ hfree)
    · rwa [nextUseNo_of_not_owed howed]

/-- With fuel for all 256 numbers the search reaches every one, from wherever it begins. -/
theorem nextUseNo_not_owed_of_free {owed : List (Nat × Nat)} {k v : Nat} (hv : v < 256) (hfree : (k, v) ∉ owed) {u : Nat} (hu : u < 256) :
    (k, nextUseNo owed k 256 u) ∉ owed := by
  have hreach : (u + (v + 256 - u) % 256) % 256 = v := by omega
  exact nextUseNo_not_owed hu (Nat.mod_lt _ (by decide)) (hreach.symm ▸ hfree)

/-! ## The context taken -/

theorem ne_default_of_held {c : Ctx} (h : c.code ≠ csFree) : c ≠ {} := fun hc => h (congrArg Ctx.code hc)

/-- A held context differs from the table's default, so it reads back as it was set even from a table out of its canonical form. -/
theorem ctxOf_setCtx_of_held (d : Dev) (k : Nat) {c : Ctx} (h : c.code ≠ csFree) : ctxOf (setCtx d k c) k = c :=
  tabGet_put_self _ _ _ _ (ne_default_of_held h)

theorem takeCtx_fst (d : Dev) (c : Ctx) : (takeCtx d c).1 = freeCtxNo d := rfl

theorem takeCtx_useNo (d : Dev) {c : Ctx} (h : c.code ≠ csFree) :
    (ctxOf (takeCtx d c).2 (freeCtxNo d)).useNo = nextUseNo d.sch.owed (freeCtxNo d) 256 (((ctxOf d (freeCtxNo d)).useNo + 1) % 256) := by
  simp only [takeCtx]
  rw [ctxOf_setCtx_of_held]
  exact h

/-- Settles O12: the context taken keeps the number that the search ends at, and the search reaches the one that is free. -/
theorem useNumbersSkipped : Obligations.UseNumbersSkipped := by
  unfold Obligations.UseNumbersSkipped
  intro d c u hcode hu hfree e k htake
  obtain ⟨rfl, rfl⟩ := Prod.ext_iff.mp htake
  rw [takeCtx_fst, takeCtx_useNo d hcode]
  exact ⟨rfl, nextUseNo_not_owed_of_free hu hfree (Nat.mod_lt _ (by decide))⟩

end Sys2Proof.Machine
end

section
/-! SUPPORT. What every step keeps and answers (95, "What each step holds"): the canonical form of the stores, the queue, the next state. -/

namespace Sys2Proof.Machine

open Sys2Proof.Safety

/-! ## Canonical stores -/

theorem canonical_canon (d : Dev) : canonical (canon d) = true := by
  simp [canonical, canon, tabWf_canon]

/-- Beside the two tables that messages write, `settle` leaves every store as it was. -/
theorem canonical_settle (old : Dev) {d : Dev} (h : canonical d = true) : canonical (settle old d) = true := by
  have hmsix : MsixWf d := by
    simp only [canonical, Bool.and_eq_true] at h
    exact ⟨by tauto, by tauto⟩
  obtain ⟨hhost, htenants⟩ := msixWf_settle old d hmsix
  obtain ⟨al, sub, pm, ten, m, o, heq, -⟩ := settle_changes old d
  rw [heq] at hhost htenants ⊢
  simp only [canonical, Bool.and_eq_true, blockEdges] at h hhost htenants ⊢
  tauto

theorem canonical_after (old d : Dev) : canonical (Dev.after old d) = true := by
  obtain ⟨e, -, heq⟩ := after_changes old d
  rw [heq]
  exact canonical_settle old (canonical_canon e)

/-- An idle microsecond moves a counter of the keeper alone. -/
theorem canonical_idle (d : Dev) : canonical (idle d) = canonical d := by
  unfold idle
  split <;> rfl

/-! ## The step -/

theorem step_of_empty {s : State} (h : s.pending = []) : step s = .next { s with dev := idle s.dev } := by
  simp [step, h]

theorem step_of_front {s : State} {c : Instr} {rest : List Instr} (h : s.pending = c :: rest) :
    step s = if c.wf then exec c { s with pending := rest } else .refused .illFormed := by
  simp [step, h]

/-- Settles O4: a meaning answers a state after some device, and what follows every meaning ends in the canonical form. -/
theorem stepKeepsCanonical : Obligations.StepKeepsCanonical := by
  unfold Obligations.StepKeepsCanonical
  intro s t hcanon hstep
  cases hqueue : s.pending with
  | nil =>
    rw [step_of_empty hqueue] at hstep
    injection hstep with hstep
    subst hstep
    rw [canonical_idle]
    exact hcanon
  | cons c rest =>
    rw [step_of_front hqueue] at hstep
    split at hstep
    · obtain ⟨d, rfl⟩ := exec_after c _ t hstep
      exact canonical_after _ d
    · cases hstep

theorem idle_usSinceTick (d : Dev) :
    (idle d).keeper.usSinceTick = if d.bay.p12v then min 29 (d.keeper.usSinceTick + 1) else d.keeper.usSinceTick := by
  unfold idle
  split <;> rfl

theorem idle_frame (d : Dev) : { idle d with keeper.usSinceTick := d.keeper.usSinceTick } = d := by
  unfold idle
  split <;> rfl

/-- Settles O1: the cases of `step`, and every meaning answers a state that `State.after` makes of the given one. -/
theorem stepRunsFrontCommand : Obligations.StepRunsFrontCommand := by
  unfold Obligations.StepRunsFrontCommand
  refine ⟨fun s c rest hqueue hwf => ?_, fun c s t hexec => ?_, fun s hqueue => ?_, fun s c rest hqueue hwf => ?_⟩
  · rw [step_of_front hqueue, if_pos hwf]
  · obtain ⟨d, rfl⟩ := exec_after c s t hexec
    rfl
  · exact ⟨idle s.dev, step_of_empty hqueue, idle_usSinceTick s.dev, idle_frame s.dev⟩
  · simp [step_of_front hqueue, hwf]

/-! ## The answer of a command -/

theorem exec_jtagAccess (addr bytes : Nat) (kind : Access) (v : Nat) (start : Bool) (s : State) :
    exec (.jtagAccess addr bytes kind v start) s = execJtagAccess addr bytes kind v start s := rfl

theorem exec_serviceUartInput (b addr bytes : Nat) (kind : Access) (s : State) :
    exec (.serviceUartInput b addr bytes kind) s = execServiceUartInput b addr bytes kind s := rfl

/-- Every row but the two of the debug ports answers a next state always. -/
theorem exec_next_or_debugPort (c : Instr) (s : State) : (∃ t, exec c s = .next t) ∨
    (∃ addr bytes kind v start, c = .jtagAccess addr bytes kind v start) ∨ (∃ b addr bytes kind, c = .serviceUartInput b addr bytes kind) := by
  cases c
  case jtagAccess addr bytes kind v start => exact .inr (.inl ⟨addr, bytes, kind, v, start, rfl⟩)
  case serviceUartInput b addr bytes kind => exact .inr (.inr ⟨b, addr, bytes, kind, rfl⟩)
  all_goals exact .inl ⟨_, rfl⟩

/-- Settles O2: the rows of the debug ports stop on an address from 2^40 on where the port is open, and answer a next state otherwise. -/
theorem commandsAnswer : Obligations.CommandsAnswer := by
  unfold Obligations.CommandsAnswer
  refine ⟨fun c s => ?_, fun s addr bytes kind v hopen haddr => ?_, fun s b addr bytes kind hinput hfabric haddr => ?_⟩
  · rcases exec_next_or_debugPort c s with hnext | ⟨addr, bytes, kind, v, start, rfl⟩ | ⟨b, addr, bytes, kind, rfl⟩
    · exact .inl hnext
    · rw [exec_jtagAccess, execJtagAccess]
      split
      next hstop =>
        obtain ⟨hopen, rfl, haddr⟩ := hstop
        exact .inr ⟨.inl ⟨addr, bytes, kind, v, rfl, haddr, hopen⟩, rfl⟩
      next => exact .inl ⟨_, rfl⟩
    · rw [exec_serviceUartInput, execServiceUartInput]
      split
      next hstop =>
        obtain ⟨hinput, hfabric, haddr⟩ := hstop
        exact .inr ⟨.inr ⟨b, addr, bytes, kind, rfl, haddr, hinput, hfabric⟩, rfl⟩
      next => exact .inl ⟨_, rfl⟩
  · rw [exec_jtagAccess, execJtagAccess, if_pos ⟨hopen, rfl, haddr⟩]
  · rw [exec_serviceUartInput, execServiceUartInput, if_pos ⟨hinput, hfabric, haddr⟩]

/-! ## Reset -/

theorem canonical_reset : canonical State.reset.dev = true := by decide

/-- Settles O3: every register stands at its value in the definition of the state at reset. -/
theorem resetState : Obligations.ResetState :=
  ⟨canonical_reset, rfl, rfl, rfl, rfl, rfl, rfl, rfl, rfl, rfl, rfl, rfl, rfl, rfl, rfl, rfl, rfl, rfl, rfl, rfl, rfl, rfl, rfl, rfl, rfl⟩

end Sys2Proof.Machine
end

section
/-! SUPPORT. Bits of numbers (00 R11) and the edges of the state: the event bits that follow them in every command (03 R78, R81). -/

namespace Sys2Proof.Machine

open Sys2Proof.Safety

/-! ## Bits -/

theorem bit_eq_testBit (v i : Nat) : bit v i = v.testBit i := by
  rw [bit, Nat.testBit_eq_decide_div_mod_eq, Bool.beq_eq_decide_eq]

@[simp] theorem bit_or (v w i : Nat) : bit (v ||| w) i = (bit v i || bit w i) := by
  simp [bit_eq_testBit]

@[simp] theorem bit_two_pow (i : Nat) : bit (2 ^ i) i = true := by
  simp [bit_eq_testBit, Nat.testBit_two_pow_self]

@[simp] theorem bit_flag_same (b : Bool) (i : Nat) : bit (flag b i) i = b := by
  cases b <;> simp [flag, bit_eq_testBit, Nat.testBit_two_pow_self]

@[simp] theorem bit_setBit_same (v i : Nat) : bit (setBit v i) i = true := by
  simp [setBit]

/-! ## Edges of the blocks -/

/-- Two devices that differ only in what `settle` may change: event registers, the alert, entries submitted, tenants, vectors, held transfers, outputs. -/
def SettledOf (d e : Dev) : Prop :=
  ∃ al sub pm ten m o ge se ve re ee,
    e = { d with bay.smbAlert := al, sen.submitted := sub, host.pfMsix := pm, tenants := ten, act.dma := m, out := o,
                 glb.event := ge, sen.event := se, vmp.event := ve, ring.event := re, ent.event := ee }

theorem SettledOf.glbLow {d e : Dev} (h : SettledOf d e) : glbLow e = glbLow d := by
  obtain ⟨_, _, _, _, _, _, _, _, _, _, _, rfl⟩ := h
  rfl

theorem SettledOf.ringDual {d e : Dev} (h : SettledOf d e) : ringDual e = ringDual d := by
  obtain ⟨_, _, _, _, _, _, _, _, _, _, _, rfl⟩ := h
  rfl

theorem SettledOf.inService {d e : Dev} (h : SettledOf d e) : inService e = inService d := by
  obtain ⟨_, _, _, _, _, _, _, _, _, _, _, rfl⟩ := h
  rfl

theorem settledOf_settle (old d : Dev) : SettledOf d (settle old d) := by
  obtain ⟨al, sub, pm, ten, m, o, heq, -⟩ := settle_changes old d
  exact ⟨al, sub, pm, ten, m, o, _, _, _, _, _, heq⟩

/-- Where the fabric neither starts nor stops, an edge of the vault, of DUAL, of the pool and of the DRBG counts. -/
theorem startsIn_eq_false {a d : Dev} (ha : a.bay.fabric = true) (hd : d.bay.fabric = true) (hs : d.glb.starting = true → a.glb.starting = true) :
    startsIn a d = false := by
  simp only [startsIn, ha, hd, Bool.not_true, Bool.or_self, Bool.false_or, Bool.and_eq_false_iff, Bool.not_eq_false']
  cases h : d.glb.starting
  · exact .inl rfl
  · exact .inr (hs h)

/-- The bits that `blockEdges` sets in the GLB and SEN blocks. -/
theorem bit_blockEdges_glb (old d : Dev) :
    (d.bay.safeToRemove = true → old.bay.safeToRemove = false → bit (blockEdges old d).glb.event 1 = true) ∧
    (d.glb.thermalFallback = true → old.glb.thermalFallback = false → bit (blockEdges old d).glb.event 3 = true) ∧
    (d.bay.cellState ≠ old.bay.cellState → bit (blockEdges old d).glb.event 4 = true) ∧
    (glbLow d ≠ glbLow old → bit (blockEdges old d).glb.event 5 = true) ∧
    (d.glb.cfgReject = true → old.glb.cfgReject = false → bit (blockEdges old d).glb.event 7 = true) ∧
    (d.glb.locked = true → old.glb.locked = false → bit (blockEdges old d).sen.event 1 = true) := by
  refine ⟨fun hd ho => ?_, fun hd ho => ?_, fun h => ?_, fun h => ?_, fun hd ho => ?_, fun hd ho => ?_⟩
  · simp [blockEdges, hd, ho]
  · simp [blockEdges, hd, ho]
  · simp [blockEdges, bne_iff_ne.mpr h.symm]
  · simp [blockEdges, bne_iff_ne.mpr h.symm]
  · simp [blockEdges, hd, ho]
  · simp [blockEdges, hd, ho]

/-- The bits that it sets in the VMP, RING and ENT blocks, where the fabric neither starts nor stops. -/
theorem bit_blockEdges_running {old d : Dev} (hs : startsIn old d = false) :
    (d.vmp.st ≠ old.vmp.st → bit (blockEdges old d).vmp.event 6 = true) ∧
    (ringDual d ≠ ringDual old → bit (blockEdges old d).ring.event 3 = true) ∧
    (d.ent.poolFailed ≠ old.ent.poolFailed → bit (blockEdges old d).ent.event 1 = true) ∧
    (d.ent.drbgFailed ≠ old.ent.drbgFailed → bit (blockEdges old d).ent.event 2 = true) := by
  refine ⟨fun h => ?_, fun h => ?_, fun h => ?_, fun h => ?_⟩ <;> simp [blockEdges, hs, bne_iff_ne.mpr h.symm]

/-- Settles O5: the last operation of every command sets the bits of `blockEdges` and drives the alert, and what it may change else moves no edge. -/
theorem eventBitsFollowEdges : Obligations.EventBitsFollowEdges := by
  unfold Obligations.EventBitsFollowEdges
  rintro c s t hexec a b rfl rfl
  obtain ⟨d0, rfl⟩ := exec_after c s t hexec
  obtain ⟨d1, -, hafter⟩ := after_changes s.dev d0
  simp only [State.after, hafter]
  generalize canon d1 = d
  have hsettled := settledOf_settle s.dev d
  have hlow := hsettled.glbLow
  have hdual := hsettled.ringDual
  obtain ⟨al, sub, pm, ten, m, o, heq, halert⟩ := settle_changes s.dev d
  obtain ⟨hsafe, hthermal, hcell, hglb, hreject, hlocked⟩ := bit_blockEdges_glb s.dev d
  rw [hlow, hdual, heq]
  refine ⟨fun h => halert ?_, hsafe, hthermal, hcell, hglb, hreject, hlocked, fun ha hb hs =>
    bit_blockEdges_running (startsIn_eq_false (d := d) ha hb hs)⟩
  simpa [blockEdges, or_assoc] using h

/-! ## Tenants through `settle` -/

/-- Messages alone: of every tenant only its vectors differ, and only MSI-X messages went out. -/
structure MessagesOnly (d e : Dev) : Prop where
  wf : tabWf {} e.tenants = true
  tenant : ∀ n, ∃ m, tn e n = { tn d n with msix := m }
  out : ∃ l, e.out = d.out ++ l ∧ ∀ o ∈ l, ∃ fn v a x, o = .msix fn v a x

theorem MessagesOnly.of_eq {d e : Dev} (hwf : tabWf {} d.tenants = true) (ht : e.tenants = d.tenants) (ho : e.out = d.out) : MessagesOnly d e :=
  ⟨by rw [ht]; exact hwf, fun n => ⟨(tn d n).msix, by unfold tn; rw [ht]⟩, [], by simp [ho], by simp⟩

theorem MessagesOnly.trans {a b c : Dev} (h : MessagesOnly a b) (g : MessagesOnly b c) : MessagesOnly a c := by
  refine ⟨g.wf, fun n => ?_, ?_⟩
  · obtain ⟨m, hm⟩ := h.tenant n
    obtain ⟨m', hm'⟩ := g.tenant n
    exact ⟨m', by rw [hm', hm]⟩
  · obtain ⟨l, hl, hall⟩ := h.out
    obtain ⟨l', hl', hall'⟩ := g.out
    refine ⟨l ++ l', by rw [hl', hl, List.append_assoc], fun o ho => ?_⟩
    rcases List.mem_append.mp ho with ho | ho
    · exact hall o ho
    · exact hall' o ho

theorem messagesOnly_setVector {d : Dev} (hwf : tabWf {} d.tenants = true) (fn : Fn) (v : Nat) (x : Vector') : MessagesOnly d (setVector d fn v x) := by
  cases fn with
  | pf => exact .of_eq hwf rfl rfl
  | vf n =>
    refine ⟨wf_modTn hwf _ _, fun m => ?_, [], by simp [setVector, modTn, setTn], by simp⟩
    rw [setVector, tn_modTn hwf]
    split
    next h => exact ⟨_, by rw [h]⟩
    next => exact ⟨_, rfl⟩

/-- A DMA write goes out, waits, or is denied. -/
theorem dma_out (d : Dev) (cls : Nat) (kind : Access) (o : Out) : (dma d cls kind o).out = d.out ∨ (dma d cls kind o).out = d.out ++ [o] := by
  unfold dma
  split
  · exact .inl rfl
  · split
    · exact .inr rfl
    · exact .inl rfl

theorem messagesOnly_signalVector {d : Dev} (hwf : tabWf {} d.tenants = true) (fn : Fn) (v : Nat) : MessagesOnly d (signalVector d fn v) := by
  unfold signalVector
  dsimp only
  split
  · exact .of_eq hwf rfl rfl
  · split
    · exact messagesOnly_setVector hwf _ _ _
    · refine ⟨by rw [dma_tenants]; exact hwf, fun n => ⟨(tn d n).msix, by unfold tn; rw [dma_tenants]⟩, ?_⟩
      rcases dma_out d 5 .write (.msix fn v (vectorOf d fn v).addr (vectorOf d fn v).data) with h | h
      · exact ⟨[], by simp [h], by simp⟩
      · exact ⟨_, h, by simp⟩

theorem messagesOnly_eventMessage {d : Dev} (hwf : tabWf {} d.tenants = true) (fn : Fn) (v old new en : Nat) :
    MessagesOnly d (eventMessage fn v old new en d) := by
  unfold eventMessage
  split
  · exact .of_eq hwf rfl rfl
  · exact messagesOnly_signalVector hwf _ _

theorem MessagesOnly.step {a b : Dev} (h : MessagesOnly a b) (fn : Fn) (v old new en : Nat) : MessagesOnly a (eventMessage fn v old new en b) :=
  h.trans (messagesOnly_eventMessage h.wf _ _ _ _ _)

theorem MessagesOnly.foldl {β : Type} (f : Dev → β → Dev) (hf : ∀ d b, tabWf {} d.tenants = true → MessagesOnly d (f d b)) (l : List β) {a b : Dev}
    (h : MessagesOnly a b) : MessagesOnly a (l.foldl f b) := by
  induction l generalizing b with
  | nil => exact h
  | cons x t ih => exact ih (h.trans (hf b x h.wf))

theorem messagesOnly_messages (old : Dev) {d : Dev} (hwf : tabWf {} d.tenants = true) : MessagesOnly d (messages old d) := by
  unfold messages
  dsimp only
  refine .foldl _ (fun d n g => messagesOnly_eventMessage g _ _ _ _ _) _ ?_
  exact ((((((MessagesOnly.of_eq hwf rfl rfl).step _ _ _ _ _).step _ _ _ _ _).step _ _ _ _ _).step _ _ _ _ _).step _ _ _ _ _).step _ _ _ _ _

/-- After the edges of the VFs `settle` changes the vectors of tenants alone and sends messages alone. -/
theorem messagesOnly_settle (old : Dev) {d : Dev} (hwf : tabWf {} (allVfEdges old (blockEdges old d)).tenants = true) :
    MessagesOnly (allVfEdges old (blockEdges old d)) (settle old d) := by
  obtain ⟨al, halert, -⟩ := alertEdge_changes old (allVfEdges old (blockEdges old d))
  obtain ⟨sub, hentropy⟩ := entropyEdges_changes old (alertEdge old (allVfEdges old (blockEdges old d)))
  refine .trans (.of_eq hwf ?_ ?_) (messagesOnly_messages old ?_)
  all_goals rw [hentropy, halert]
  exact hwf

theorem tn_congr {d e : Dev} (h : e.tenants = d.tenants) (n : Nat) : tn e n = tn d n := by
  unfold tn
  rw [h]

/-- The edges of one VF leave the others, and depend on its own tenant alone. -/
theorem tn_vfEdges_ne (old d : Dev) {n m : Nat} (h : m ≠ n) : tn (vfEdges old d n) m = tn d m := by
  unfold vfEdges
  dsimp only
  split
  · exact tn_modTn_ne d _ h
  · rfl

/-- A tenant after the edges of its VF (03 R81; 04 R106): `m` for the module's, `a` for its own admission, `up` where that begins. -/
def edged (t : Tenant) (m a kept up : Bool) : Tenant :=
  { t with event := t.event ||| flag (m && kept) 2 ||| flag (a && kept) 3, credit := if up then 16 else t.credit, credited := t.credited || up }

theorem edged_of_no_edge (t : Tenant) (kept : Bool) : edged t false false kept false = t := by
  simp [edged, flag]

/-- Whether the module's own state, as a VF sees it, differs. -/
def moduleEdge (old d : Dev) : Bool := inService old != inService d || old.glb.locked != d.glb.locked || old.bay.ringJoin != d.bay.ringJoin

theorem tn_vfEdges_self (old : Dev) {d : Dev} (hwf : tabWf {} d.tenants = true) (n : Nat) :
    tn (vfEdges old d n) n = edged (tn d n) (moduleEdge old d) (admitted old n != admitted d n) ((tn old n).gen == (tn d n).gen)
      ((admitted old n != admitted d n) && admitted d n) := by
  unfold vfEdges
  dsimp only
  split
  · rw [tn_modTn hwf, if_pos rfl]
    rfl
  next h =>
    simp only [Bool.not_eq_true, Bool.or_eq_false_iff] at h
    obtain ⟨hm, ha⟩ := h
    rw [ha, show moduleEdge old d = false by simpa [moduleEdge, Bool.or_eq_false_iff] using hm, Bool.false_and, edged_of_no_edge]

theorem vfEdges_changes (old d : Dev) (n : Nat) : ∃ ten, vfEdges old d n = { d with tenants := ten } := by
  unfold vfEdges
  dsimp only
  split
  · exact ⟨_, rfl⟩
  · exact ⟨d.tenants, rfl⟩

theorem wf_vfEdges (old : Dev) {d : Dev} (hwf : tabWf {} d.tenants = true) (n : Nat) : tabWf {} (vfEdges old d n).tenants = true := by
  unfold vfEdges
  dsimp only
  split
  · exact wf_modTn hwf _ _
  · exact hwf

theorem wf_foldl_vfEdges (old : Dev) (l : List Nat) {d : Dev} (hwf : tabWf {} d.tenants = true) : tabWf {} (l.foldl (vfEdges old) d).tenants = true := by
  induction l generalizing d with
  | nil => exact hwf
  | cons n t ih => exact ih (wf_vfEdges old hwf n)

theorem tn_foldl_vfEdges_of_notMem (old : Dev) {l : List Nat} {n : Nat} (h : n ∉ l) (d : Dev) : tn (l.foldl (vfEdges old) d) n = tn d n := by
  induction l generalizing d with
  | nil => rfl
  | cons m t ih =>
    rw [List.mem_cons, not_or] at h
    rw [List.foldl_cons, ih h.2, tn_vfEdges_ne old d h.1]

/-- In one pass over the VFs each has its edges once, as if it were alone. -/
theorem tn_foldl_vfEdges (old : Dev) {l : List Nat} (hnodup : l.Nodup) {n : Nat} (hmem : n ∈ l) {d : Dev} (hwf : tabWf {} d.tenants = true) :
    tn (l.foldl (vfEdges old) d) n = tn (vfEdges old d n) n := by
  induction l generalizing d with
  | nil => cases hmem
  | cons m t ih =>
    obtain ⟨hm, ht⟩ := List.nodup_cons.mp hnodup
    rw [List.foldl_cons]
    rcases List.mem_cons.mp hmem with rfl | hmem
    · exact tn_foldl_vfEdges_of_notMem old hm _
    · have hne : n ≠ m := fun h => hm (h ▸ hmem)
      have hsame := tn_vfEdges_ne old d hne
      have hwf' := wf_vfEdges old hwf m
      obtain ⟨ten, hten⟩ := vfEdges_changes old d m
      rw [ih ht hmem hwf', tn_vfEdges_self old hwf', tn_vfEdges_self old hwf]
      simp only [admitted, hsame]
      rw [hten]
      rfl

theorem vfExists_iff (d : Dev) (n : Nat) : vfExists d n = true ↔ (d.host.linkUp && d.host.vfEnable) = true ∧ n < d.host.numVFs := by
  simp [vfExists]

theorem wf_allVfEdges (old : Dev) {d : Dev} (hwf : tabWf {} d.tenants = true) : tabWf {} (allVfEdges old d).tenants = true := by
  unfold allVfEdges
  split
  · exact wf_foldl_vfEdges old _ hwf
  · exact hwf

theorem tn_allVfEdges (old : Dev) {d : Dev} (hwf : tabWf {} d.tenants = true) (n : Nat) :
    tn (allVfEdges old d) n = if vfExists d n then tn (vfEdges old d n) n else tn d n := by
  unfold allVfEdges
  by_cases hon : (d.host.linkUp && d.host.vfEnable) = true
  · rw [if_pos hon]
    by_cases hn : n < d.host.numVFs
    · rw [if_pos ((vfExists_iff d n).mpr ⟨hon, hn⟩)]
      exact tn_foldl_vfEdges old List.nodup_range (List.mem_range.mpr hn) hwf
    · rw [if_neg fun h => hn ((vfExists_iff d n).mp h).2]
      exact tn_foldl_vfEdges_of_notMem old (fun h => hn (List.mem_range.mp h)) _
  · rw [if_neg hon, if_neg fun h => hon ((vfExists_iff d n).mp h).1]

/-- A VF that exists has the edges of its own after `settle`, and beside those only its vectors changed. -/
theorem tn_settle_of_exists (old : Dev) {d : Dev} (hwf : tabWf {} d.tenants = true) {n : Nat} (hn : vfExists d n = true) :
    ∃ m, tn (settle old d) n = { edged (tn d n) (moduleEdge old d) (admitted old n != admitted d n) ((tn old n).gen == (tn d n).gen)
      ((admitted old n != admitted d n) && admitted d n) with msix := m } := by
  have hwf' : tabWf {} (blockEdges old d).tenants = true := hwf
  obtain ⟨m, hm⟩ := (messagesOnly_settle old (wf_allVfEdges old hwf')).tenant n
  refine ⟨m, ?_⟩
  rw [hm, tn_allVfEdges old hwf', if_pos (by exact hn), tn_vfEdges_self old hwf']
  rfl

theorem SettledOf.vfExists {d e : Dev} (h : SettledOf d e) (n : Nat) : vfExists e n = vfExists d n := by
  obtain ⟨_, _, _, _, _, _, _, _, _, _, _, rfl⟩ := h
  rfl

theorem SettledOf.locked {d e : Dev} (h : SettledOf d e) : e.glb.locked = d.glb.locked := by
  obtain ⟨_, _, _, _, _, _, _, _, _, _, _, rfl⟩ := h
  rfl

theorem SettledOf.ringJoin {d e : Dev} (h : SettledOf d e) : e.bay.ringJoin = d.bay.ringJoin := by
  obtain ⟨_, _, _, _, _, _, _, _, _, _, _, rfl⟩ := h
  rfl

/-- Settles O6: of a VF that exists, its tenant after every command is `edged`, by the same comparison of the devices before and after. -/
theorem vfEventsFollowEdges : Obligations.VfEventsFollowEdges := by
  unfold Obligations.VfEventsFollowEdges
  rintro c s t hexec a b rfl rfl n hn
  obtain ⟨d0, rfl⟩ := exec_after c s t hexec
  obtain ⟨d1, -, hafter⟩ := after_changes s.dev d0
  simp only [State.after, hafter] at hn ⊢
  have hwf : tabWf {} (canon d1).tenants = true := tabWf_canon _ _
  generalize canon d1 = d at hn hwf ⊢
  have hsettled := settledOf_settle s.dev d
  rw [hsettled.vfExists] at hn
  obtain ⟨m, hm⟩ := tn_settle_of_exists s.dev hwf hn
  have hadmitted : admitted (settle s.dev d) n = admitted d n := by
    rw [admitted, hsettled.vfExists, hsettled.inService, hm]
    rfl
  rw [hadmitted, hm, hsettled.inService, hsettled.locked, hsettled.ringJoin]
  refine ⟨fun hgen hedge => ?_, fun hgen hedge => ?_, fun ha hb => ?_⟩
  · have hmodule : moduleEdge s.dev d = true := by simpa [moduleEdge, or_assoc] using hedge
    simp only [edged] at hgen ⊢
    simp [hgen, hmodule]
  · simp only [edged] at hgen ⊢
    simp [hgen, bne_iff_ne.mpr hedge]
  · simp [edged, ha, hb]

end Sys2Proof.Machine
end

section
/-! SUPPORT. What follows every command (O7): units given to the commands that wait for them, contexts woken, and the frame of `Dev.after`. -/

namespace Sys2Proof.Machine

open Sys2Proof.Safety

/-! ## Units given to requests -/

/-- The position found holds an element that the test accepts. -/
theorem findAt_some {α : Type} {p : α → Bool} {l : List α} {i j : Nat} {a : α} (h : findAt p l i = some (j, a)) : i ≤ j ∧ l[j - i]? = some a ∧ p a = true := by
  induction l generalizing i with
  | nil => cases h
  | cons x t ih =>
    rw [findAt] at h
    split at h
    next hx =>
      obtain ⟨rfl, rfl⟩ := Prod.ext_iff.mp (Option.some.inj h)
      simp [hx]
    next =>
      obtain ⟨hle, hget, hp⟩ := ih h
      refine ⟨by omega, ?_, hp⟩
      rw [show j - i = (j - (i + 1)) + 1 by omega, List.getElem?_cons_succ]
      exact hget

theorem findIdx_some {α : Type} {p : Nat → α → Bool} {l : List α} {j : Nat} (h : findIdx p l = some j) : ∃ a, l[j]? = some a ∧ p j a = true := by
  unfold findIdx at h
  obtain ⟨⟨j', x, n⟩, hfind, rfl⟩ := Option.map_eq_some_iff.mp h
  obtain ⟨-, hget, hp⟩ := findAt_some hfind
  rw [Nat.sub_zero] at hget
  obtain ⟨hx, hn⟩ : l[j']? = some x ∧ j' = n := by
    rw [List.getElem?_zipIdx] at hget
    simpa using hget
  exact ⟨x, hx, hn ▸ hp⟩

/-- The elements of a list that a test marks stand unchanged in another list of the same places. -/
def KeepsMarked {α : Type} (busy : α → Bool) (l m : List α) : Prop := ∀ (j : Nat) (x : α), l[j]? = some x → busy x = true → m[j]? = some x

theorem KeepsMarked.refl {α : Type} (busy : α → Bool) (l : List α) : KeepsMarked busy l l := fun _ _ h _ => h

theorem KeepsMarked.trans {α : Type} {busy : α → Bool} {a b c : List α} (h : KeepsMarked busy a b) (g : KeepsMarked busy b c) : KeepsMarked busy a c :=
  fun j x hx hb => g j x (h j x hx hb) hb

/-- A place whose element is not marked may be changed. -/
theorem keepsMarked_modifyAt {α : Type} {busy : α → Bool} {l : List α} {i : Nat} (f : α → α) (h : ∀ x, l[i]? = some x → busy x = false) :
    KeepsMarked busy l (modifyAt l i f) := by
  intro j x hx hb
  have hne : i ≠ j := by
    rintro rfl
    rw [h x hx] at hb
    cases hb
  rw [modifyAt, List.getElem?_modify_ne _ _ hne]
  exact hx

theorem keepsMarked_modifyAt_found {α : Type} {busy : α → Bool} {p : Nat → α → Bool} {l : List α} {i : Nat} (f : α → α) (hfound : findIdx p l = some i)
    (hp : ∀ x, p i x = true → busy x = false) : KeepsMarked busy l (modifyAt l i f) := by
  obtain ⟨a, ha, hpa⟩ := findIdx_some hfound
  exact keepsMarked_modifyAt f fun x hx => hp x (by rw [ha] at hx; cases hx; exact hpa)

/-- What is done between a command's own effect and `settle`: contexts that wait are made ready, idle units are given to commands; nothing else changes. -/
structure Wakes (d e : Dev) : Prop where
  only : WokenOnly d e
  lanes : KeepsMarked (fun l : Lane => l.busy.isSome) d.eng.lanes e.eng.lanes
  pins : KeepsMarked (fun u : EngUnit => u.busy.isSome) d.eng.pins e.eng.pins
  pks : KeepsMarked (fun u : EngUnit => u.busy.isSome) d.eng.pks e.eng.pks
  cvus : KeepsMarked (fun u : Cvu => u.busy) d.cvu.units e.cvu.units

theorem Wakes.of_units_eq {d e : Dev} (h : WokenOnly d e) (heng : e.eng = d.eng) (hcvu : e.cvu = d.cvu) : Wakes d e :=
  ⟨h, by rw [heng]; exact .refl _ _, by rw [heng]; exact .refl _ _, by rw [heng]; exact .refl _ _, by rw [hcvu]; exact .refl _ _⟩

theorem Wakes.trans {a b c : Dev} (h : Wakes a b) (g : Wakes b c) : Wakes a c :=
  ⟨h.only.trans g.only, h.lanes.trans g.lanes, h.pins.trans g.pins, h.pks.trans g.pks, h.cvus.trans g.cvus⟩

theorem pickLane_free {d : Dev} {avoid key : Option Nat} {j : Nat} (h : pickLane d avoid key = some j) :
    ∀ l, d.eng.lanes[j]? = some l → l.busy.isSome = false := by
  have hfound : ∃ p : Nat → Lane → Bool, findIdx p d.eng.lanes = some j ∧ ∀ l, p j l = true → laneFree l = true := by
    unfold pickLane at h
    dsimp only at h
    split at h
    · cases h
    · split at h
      next i hi =>
        cases h
        split at hi
        · exact ⟨_, hi, fun l hl => by simp only [Bool.and_eq_true] at hl; exact hl.1.1⟩
        · cases hi
      next => exact ⟨_, h, fun l hl => by simp only [Bool.and_eq_true] at hl; exact hl.1⟩
  obtain ⟨p, hfind, hp⟩ := hfound
  obtain ⟨a, ha, hpa⟩ := findIdx_some hfind
  intro l hl
  rw [ha] at hl
  cases hl
  have hfree := hp a hpa
  simp only [laneFree, Bool.and_eq_true, Option.isNone_iff_eq_none] at hfree
  simp [hfree.1.2]

/-- A unit that is taken was idle. -/
theorem wakes_takeUnit {d e : Dev} {k : Nat} {kind : UnitKind} {key locked : Option Nat} (h : takeUnit d k kind key locked = .got e) : Wakes d e := by
  have hchanges : ∃ l p q u, e = { d with eng.lanes := l, eng.pins := p, eng.pks := q, cvu.units := u } := takeUnit_changes h
  have honly : WokenOnly d e := by
    obtain ⟨l, p, q, u, rfl⟩ := hchanges
    exact ⟨_, _, _, _, _, _, rfl⟩
  unfold takeUnit at h
  dsimp only at h
  split at h
  · cases h
    exact .of_units_eq honly rfl rfl
  split at h
  · split at h
    · cases h
    next hbusy =>
      cases h
      refine ⟨honly, keepsMarked_modifyAt _ fun x hx => ?_, .refl _ _, .refl _ _, .refl _ _⟩
      rw [List.getD_eq_getElem?_getD, hx] at hbusy
      simpa using hbusy
  cases kind <;> dsimp only at h
  case none =>
    cases h
    exact .of_units_eq honly rfl rfl
  case lane =>
    split at h
    · cases h
    split at h
    next j hj =>
      cases h
      exact ⟨honly, keepsMarked_modifyAt _ (pickLane_free hj), .refl _ _, .refl _ _, .refl _ _⟩
    · cases h
  case pin =>
    split at h
    · cases h
    split at h
    next j hj =>
      cases h
      refine ⟨honly, .refl _ _, keepsMarked_modifyAt_found _ hj fun x hx => ?_, .refl _ _, .refl _ _⟩
      simp only [unitServes, Bool.and_eq_true, Option.isNone_iff_eq_none] at hx
      simp [hx.1.2]
    · cases h
  case pk =>
    split at h
    · cases h
    split at h
    next j hj =>
      cases h
      split at hj
      · refine ⟨honly, .refl _ _, .refl _ _, keepsMarked_modifyAt_found _ hj fun x hx => ?_, .refl _ _⟩
        simp only [unitServes, Bool.and_eq_true, Option.isNone_iff_eq_none] at hx
        simp [hx.1.2]
      · cases hj
    · cases h
  case cvu =>
    split at h
    · cases h
    split at h
    next j hj =>
      cases h
      refine ⟨honly, .refl _ _, .refl _ _, .refl _ _, keepsMarked_modifyAt_found _ hj fun x hx => ?_⟩
      simp only [Bool.and_eq_true, Bool.not_eq_true'] at hx
      exact hx.1.2
    · cases h

theorem wakes_pushReady (d : Dev) (k : Nat) : Wakes d (pushReady d k) := .of_units_eq (wokenOnly_pushReady d k) rfl rfl

theorem wakes_serveUnit (d : Dev) (k : Nat) : Wakes d (serveUnit d k) := by
  unfold serveUnit
  split
  · exact .of_units_eq (.refl d) rfl rfl
  · split
    next hgot => exact (wakes_takeUnit hgot).trans (wakes_pushReady _ k)
    · exact wakes_pushReady _ _
    · exact .of_units_eq (.refl d) rfl rfl

theorem wakes_wakeWhere (d : Dev) (p : Ctx → Bool) : Wakes d (wakeWhere d p) := by
  obtain ⟨c, r, h⟩ := wakeWhere_changes d p
  exact .of_units_eq ⟨c, r, _, _, _, _, h⟩ (by rw [h]) (by rw [h])

theorem Wakes.foldl {β : Type} (f : Dev → β → Dev) (hf : ∀ d b, Wakes d (f d b)) (l : List β) (d : Dev) : Wakes d (l.foldl f d) := by
  induction l generalizing d with
  | nil => exact .of_units_eq (.refl d) rfl rfl
  | cons b t ih => exact (hf d b).trans (ih _)

/-! ## Contexts that do not wait -/

theorem ctxOf_modCtx_ne (d : Dev) {k j : Nat} (f : Ctx → Ctx) (h : j ≠ k) : ctxOf (modCtx d k f) j = ctxOf d j := tabGet_put_ne _ _ _ _ _ h

theorem ctxOf_pushReady_ne (d : Dev) {k j : Nat} (h : j ≠ k) : ctxOf (pushReady d k) j = ctxOf d j :=
  ctxOf_modCtx_ne d (fun c => { c with code := csReady, wait := .nothing, want := none }) h

/-- Every context that did not wait in `d` is in `e` as it was. -/
def KeepsAwake (d e : Dev) : Prop := ∀ k, (ctxOf d k).code ≠ csWaiting → ctxOf e k = ctxOf d k

theorem KeepsAwake.refl (d : Dev) : KeepsAwake d d := fun _ _ => rfl

theorem KeepsAwake.trans {a b c : Dev} (h : KeepsAwake a b) (g : KeepsAwake b c) : KeepsAwake a c :=
  fun k hk => (g k (by rw [h k hk]; exact hk)).trans (h k hk)

theorem keepsAwake_wake (d : Dev) (k : Nat) : KeepsAwake d (wake d k) := by
  unfold wake
  split
  next hwaits => exact fun j hj => ctxOf_pushReady_ne d fun h => hj (h ▸ hwaits)
  next => exact .refl d

theorem keepsAwake_wakeWhere (d : Dev) (p : Ctx → Bool) : KeepsAwake d (wakeWhere d p) := by
  unfold wakeWhere
  generalize ctxsWhere d _ = l
  induction l generalizing d with
  | nil => exact .refl d
  | cons k t ih => exact (keepsAwake_wake d k).trans (ih _)

theorem ctxOf_takeUnit {d e : Dev} {k : Nat} {kind : UnitKind} {key locked : Option Nat} (h : takeUnit d k kind key locked = .got e) (j : Nat) :
    ctxOf e j = ctxOf d j := by
  obtain ⟨l, p, q, u, rfl⟩ := takeUnit_changes h
  rfl

theorem ctxOf_serveUnit_ne (d : Dev) {k j : Nat} (h : j ≠ k) : ctxOf (serveUnit d k) j = ctxOf d j := by
  unfold serveUnit
  split
  · rfl
  · split
    next hgot => rw [ctxOf_pushReady_ne _ h, ctxOf_takeUnit hgot]
    · exact ctxOf_pushReady_ne d h
    · rfl

theorem ctxOf_foldl_serveUnit {l : List Nat} {j : Nat} (h : j ∉ l) (d : Dev) : ctxOf (l.foldl serveUnit d) j = ctxOf d j := by
  induction l generalizing d with
  | nil => rfl
  | cons k t ih =>
    rw [List.mem_cons, not_or] at h
    rw [List.foldl_cons, ih h.2, ctxOf_serveUnit_ne d h.1]

theorem mem_queueIn {d : Dev} {l : List Nat} {k j : Nat} (h : j ∈ queueIn d l k) : j = k ∨ j ∈ l := by
  induction l with
  | nil => exact .inl (List.mem_singleton.mp h)
  | cons a t ih =>
    rw [queueIn] at h
    split at h
    · exact List.mem_cons.mp h
    · rcases List.mem_cons.mp h with rfl | h
      · exact .inr (List.mem_cons_self ..)
      · exact (ih h).imp_right (List.mem_cons_of_mem a)

theorem mem_foldl_queueIn {d : Dev} (l acc : List Nat) {j : Nat} (h : j ∈ l.foldl (queueIn d) acc) : j ∈ l ∨ j ∈ acc := by
  induction l generalizing acc with
  | nil => exact .inr h
  | cons k t ih =>
    rcases ih _ h with h | h
    · exact .inl (List.mem_cons_of_mem k h)
    · rcases mem_queueIn h with rfl | h
      · exact .inl (List.mem_cons_self ..)
      · exact .inr h

/-- What a canonical table lists under a key is what a read of that key gives. -/
theorem tabGet_of_mem {α : Type} [DecidableEq α] {d : α} {t : Tab α} (hwf : tabWf d t = true) {k : Nat} {v : α} (h : (k, v) ∈ t) : tabGet d t k = v := by
  induction t with
  | nil => cases h
  | cons p t ih =>
    obtain ⟨k', v'⟩ := p
    rw [tabWf_cons] at hwf
    simp only [Bool.and_eq_true, List.all_eq_true, decide_eq_true_eq] at hwf
    obtain ⟨⟨-, hlt⟩, ht⟩ := hwf
    rw [tabGet]
    rcases List.mem_cons.mp h with h | h
    · cases h
      exact if_pos rfl
    · have := hlt _ h
      rw [if_neg (by simp only at this; omega), ih ht h]

theorem code_of_mem_ctxsWhere {d : Dev} (hwf : tabWf {} d.sch.ctxs = true) {p : Ctx → Bool} {k : Nat} (h : k ∈ ctxsWhere d p) : p (ctxOf d k) = true := by
  obtain ⟨⟨k', c⟩, hmem, rfl⟩ := List.mem_map.mp h
  obtain ⟨hlist, hp⟩ := List.mem_filter.mp hmem
  rw [ctxOf, tabGet_of_mem hwf hlist]
  exact hp

theorem keepsAwake_serveUnits {d : Dev} (hwf : tabWf {} d.sch.ctxs = true) : KeepsAwake d (serveUnits d) := by
  intro j hj
  refine ctxOf_foldl_serveUnit (fun hmem => hj ?_) d
  rcases mem_foldl_queueIn _ _ hmem with h | h
  · have := code_of_mem_ctxsWhere hwf h
    simp only [Bool.and_eq_true, beq_iff_eq] at this
    exact this.1
  · cases h

theorem wakes_wakeEntropy (old d : Dev) : Wakes d (wakeEntropy old d) := by
  unfold wakeEntropy
  split
  · exact wakes_wakeWhere _ _
  · exact .of_units_eq (.refl d) rfl rfl

theorem keepsAwake_wakeEntropy (old d : Dev) : KeepsAwake d (wakeEntropy old d) := by
  unfold wakeEntropy
  split
  · exact keepsAwake_wakeWhere _ _
  · exact .refl d

/-! ## The frame -/

/-- The device as the wakes leave it, before the canonical form and `settle`. -/
theorem after_wakes (old : Dev) {d : Dev} (hwf : tabWf {} d.sch.ctxs = true) : ∃ e, Wakes d e ∧ KeepsAwake d e ∧ Dev.after old d = settle old (canon e) :=
  ⟨_, (Wakes.foldl _ wakes_serveUnit _ d).trans ((wakes_wakeEntropy old _).trans ((wakes_wakeWhere _ _).trans
      (.of_units_eq (wokenOnly_orderWoken old _) rfl rfl))),
    (keepsAwake_serveUnits hwf).trans ((keepsAwake_wakeEntropy old _).trans (keepsAwake_wakeWhere _ _)), rfl⟩

/-- Of a device that differs from a canonical one in contexts, ready lists and units alone, only the contexts can lack the canonical form. -/
theorem canon_of_wokenOnly {d e : Dev} (hcanon : canonical d = true) (h : WokenOnly d e) : ∃ c r l p q u,
    canon e = { d with sch.ctxs := c, sch.ready := r, eng.lanes := l, eng.pins := p, eng.pks := q, cvu.units := u } := by
  obtain ⟨c, r, l, p, q, u, rfl⟩ := h
  refine ⟨tabCanon {} c, r, l, p, q, u, ?_⟩
  simp only [canonical, Bool.and_eq_true] at hcanon
  obtain ⟨⟨⟨⟨⟨⟨⟨⟨⟨⟨⟨⟨⟨⟨⟨h1, h2⟩, -⟩, h4⟩, h5⟩, h6⟩, h7⟩, h8⟩, h9⟩, h10⟩, h11⟩, h12⟩, h13⟩, h14⟩, h15⟩, h16⟩ := hcanon
  simp only [canon, tabCanon_of_wf _ _ h1, tabCanon_of_wf _ _ h2, tabCanon_of_wf _ _ h4, tabCanon_of_wf _ _ h5, tabCanon_of_wf _ _ h6,
    tabCanon_of_wf _ _ h7, tabCanon_of_wf _ _ h8, tabCanon_of_wf _ _ h9, tabCanon_of_wf _ _ h10, tabCanon_of_wf _ _ h11, tabCanon_of_wf _ _ h12,
    tabCanon_of_wf _ _ h13, tabCanon_of_wf _ _ h14, tabCanon_of_wf _ _ h15, tabCanon_of_wf _ _ h16]

/-- `settle` changes of a tenant its events, its credit and its vectors alone. -/
theorem tn_settle (old : Dev) {d : Dev} (hwf : tabWf {} d.tenants = true) (n : Nat) :
    ∃ ev cr cd m, tn (settle old d) n = { tn d n with event := ev, credit := cr, credited := cd, msix := m } := by
  have hwf' : tabWf {} (blockEdges old d).tenants = true := hwf
  obtain ⟨m, hm⟩ := (messagesOnly_settle old (wf_allVfEdges old hwf')).tenant n
  rw [hm, tn_allVfEdges old hwf', tn_vfEdges_self old hwf']
  split
  · exact ⟨_, _, _, m, rfl⟩
  · exact ⟨_, _, _, m, rfl⟩

theorem allVfEdges_out (old d : Dev) : (allVfEdges old d).out = d.out := by
  obtain ⟨ten, h⟩ := allVfEdges_changes old d
  rw [h]

theorem settle_out (old : Dev) {d : Dev} (hwf : tabWf {} d.tenants = true) : ∃ l, (settle old d).out = d.out ++ l ∧ ∀ o ∈ l, ∃ fn v a x, o = .msix fn v a x := by
  obtain ⟨l, hl, hall⟩ := (messagesOnly_settle old (wf_allVfEdges old (d := blockEdges old d) hwf)).out
  exact ⟨l, by rw [hl, allVfEdges_out]; rfl, hall⟩

theorem ctxOf_settle_canon (old e : Dev) (k : Nat) : ctxOf (settle old (canon e)) k = ctxOf e k := by
  obtain ⟨al, sub, pm, ten, m, o, heq, -⟩ := settle_changes old (canon e)
  rw [heq]
  exact tabGet_canon _ _ _

/-- Settles O7: the wakes change contexts, ready lists and units (`Wakes`, `KeepsAwake`), the canonical form nothing of a canonical device, and `settle`
the rest that is named (`settle_changes`, `tn_settle`, `settle_out`). -/
theorem afterFrame : Obligations.AfterFrame := by
  unfold Obligations.AfterFrame
  rintro old d hcanon _ rfl
  have htenants : tabWf {} d.tenants = true ∧ tabWf {} d.sch.ctxs = true := by
    simp only [canonical, Bool.and_eq_true] at hcanon
    tauto
  obtain ⟨f, hwakes, hawake, hafter⟩ := after_wakes old htenants.2
  have hctx := ctxOf_settle_canon old f
  obtain ⟨c, r, l, p, q, u, heq⟩ := canon_of_wokenOnly hcanon hwakes.only
  have hlanes : (canon f).eng.lanes = f.eng.lanes := rfl
  have hpins : (canon f).eng.pins = f.eng.pins := rfl
  have hpks : (canon f).eng.pks = f.eng.pks := rfl
  have hcvus : (canon f).cvu.units = f.cvu.units := rfl
  have hwf : tabWf {} (canon f).tenants = true := tabWf_canon _ _
  have htn := tn_settle old hwf
  have hout := settle_out old hwf
  obtain ⟨al, sub, pm, ten, m, o, hsettle, -⟩ := settle_changes old (canon f)
  rw [heq] at htn hout hlanes hpins hpks hcvus hsettle hctx
  rw [hafter, heq]
  rw [hsettle] at htn hout hctx ⊢
  refine ⟨rfl, rfl, rfl, rfl, rfl, rfl, rfl, rfl, rfl, fun j x hx hb => ?_, fun j x hx hb => ?_, fun j x hx hb => ?_, fun j x hx hb => ?_,
    rfl, rfl, rfl, rfl, rfl, rfl, rfl, rfl, fun n => ?_, fun k hk => ?_, hout⟩
  · exact (congrArg (·[j]?) hlanes).trans (hwakes.lanes j x hx hb)
  · exact (congrArg (·[j]?) hpins).trans (hwakes.pins j x hx hb)
  · exact (congrArg (·[j]?) hpks).trans (hwakes.pks j x hx hb)
  · exact (congrArg (·[j]?) hcvus).trans (hwakes.cvus j x hx hb)
  · obtain ⟨ev, cr, cd, ms, h⟩ := htn n
    rw [h]
    rfl
  · rw [hctx, hawake k hk]

end Sys2Proof.Machine
end

section
/-! SUPPORT. The course of every host command and its end (O9, O16): the row of a command runs its card, and what a finished command writes. -/

namespace Sys2Proof.Machine

open Sys2Proof.Safety

/-! ## Rows and cards -/

/-- The row of every host command runs its card on the device. -/
theorem exec_of_hostRow {k : Nat} {i : Inputs} {row : Instr} {card : Card} (h : (row, card) ∈ hostRows k i) (s : State) :
    exec row s = s.onDev (execCard card k i) := by
  suffices hall : ∀ p ∈ hostRows k i, exec p.1 s = s.onDev (execCard p.2 k i) from hall _ h
  simp only [hostRows, List.forall_mem_cons, List.not_mem_nil, false_implies, implies_true, and_true]
  repeat' apply And.intro
  all_goals rfl

/-- A row whose context does not run its command changes nothing (log entry 20). -/
theorem execCard_of_not_running {card : Card} {k : Nat} {i : Inputs} {d : Dev} (h : (ctxOf d k).code ≠ csRunning ∨ eOpcode (ctxOf d k).entry ≠ card.opcode) :
    execCard card k i d = d := by
  unfold execCard
  rw [if_neg (by tauto)]

/-- Settles O16: the row runs its card (`exec_of_hostRow`), whose course is `execCard_of_reach`, `execCard_of_ready` or nothing. -/
theorem hostCommandsRun : Obligations.HostCommandsRun := by
  unfold Obligations.HostCommandsRun
  intro k i row card hmem
  refine ⟨fun s c d h => ?_, fun s c d st h hcheck => refuses_of_check (exec_of_hostRow hmem s) h hcheck, fun s h => ?_⟩
  · obtain ⟨hk, hi, hrun⟩ := execCard_of_reach h
    exact ⟨by rw [exec_of_hostRow hmem, State.onDev, hrun], hk, hi⟩
  · rw [exec_of_hostRow hmem, State.onDev, execCard_of_not_running h]

/-! ## Writes to host memory -/

/-- The queue manager may write host memory at once: the table is not CLOSED and permits it (13 R383, R390). -/
def writesGoOut (d : Dev) : Prop := d.act.st ≠ 0x33 ∧ (decideAccess d 5 hostWindow .write).1 = true

theorem dma_of_writesGoOut {d : Dev} (h : writesGoOut d) (o : Out) : dma d 5 .write o = emit d o := by
  obtain ⟨hst, hdecide⟩ := h
  rw [dma, if_neg hst, if_pos hdecide]

/-- A device from which outputs have gone out beside those already issued. -/
def issued (d : Dev) (l : List Out) : Dev := { d with out := d.out ++ l }

theorem issued_nil (d : Dev) : issued d [] = d := by simp [issued]
theorem issued_issued (d : Dev) (l m : List Out) : issued (issued d l) m = issued d (l ++ m) := by simp [issued]
theorem writesGoOut_issued {d : Dev} (h : writesGoOut d) (l : List Out) : writesGoOut (issued d l) := h
theorem fnCfg_issued (d : Dev) (l : List Out) (fn : Fn) : fnCfg (issued d l) fn = fnCfg d fn := by cases fn <;> rfl

/-- The writes of a command's output data, in order; of a streamed decryption without Relaxed Ordering. -/
def outWrites (d : Dev) (c : Ctx) (outs : List (Nat × Bytes)) : List Out :=
  outs.map fun o => .hostWrite c.fn o.1 o.2 (!streams c outs && (fnCfg d c.fn).relaxed)

theorem writeOuts_of_writesGoOut {d : Dev} (h : writesGoOut d) (c : Ctx) (outs : List (Nat × Bytes)) :
    writeOuts d c outs = issued d (outWrites d c outs) := by
  unfold writeOuts outWrites
  generalize streams c outs = ordered
  induction outs generalizing d with
  | nil => rw [List.map_nil, issued_nil]; rfl
  | cons o t ih =>
    have hwrite : (if ordered then orderedWrite d c.fn o.1 o.2 else dataWrite d c.fn o.1 o.2) =
        issued d [.hostWrite c.fn o.1 o.2 (!ordered && (fnCfg d c.fn).relaxed)] := by
      cases ordered
      · exact dma_of_writesGoOut h _
      · exact dma_of_writesGoOut h _
    rw [List.foldl_cons, hwrite, ih (writesGoOut_issued h _), fnCfg_issued, issued_issued]
    rfl

/-- The write of a command's reply data, where it has any. -/
def replyWrites (d : Dev) (c : Ctx) (data : Bytes) : List Out :=
  if data.isEmpty then [] else [.hostWrite c.fn (eReplyAddr c.entry) data (fnCfg d c.fn).relaxed]

theorem dataWrite_of_writesGoOut {d : Dev} (h : writesGoOut d) (c : Ctx) (data : Bytes) :
    (if data.isEmpty then d else dataWrite d c.fn (eReplyAddr c.entry) data) = issued d (replyWrites d c data) := by
  unfold replyWrites
  split
  · exact (issued_nil d).symm
  · exact dma_of_writesGoOut h _

theorem replyWrites_issued (d : Dev) (l : List Out) (c : Ctx) (data : Bytes) : replyWrites (issued d l) c data = replyWrites d c data := by
  rw [replyWrites, fnCfg_issued, replyWrites]

/-! ## A context freed -/

theorem leaveClaim_out (d : Dev) (k : Nat) : (leaveClaim d k).out = d.out := by unfold leaveClaim; split <;> rfl
theorem leaveFormat_out (d : Dev) (k : Nat) : (leaveFormat d k).out = d.out := by unfold leaveFormat; split <;> rfl
theorem leaveClaim_sch (d : Dev) (k : Nat) : (leaveClaim d k).sch = d.sch := by unfold leaveClaim; split <;> rfl
theorem leaveFormat_sch (d : Dev) (k : Nat) : (leaveFormat d k).sch = d.sch := by unfold leaveFormat; split <;> rfl
theorem leaveClaim_host (d : Dev) (k : Nat) : (leaveClaim d k).host = d.host := by unfold leaveClaim; split <;> rfl
theorem leaveFormat_host (d : Dev) (k : Nat) : (leaveFormat d k).host = d.host := by unfold leaveFormat; split <;> rfl

theorem freeCtx_out (d : Dev) (k : Nat) : (freeCtx d k).out = d.out := (leaveFormat_out _ _).trans (leaveClaim_out _ _)
theorem freeCtx_host (d : Dev) (k : Nat) : (freeCtx d k).host = d.host := (leaveFormat_host _ _).trans (leaveClaim_host _ _)

/-- The device as the last write to the table of contexts finds it when context k is freed. -/
theorem freeCtx_ctxs (d : Dev) (k : Nat) : (freeCtx d k).sch.ctxs = tabPut {} d.sch.ctxs k { useNo := (ctxOf d k).useNo } := by
  show tabPut {} (leaveFormat (leaveClaim _ k) k).sch.ctxs k _ = _
  rw [leaveFormat_sch, leaveClaim_sch]
  rfl

theorem ctxOf_freeCtx {d : Dev} (hwf : tabWf {} d.sch.ctxs = true) (k j : Nat) :
    ctxOf (freeCtx d k) j = if j = k then { useNo := (ctxOf d k).useNo } else ctxOf d j := by
  unfold ctxOf
  rw [freeCtx_ctxs]
  exact tabGet_put _ _ _ _ _ hwf

theorem code_freeCtx {d : Dev} (hwf : tabWf {} d.sch.ctxs = true) (k : Nat) : (ctxOf (freeCtx d k) k).code = csFree := by
  rw [ctxOf_freeCtx hwf, if_pos rfl]
  rfl

/-! ## Completion -/

theorem signalVector_out (d : Dev) (fn : Fn) (v : Nat) : ∃ l, (signalVector d fn v).out = d.out ++ l ∧ l.length ≤ 1 := by
  unfold signalVector
  dsimp only
  split
  · exact ⟨[], by simp, by simp⟩
  · split
    · exact ⟨[], by simp, by simp⟩
    · rcases dma_out d 5 .write (.msix fn v (vectorOf d fn v).addr (vectorOf d fn v).data) with h | h
      · exact ⟨[], by simp [h], by simp⟩
      · exact ⟨_, h, by simp⟩

/-- The interrupt of a completion is one message at most, and no context is touched. -/
theorem coalesce_out (d : Dev) (fn : Fn) (q : Nat) (entry : Bytes) :
    (∃ l, (coalesce d fn q entry).out = d.out ++ l ∧ l.length ≤ 1) ∧ (coalesce d fn q entry).sch = d.sch := by
  unfold coalesce
  dsimp only
  split
  · exact ⟨⟨[], by simp, by simp⟩, rfl⟩
  · cases fn with
    | pf => exact ⟨signalVector_out _ _ _, by simp⟩
    | vf n =>
      dsimp only
      split
      · refine ⟨?_, by simp⟩
        rw [← setQp_out d (.vf n) q]
        exact signalVector_out _ _ _
      · exact ⟨⟨[], by simp, by simp⟩, by simp⟩

theorem wakeWhere_out (d : Dev) (p : Ctx → Bool) : (wakeWhere d p).out = d.out := by
  obtain ⟨c, r, h⟩ := wakeWhere_changes d p
  rw [h]

/-- A fenced command woken is the last that a completion does: nothing goes out, and no context that does not wait is touched. -/
theorem fenceAfter_keeps (d : Dev) (fn : Fn) (q : Nat) : (fenceAfter d fn q).out = d.out ∧ KeepsAwake d (fenceAfter d fn q) := by
  unfold fenceAfter
  dsimp only
  split
  · exact ⟨by simp, fun k _ => by rw [ctxOf, setQp_sch]; rfl⟩
  · split
    · exact ⟨wakeWhere_out _ _, keepsAwake_wakeWhere _ _⟩
    · exact ⟨rfl, .refl d⟩

theorem fnCfg_congr {d e : Dev} (hh : e.host = d.host) (ht : e.tenants = d.tenants) (fn : Fn) : fnCfg e fn = fnCfg d fn := by
  cases fn with
  | pf => simp only [fnCfg, hh]
  | vf n => simp only [fnCfg, tn_congr ht]

/-- The write of a completion entry into the CQ slot of a queue pair (04 R102). -/
def completionWrite (c : Ctx) (p : Qp) (r : Reply) (len : Nat) (fwd : Bool) : Out :=
  .hostWrite c.fn (p.cqBase + 32 * p.cqTail) (completionBytes c.entry r len c.gen p.sqHead p.phase fwd) false

theorem qpOf_issued (d : Dev) (l : List Out) (fn : Fn) (q : Nat) : qpOf (issued d l) fn q = qpOf d fn q := by cases fn <;> rfl

theorem postEntry_of_writesGoOut {d : Dev} (h : writesGoOut d) (c : Ctx) (r : Reply) (len : Nat) (fwd : Bool) :
    ∃ p, postEntry d c.fn c.qp c.entry r len c.gen fwd = setQp (issued d [completionWrite c (qpOf d c.fn c.qp) r len fwd]) c.fn c.qp p := by
  unfold postEntry orderedWrite
  dsimp only
  rw [dma_of_writesGoOut h]
  exact ⟨_, rfl⟩

/-- What `deliver` writes where its writes go out at once: output data, reply data and the completion entry, then at most one interrupt; the context is
free. -/
theorem deliver_writes {d : Dev} (hgo : writesGoOut d) (hwf : tabWf {} d.sch.ctxs = true) {k : Nat} {c : Ctx} (hc : c = ctxOf d k) (r : Reply) (fwd : Bool)
    {data : Bytes} (hdata : data = replyOf c.entry r) :
    (∃ l, (deliver d k r true fwd).out = d.out ++ outWrites d c r.outs ++ replyWrites d c data ++
        [completionWrite c (qpOf d c.fn c.qp) r data.length fwd] ++ l ∧ l.length ≤ 1) ∧
      (ctxOf (deliver d k r true fwd) k).code = csFree := by
  subst hc hdata
  unfold deliver
  dsimp only
  simp only [Bool.or_true, if_true]
  rw [writeOuts_of_writesGoOut hgo, dataWrite_of_writesGoOut (writesGoOut_issued hgo _), issued_issued, replyWrites_issued]
  obtain ⟨p, hpost⟩ := postEntry_of_writesGoOut (writesGoOut_issued hgo (outWrites d (ctxOf d k) r.outs ++
    replyWrites d (ctxOf d k) (replyOf (ctxOf d k).entry r))) (ctxOf d k) r (replyOf (ctxOf d k).entry r).length fwd
  rw [hpost, issued_issued, qpOf_issued]
  generalize hx : setQp _ (ctxOf d k).fn (ctxOf d k).qp p = x
  have hxsch : x.sch = d.sch := by rw [← hx, setQp_sch]; rfl
  have hxout : x.out = d.out ++ outWrites d (ctxOf d k) r.outs ++ replyWrites d (ctxOf d k) (replyOf (ctxOf d k).entry r) ++
      [completionWrite (ctxOf d k) (qpOf d (ctxOf d k).fn (ctxOf d k).qp) r (replyOf (ctxOf d k).entry r).length fwd] := by
    rw [← hx, setQp_out]
    simp [issued]
  have hfree : (ctxOf (freeCtx x k) k).code = csFree := code_freeCtx (by rw [hxsch]; exact hwf) k
  obtain ⟨⟨l, hl, hlen⟩, hsch⟩ := coalesce_out (freeCtx x k) (ctxOf d k).fn (ctxOf d k).qp (ctxOf d k).entry
  obtain ⟨hfence, hawake⟩ := fenceAfter_keeps (coalesce (freeCtx x k) (ctxOf d k).fn (ctxOf d k).qp (ctxOf d k).entry) (ctxOf d k).fn (ctxOf d k).qp
  have hctx : ctxOf (coalesce (freeCtx x k) (ctxOf d k).fn (ctxOf d k).qp (ctxOf d k).entry) k = ctxOf (freeCtx x k) k := by rw [ctxOf, hsch]; rfl
  refine ⟨⟨l, by rw [hfence, hl, freeCtx_out, hxout], hlen⟩, ?_⟩
  rw [hawake k (by rw [hctx, hfree]; decide), hctx, hfree]

/-! ## The end of a command -/

theorem finishWith_of_discard {d : Dev} {k : Nat} (horigin : (ctxOf d k).origin = none) (hgen : (ctxOf d k).gen ≠ genOf d (ctxOf d k).fn) (r : Reply)
    (ok fwd : Bool) : finishWith d k r ok fwd = discard d k := by
  simp [finishWith, horigin, hgen]

theorem finishWith_of_deliver {d : Dev} {k : Nat} (horigin : (ctxOf d k).origin = none) (hgen : (ctxOf d k).gen = genOf d (ctxOf d k).fn)
    (hseat : d.bay.seatHigh = false) (hbme : bmeOf d (ctxOf d k).fn = true) (r : Reply) (ok fwd : Bool) :
    finishWith d k r ok fwd = deliver d k (withTrailer (ctxOf d k) r) ok fwd := by
  simp [finishWith, horigin, hgen, hseat, hbme]

/-- The device on which a command's writes are held: off its core and its engine, a format it began given up. -/
def offCore (d : Dev) (k : Nat) : Dev := leaveFormat (leaveEngines (leaveCore (unready d k) k) k) k

theorem offCore_out (d : Dev) (k : Nat) : (offCore d k).out = d.out := leaveFormat_out _ _

theorem offCore_ctxs (d : Dev) (k : Nat) : (offCore d k).sch.ctxs = d.sch.ctxs := by
  rw [offCore, leaveFormat_sch]
  rfl

theorem ctxOf_modCtx_offCore {d : Dev} (hwf : tabWf {} d.sch.ctxs = true) (k : Nat) (f : Ctx → Ctx) :
    ctxOf (modCtx (offCore d k) k f) k = f (ctxOf d k) := by
  show tabGet {} (tabPut {} (offCore d k).sch.ctxs k (f (tabGet {} (offCore d k).sch.ctxs k))) k = _
  rw [offCore_ctxs, tabGet_put _ _ _ _ _ hwf, if_pos rfl]
  rfl

theorem finishWith_of_held {d : Dev} {k : Nat} (horigin : (ctxOf d k).origin = none) (hgen : (ctxOf d k).gen = genOf d (ctxOf d k).fn)
    (hseat : d.bay.seatHigh = false) (hbme : bmeOf d (ctxOf d k).fn = false) (r : Reply) (ok fwd : Bool) :
    finishWith d k r ok fwd = modCtx (offCore d k) k fun c =>
      if (withTrailer (ctxOf d k) r).outs.isEmpty then { c with code := csHeld, wait := .nothing, held := some (withTrailer (ctxOf d k) r) }
      else { c with code := csWaiting, wait := .hostMemory, held := some (withTrailer (ctxOf d k) r) } := by
  simp only [finishWith, horigin, hgen, hseat, hbme, ne_eq, not_true_eq_false, if_false, Bool.not_false, if_true, offCore, Bool.false_eq_true]
  split <;> rfl

theorem withTrailer_status (c : Ctx) (r : Reply) : (withTrailer c r).status = r.status := by
  unfold withTrailer; split <;> (try split) <;> rfl

theorem withTrailer_result (c : Ctx) (r : Reply) : (withTrailer c r).result = r.result := by
  unfold withTrailer; split <;> (try split) <;> rfl

theorem withTrailer_data (c : Ctx) (r : Reply) : (withTrailer c r).data = r.data := by
  unfold withTrailer; split <;> (try split) <;> rfl

/-- The output data of a reply with the trailer of a begun stream that failed (08 R243). -/
theorem withTrailer_outs (c : Ctx) (r : Reply) : (withTrailer c r).outs = if c.stream.isSome = true ∧ r.outs = [] then c.stream.toList else r.outs := by
  unfold withTrailer
  cases hstream : c.stream <;> cases houts : r.outs <;> simp [houts]

theorem countDiscard_out (d : Dev) (fn : Fn) (g : Nat) : (countDiscard d fn g).out = d.out := by
  cases fn <;> rfl

theorem countDiscard_discardTotal (d : Dev) (fn : Fn) (g : Nat) : (countDiscard d fn g).host.discardTotal = d.host.discardTotal + 1 := by
  cases fn <;> rfl

theorem countDiscard_sch (d : Dev) (fn : Fn) (g : Nat) : (countDiscard d fn g).sch = d.sch := by
  cases fn <;> rfl

/-- Settles O9: the three courses of `finishWith` for a command of this module, by its generation and Bus Master Enable. -/
theorem commandsAreAnswered : Obligations.CommandsAreAnswered := by
  unfold Obligations.CommandsAreAnswered
  rintro d k r fwd hcanon _ rfl horigin -
  have hwf : tabWf {} d.tenants = true ∧ tabWf {} d.sch.ctxs = true := by
    simp only [canonical, Bool.and_eq_true] at hcanon
    tauto
  obtain ⟨htenants, hctxs⟩ := hwf
  refine ⟨?_, ?_, ?_⟩
  · rintro hgen hseat hbme hst hdecide _ rfl _ rfl _ rfl _ rfl
    rw [finishWith_of_deliver horigin hgen hseat hbme]
    obtain ⟨⟨l, hl, hlen⟩, hfree⟩ := deliver_writes ⟨hst, hdecide⟩ hctxs rfl (withTrailer (ctxOf d k) r) fwd rfl
    refine ⟨l, ?_, hlen, hfree⟩
    rw [hl]
    simp only [outWrites, replyWrites, completionWrite, completionBytes, replyOf, withTrailer_status, withTrailer_result, withTrailer_data,
      withTrailer_outs, flag]
    rfl
  · rintro hgen _ rfl
    rw [finishWith_of_discard horigin hgen, discard]
    refine ⟨by rw [freeCtx_out, countDiscard_out], by rw [freeCtx_host, countDiscard_discardTotal],
      code_freeCtx (by rw [countDiscard_sch]; exact hctxs) k, fun n hn => ?_⟩
    rw [tn_congr (freeCtx_tenants _ _), hn, countDiscard]
    rw [tn_modTn (by exact htenants), if_pos rfl]
    rfl
  · rintro hgen hseat hbme _ rfl _ rfl
    rw [finishWith_of_held horigin hgen hseat hbme]
    refine ⟨by rw [modCtx_out, offCore_out], ?_, fun houts => ?_, fun houts => ?_⟩
    · rw [ctxOf_modCtx_offCore hctxs]
      split <;> rfl
    · rw [ctxOf_modCtx_offCore hctxs, if_pos (List.isEmpty_iff.mpr houts)]
    · rw [ctxOf_modCtx_offCore hctxs, if_neg fun h => houts (List.isEmpty_iff.mp h)]
      exact ⟨rfl, rfl⟩

end Sys2Proof.Machine
end

section
/-! SUPPORT. Generations and resets of functions (03 R67 to R73, R82 to R85; O38, O39): the search for a new generation, what the end of commands leaves
of the device, what a reset of a tenant leaves. -/

namespace Sys2Proof.Machine

open Sys2Proof.Safety

/-! ## The generation search (03 R84) -/

theorem genAfter_ne_zero (g : Nat) : genAfter g ≠ 0 := by
  unfold genAfter
  split <;> omega

theorem freshGen_ne_zero (used : List Nat) (f : Nat) {g : Nat} (h : g ≠ 0) : freshGen used f g ≠ 0 := by
  induction f generalizing g with
  | zero => exact h
  | succ f ih =>
    rw [freshGen]
    split
    · exact ih (genAfter_ne_zero g)
    · exact h

theorem newGen_ne_zero (d : Dev) (fn : Fn) : newGen d fn ≠ 0 := freshGen_ne_zero _ _ (genAfter_ne_zero _)

/-- The generation `j` steps on from `g`: they run through 1 to 65,535 in turn. -/
def genSteps (g j : Nat) : Nat := (g - 1 + j) % 65535 + 1

theorem genSteps_bounds (g j : Nat) : 1 ≤ genSteps g j ∧ genSteps g j < 2 ^ 16 := by
  have := Nat.mod_lt (g - 1 + j) (show 0 < 65535 by decide)
  unfold genSteps
  omega

theorem genSteps_zero {g : Nat} (hlow : 1 ≤ g) (hhigh : g < 2 ^ 16) : genSteps g 0 = g := by
  unfold genSteps
  omega

theorem genAfter_genSteps (g j : Nat) : genAfter (genSteps g j) = genSteps g (j + 1) := by
  unfold genAfter genSteps
  split <;> omega

theorem genSteps_inj {g i j : Nat} (hi : i < 65535) (hj : j < 65535) (h : genSteps g i = genSteps g j) : i = j := by
  unfold genSteps at h
  omega

/-- The search ends at a generation that is not used if one lies within its fuel. -/
theorem freshGen_spec {used : List Nat} {g f i : Nat} (h : ∃ j, i ≤ j ∧ j < i + f ∧ genSteps g j ∉ used) :
    ∃ j, i ≤ j ∧ j < i + f ∧ freshGen used f (genSteps g i) = genSteps g j ∧ genSteps g j ∉ used := by
  induction f generalizing i with
  | zero => obtain ⟨j, h1, h2, -⟩ := h; omega
  | succ f ih =>
    obtain ⟨j, hle, hlt, hfree⟩ := h
    rw [freshGen]
    split
    next hused =>
      have hne : i ≠ j := by
        rintro rfl
        exact hfree (List.contains_iff_mem.mp hused)
      obtain ⟨j', hle', hlt', heq, hfree'⟩ := ih (i := i + 1) ⟨j, by omega, by omega, hfree⟩
      exact ⟨j', by omega, by omega, by rw [genAfter_genSteps, heq], hfree'⟩
    next hunused => exact ⟨i, by omega, by omega, rfl, fun h => hunused (List.contains_iff_mem.mpr h)⟩

/-- Of more successive generations than are used, one is not used. -/
theorem exists_genSteps_unused {used : List Nat} (g : Nat) (h : used.length ≤ 4096) : ∃ j, 1 ≤ j ∧ j < 1 + 4097 ∧ genSteps g j ∉ used := by
  by_contra hall
  push Not at hall
  have hsub : (List.range' 1 4097).map (genSteps g) ⊆ used := by
    intro x hx
    obtain ⟨j, hj, rfl⟩ := List.mem_map.mp hx
    obtain ⟨hlow, hhigh⟩ := List.mem_range'_1.mp hj
    exact hall j hlow hhigh
  have hnodup : ((List.range' 1 4097).map (genSteps g)).Nodup := by
    refine List.Nodup.map_on (fun i hi j hj heq => ?_) List.nodup_range'
    obtain ⟨-, hi⟩ := List.mem_range'_1.mp hi
    obtain ⟨-, hj⟩ := List.mem_range'_1.mp hj
    exact genSteps_inj (by omega) (by omega) heq
  have hlen := (hnodup.subperm hsub).length_le
  rw [List.length_map, List.length_range'] at hlen
  omega

/-- A new generation is one of 1 to 65,535, is not the old one, and no command in flight bears it, while fewer commands than generations are in flight. -/
theorem newGen_fresh {d : Dev} {fn : Fn} (hlow : 1 ≤ genOf d fn) (hhigh : genOf d fn < 2 ^ 16) (hfew : (stampsOf d fn).length ≤ 4096) :
    1 ≤ newGen d fn ∧ newGen d fn < 2 ^ 16 ∧ newGen d fn ∉ stampsOf d fn ∧ newGen d fn ≠ genOf d fn := by
  obtain ⟨j, hj1, hj2, heq, hfree⟩ := freshGen_spec (exists_genSteps_unused (genOf d fn) hfew)
  have hnew : newGen d fn = genSteps (genOf d fn) j := by
    rw [newGen, ← heq, ← genAfter_genSteps, genSteps_zero hlow hhigh]
  obtain ⟨hb1, hb2⟩ := genSteps_bounds (genOf d fn) j
  rw [hnew]
  refine ⟨hb1, hb2, hfree, fun hsame => ?_⟩
  have := genSteps_inj (i := j) (j := 0) (by omega) (by omega) (hsame.trans (genSteps_zero hlow hhigh).symm)
  omega

/-! ## What the end of commands leaves -/

/-- The end of commands: contexts, queue pairs, vectors and tenants, engines and cards, claims, writes and frames, a format given up; the rest stays. -/
def EndsOnly (d e : Dev) : Prop :=
  ∃ adm ten sch eng units cards claim stage held pm total st ring out,
    e = { d with glb.admin := adm, tenants := ten, sch := sch, eng := eng, cvu.units := units, lcd.cards := cards, act.claim := claim, act.stage := stage,
                 act.dma := held, host.pfMsix := pm, host.discardTotal := total, vmp.st := st, ring := ring, out := out } ∧
    (d.vmp.st ≠ 0x33 → st = d.vmp.st)

theorem EndsOnly.refl (d : Dev) : EndsOnly d d := ⟨_, _, _, _, _, _, _, _, _, _, _, _, _, _, rfl, fun _ => rfl⟩

theorem EndsOnly.trans {a b c : Dev} (h : EndsOnly a b) (g : EndsOnly b c) : EndsOnly a c := by
  obtain ⟨_, _, _, _, _, _, _, _, _, _, _, _, _, _, rfl, hst⟩ := h
  obtain ⟨_, _, _, _, _, _, _, _, _, _, _, _, _, _, rfl, gst⟩ := g
  refine ⟨_, _, _, _, _, _, _, _, _, _, _, _, _, _, rfl, fun hn => ?_⟩
  have h1 := hst hn
  exact (gst (by rw [h1]; exact hn)).trans h1

theorem EndsOnly.foldl {β : Type} (f : Dev → β → Dev) (hf : ∀ d b, EndsOnly d (f d b)) (l : List β) (d : Dev) : EndsOnly d (l.foldl f d) := by
  induction l generalizing d with
  | nil => exact .refl d
  | cons b t ih => exact (hf d b).trans (ih _)

theorem MsixOnly.endsOnly {d e : Dev} (h : MsixOnly d e) : EndsOnly d e := by
  obtain ⟨_, _, _, _, rfl⟩ := h
  exact ⟨_, _, _, _, _, _, _, _, _, _, _, _, _, _, rfl, fun _ => rfl⟩

theorem endsOnly_modTn (d : Dev) (n : Nat) (f : Tenant → Tenant) : EndsOnly d (modTn d n f) := ⟨_, _, _, _, _, _, _, _, _, _, _, _, _, _, rfl, fun _ => rfl⟩
theorem endsOnly_modCtx (d : Dev) (k : Nat) (f : Ctx → Ctx) : EndsOnly d (modCtx d k f) := ⟨_, _, _, _, _, _, _, _, _, _, _, _, _, _, rfl, fun _ => rfl⟩

theorem endsOnly_setQp (d : Dev) (fn : Fn) (q : Nat) (p : Qp) : EndsOnly d (setQp d fn q p) := by
  cases fn with
  | pf => exact ⟨_, _, _, _, _, _, _, _, _, _, _, _, _, _, rfl, fun _ => rfl⟩
  | vf n => exact endsOnly_modTn _ _ fun t => { t with qps := tabPut {} t.qps q p }

theorem endsOnly_leaveClaim (d : Dev) (k : Nat) : EndsOnly d (leaveClaim d k) := by
  unfold leaveClaim
  split
  · exact ⟨_, _, _, _, _, _, _, _, _, _, _, _, _, _, rfl, fun _ => rfl⟩
  · exact .refl d

theorem endsOnly_leaveFormat (d : Dev) (k : Nat) : EndsOnly d (leaveFormat d k) := by
  unfold leaveFormat
  split
  next h => exact ⟨_, _, _, _, _, _, _, _, _, _, _, _, _, _, rfl, fun hn => absurd h.1 hn⟩
  next => exact .refl d

theorem endsOnly_offCore (d : Dev) (k : Nat) : EndsOnly d (offCore d k) :=
  .trans (b := leaveEngines (leaveCore (unready d k) k) k) ⟨_, _, _, _, _, _, _, _, _, _, _, _, _, _, rfl, fun _ => rfl⟩ (endsOnly_leaveFormat _ _)

theorem endsOnly_freeCtx (d : Dev) (k : Nat) : EndsOnly d (freeCtx d k) :=
  .trans (b := leaveCards (leaveEngines (leaveCore (unready d k) k) k) k) ⟨_, _, _, _, _, _, _, _, _, _, _, _, _, _, rfl, fun _ => rfl⟩
    ((endsOnly_leaveClaim _ _).trans ((endsOnly_leaveFormat _ _).trans ⟨_, _, _, _, _, _, _, _, _, _, _, _, _, _, rfl, fun _ => rfl⟩))

theorem endsOnly_wakeWhere (d : Dev) (p : Ctx → Bool) : EndsOnly d (wakeWhere d p) := by
  obtain ⟨c, r, h⟩ := wakeWhere_changes d p
  rw [h]
  exact ⟨_, _, _, _, _, _, _, _, _, _, _, _, _, _, rfl, fun _ => rfl⟩

theorem endsOnly_discard (d : Dev) (k : Nat) : EndsOnly d (discard d k) := by
  refine .trans (b := countDiscard d (ctxOf d k).fn (ctxOf d k).gen) ?_ (endsOnly_freeCtx _ _)
  cases (ctxOf d k).fn <;> exact ⟨_, _, _, _, _, _, _, _, _, _, _, _, _, _, rfl, fun _ => rfl⟩

theorem endsOnly_coalesce (d : Dev) (fn : Fn) (q : Nat) (entry : Bytes) : EndsOnly d (coalesce d fn q entry) := by
  unfold coalesce
  dsimp only
  split
  · exact .refl d
  · cases fn with
    | pf => exact (msixOnly_signalVector _ _ _).endsOnly
    | vf n =>
      dsimp only
      split
      · exact (endsOnly_setQp _ _ _ _).trans (msixOnly_signalVector _ _ _).endsOnly
      · exact endsOnly_setQp _ _ _ _

theorem endsOnly_fenceAfter (d : Dev) (fn : Fn) (q : Nat) : EndsOnly d (fenceAfter d fn q) := by
  unfold fenceAfter
  dsimp only
  split
  · exact endsOnly_setQp _ _ _ _
  · split
    · exact endsOnly_wakeWhere _ _
    · exact .refl d

theorem endsOnly_writeOuts (d : Dev) (c : Ctx) (outs : List (Nat × Bytes)) : EndsOnly d (writeOuts d c outs) := by
  refine .foldl _ (fun d o => ?_) _ _
  split <;> exact (msixOnly_dma _ _ _ _).endsOnly

theorem endsOnly_deliver (d : Dev) (k : Nat) (r : Reply) (ok fwd : Bool) : EndsOnly d (deliver d k r ok fwd) := by
  unfold deliver
  dsimp only
  refine .trans (endsOnly_writeOuts d (ctxOf d k) r.outs) (.trans ?_ (.trans ((msixOnly_dma _ _ _ _).endsOnly.trans (endsOnly_setQp _ _ _ _))
    ((endsOnly_freeCtx _ _).trans ((endsOnly_coalesce _ _ _ _).trans (endsOnly_fenceAfter _ _ _)))))
  split
  · exact .refl _
  · exact (msixOnly_dma _ _ _ _).endsOnly

/-- A frame sent changes the ring and the outputs alone. -/
theorem sendFrame_changes (d : Dev) (dst : Nat) (b : FrameBody) : ∃ r o, sendFrame d dst b = { d with ring := r, out := o } := by
  have happly : ∃ r, applyRing d = { d with ring := r } := by
    unfold applyRing
    split
    · exact ⟨_, rfl⟩
    · exact ⟨d.ring, rfl⟩
  obtain ⟨r, hr⟩ := happly
  unfold sendFrame
  rw [hr]
  dsimp only
  generalize (dst == 255 || goesEast _ dst) = east
  generalize (dst == 255 || !goesEast _ dst) = west
  cases east <;> cases west <;> exact ⟨_, _, rfl⟩

theorem endsOnly_sendFrame (d : Dev) (dst : Nat) (b : FrameBody) : EndsOnly d (sendFrame d dst b) := by
  obtain ⟨r, o, h⟩ := sendFrame_changes d dst b
  rw [h]
  exact ⟨_, _, _, _, _, _, _, _, _, _, _, _, _, _, rfl, fun _ => rfl⟩

theorem endsOnly_finishWith (d : Dev) (k : Nat) (r : Reply) (ok fwd : Bool) : EndsOnly d (finishWith d k r ok fwd) := by
  unfold finishWith
  dsimp only
  split
  · split
    · exact (endsOnly_freeCtx _ _).trans (endsOnly_sendFrame _ _ _)
    · exact endsOnly_freeCtx _ _
  · split
    · exact endsOnly_discard _ _
    · split
      · exact endsOnly_freeCtx _ _
      · split
        · split <;> exact (endsOnly_offCore d k).trans (endsOnly_modCtx _ _ _)
        · exact endsOnly_deliver _ _ _ _ _

theorem endsOnly_endWith (d : Dev) (k st : Nat) : EndsOnly d (endWith d k st) := endsOnly_finishWith _ _ _ _ _

theorem EndsOnly.keys {d e : Dev} (h : EndsOnly d e) : e.keys = d.keys := by
  obtain ⟨_, _, _, _, _, _, _, _, _, _, _, _, _, _, rfl, -⟩ := h
  rfl

theorem EndsOnly.otp {d e : Dev} (h : EndsOnly d e) : e.otp = d.otp := by
  obtain ⟨_, _, _, _, _, _, _, _, _, _, _, _, _, _, rfl, -⟩ := h
  rfl

theorem EndsOnly.reads {d e : Dev} (h : EndsOnly d e) : e.host.reads = d.host.reads := by
  obtain ⟨_, _, _, _, _, _, _, _, _, _, _, _, _, _, rfl, -⟩ := h
  rfl

theorem EndsOnly.vmp {d e : Dev} (h : EndsOnly d e) : { e.vmp with st := d.vmp.st } = d.vmp ∧ (d.vmp.st ≠ 0x33 → e.vmp.st = d.vmp.st) := by
  obtain ⟨_, _, _, _, _, _, _, _, _, _, _, _, _, _, rfl, hst⟩ := h
  exact ⟨rfl, hst⟩

theorem EndsOnly.vmp_eq {d e : Dev} (h : EndsOnly d e) (hst : d.vmp.st ≠ 0x33) : e.vmp = d.vmp := by
  obtain ⟨hrest, hsame⟩ := h.vmp
  rw [← hsame hst] at hrest
  exact hrest

/-! ## Grants taken back (08 R253) -/

/-- What a tenant keeps through the end of its grant and of its commands. -/
def Tenant.settled (t : Tenant) : Tenant := { t.kept with grant := none, forced := false }

theorem settled_of_kept {t u : Tenant} (h : t.kept = u.kept) : t.settled = u.settled := by
  unfold Tenant.settled
  rw [h]

theorem grant_of_kept {t u : Tenant} (h : t.kept = u.kept) : t.grant = u.grant := (congrArg Tenant.grant h :)

theorem endsOnly_endGrant (d : Dev) (n : Nat) : EndsOnly d (endGrant d n) := by
  unfold endGrant
  split
  · exact .refl d
  · exact .trans (b := unlockLane d _) ⟨_, _, _, _, _, _, _, _, _, _, _, _, _, _, rfl, fun _ => rfl⟩ (endsOnly_modTn _ _ _)

theorem endsOnly_forceRelease (d : Dev) (n : Nat) : EndsOnly d (forceRelease d n) := by
  unfold forceRelease
  split
  · exact .refl d
  · exact (EndsOnly.foldl (fun d k => endWith d k stLockExpired) (fun d k => endsOnly_endWith _ _ _) (relying d n) d).trans
      ((endsOnly_endGrant _ _).trans (endsOnly_modTn _ _ _))

theorem forceRelease_of_none {d : Dev} {n : Nat} (h : (tn d n).grant = none) : forceRelease d n = d := by
  rw [forceRelease, h]

/-- The tenants as the end of the commands that relied on a grant leaves them. -/
theorem keeps_endRelying (d : Dev) (n : Nat) : KeepsTenants d ((relying d n).foldl (fun d k => endWith d k stLockExpired) d) :=
  .foldl _ (fun _ _ => keeps_endWith _ _ _) _ _

theorem wf_endGrant {d : Dev} (hwf : tabWf {} d.tenants = true) (n : Nat) : tabWf {} (endGrant d n).tenants = true := by
  unfold endGrant
  split
  · exact hwf
  · exact wf_modTn (d := unlockLane d _) hwf _ _

theorem wf_forceRelease {d : Dev} (hwf : tabWf {} d.tenants = true) (n : Nat) : tabWf {} (forceRelease d n).tenants = true := by
  unfold forceRelease
  split
  · exact hwf
  · exact wf_modTn (wf_endGrant ((keeps_endRelying d n).wf hwf) n) _ _

theorem tn_endGrant {d : Dev} (hwf : tabWf {} d.tenants = true) (n m : Nat) :
    tn (endGrant d n) m = if m = n then { tn d n with grant := none } else tn d m := by
  unfold endGrant
  split
  next h =>
    split
    next hm => rw [hm, ← h]
    next => rfl
  next g h => exact tn_modTn (d := unlockLane d g.lane) hwf _ _ _

/-- The tenant whose grant is taken back. -/
theorem tn_forceRelease_self {d : Dev} (hwf : tabWf {} d.tenants = true) (n : Nat) :
    (tn (forceRelease d n) n).settled = (tn d n).settled ∧ (tn (forceRelease d n) n).grant = none ∧
      ∀ g, (tn d n).grant = some g → (tn (forceRelease d n) n).forced = true ∧ bit (tn (forceRelease d n) n).event 1 = true := by
  cases hg : (tn d n).grant with
  | none =>
    rw [forceRelease_of_none hg]
    exact ⟨rfl, hg, fun g h => by cases h⟩
  | some g =>
    have hkept := keeps_endRelying d n
    have hwf' := hkept.wf hwf
    rw [forceRelease, hg]
    dsimp only
    rw [tn_modTn (wf_endGrant hwf' n), if_pos rfl, tn_endGrant hwf', if_pos rfl]
    exact ⟨(settled_of_kept (hkept.kept hwf n) :), rfl, fun _ _ => ⟨rfl, bit_setBit_same _ _⟩⟩

/-! ## A tenant reset (03 R82 to R84) -/

theorem keeps_settleStale (d : Dev) (fn : Fn) : KeepsTenants d (settleStale d fn) :=
  (KeepsTenants.foldl _ keeps_discard _ d).trans (.of_eq (wakeWhere_tenants _ _))

theorem endsOnly_settleStale (d : Dev) (fn : Fn) : EndsOnly d (settleStale d fn) :=
  (EndsOnly.foldl _ endsOnly_discard _ d).trans (endsOnly_wakeWhere _ _)

/-- The device of a reset once the generation has moved on and fetching has stopped. -/
def advanced (d : Dev) (n : Nat) : Dev := stopFetch (advanceGen d (.vf n)) (.vf n)

theorem advanced_tenants {d : Dev} (hwf : tabWf {} d.tenants = true) (n : Nat) : tabWf {} (advanced d n).tenants = true :=
  wf_modTn hwf n fun t => { t with gen := newGen d (.vf n), resetCount := (t.resetCount + 1) % 256 }

theorem tn_advanced {d : Dev} (hwf : tabWf {} d.tenants = true) (n : Nat) :
    tn (advanced d n) n = { tn d n with gen := newGen d (.vf n), resetCount := ((tn d n).resetCount + 1) % 256 } := by
  refine (tn_congr (d := advanceGen d (.vf n)) rfl n).trans ?_
  rw [advanceGen, tn_modTn hwf, if_pos rfl]

/-- The device of a reset once the tenant's grant and its commands have ended. -/
def released (d : Dev) (n : Nat) : Dev := settleStale (forceRelease (advanced d n) n) (.vf n)

theorem endsOnly_released (d : Dev) (n : Nat) : EndsOnly (advanced d n) (released d n) := (endsOnly_forceRelease _ n).trans (endsOnly_settleStale _ _)

theorem tn_released {d : Dev} (hwf : tabWf {} d.tenants = true) (n : Nat) :
    tabWf {} (released d n).tenants = true ∧ (tn (released d n) n).settled = (tn (advanced d n) n).settled ∧ (tn (released d n) n).grant = none := by
  have hwf1 := advanced_tenants hwf n
  have hwf2 := wf_forceRelease hwf1 n
  have hkept := keeps_settleStale (forceRelease (advanced d n) n) (.vf n)
  obtain ⟨hsettled, hgrant, -⟩ := tn_forceRelease_self hwf1 n
  exact ⟨hkept.wf hwf2, (settled_of_kept (hkept.kept hwf2 n)).trans hsettled, (grant_of_kept (hkept.kept hwf2 n)).trans hgrant⟩

theorem resetTenantFn_eq (d : Dev) (n : Nat) : resetTenantFn d n =
    modTn { released d n with eng.lockQueue := (released d n).eng.lockQueue.filter (· != n) } n restoredTenant := rfl

/-- The tenant that was reset: restored registers over what the end of its commands left of the advanced tenant. -/
theorem tn_resetTenantFn {d : Dev} (hwf : tabWf {} d.tenants = true) (n : Nat) :
    ∃ t, tn (resetTenantFn d n) n = restoredTenant t ∧ t.grant = none ∧
      t.settled = ({ tn d n with gen := newGen d (.vf n), resetCount := ((tn d n).resetCount + 1) % 256 } : Tenant).settled := by
  obtain ⟨hwf', hsettled, hgrant⟩ := tn_released hwf n
  refine ⟨tn (released d n) n, ?_, hgrant, by rw [hsettled, tn_advanced hwf]⟩
  rw [resetTenantFn_eq, tn_modTn (by exact hwf'), if_pos rfl]
  rfl

theorem restoredTenant_settled (t : Tenant) : (restoredTenant t).gen = t.settled.gen ∧ (restoredTenant t).resetCount = t.settled.resetCount ∧
    (restoredTenant t).enable = t.settled.enable ∧ (restoredTenant t).policySet = t.settled.policySet ∧ (restoredTenant t).maxPrio = t.settled.maxPrio ∧
    (restoredTenant t).contextCap = t.settled.contextCap ∧ (restoredTenant t).classMask = t.settled.classMask ∧
    (restoredTenant t).groupMask = t.settled.groupMask := ⟨rfl, rfl, rfl, rfl, rfl, rfl, rfl, rfl⟩

/-- Settles O39: the reset's operations in turn (`advanced`, `released`, `restoredTenant`), and the search for a generation finds a fresh one. -/
theorem resetTenantEffect : Obligations.ResetTenantEffect := by
  unfold Obligations.ResetTenantEffect
  refine ⟨fun d n hwf t ht => ?_, fun d fn hlow hhigh hfew => newGen_fresh hlow hhigh hfew⟩
  obtain ⟨u, hu, hgrant, hsettled⟩ := tn_resetTenantFn hwf n
  obtain ⟨hgen, hcount, henable, hpolicy, hprio, hcap, hclass, hgroup⟩ := restoredTenant_settled u
  rw [hsettled] at hgen hcount henable hpolicy hprio hcap hclass hgroup
  rw [ht, hu]
  have hends := endsOnly_released d n
  refine ⟨hgen, hcount, by rw [hgen]; exact newGen_ne_zero d _, rfl, rfl, rfl, rfl, rfl, rfl, hgrant, henable, hpolicy, hprio, hcap, hclass, hgroup,
    ?_, fun r hr => ?_, ?_, fun hst => ?_, ?_⟩
  · rw [resetTenantFn_eq, modTn_eng]
    simp
  · rw [resetTenantFn_eq, modTn_host] at hr
    have hr' : r ∈ (advanced d n).host.reads := hends.reads ▸ hr
    simpa using (List.mem_filter.mp hr').2
  · rw [resetTenantFn_eq, modTn_keys]
    exact hends.keys
  · rw [resetTenantFn_eq, modTn_vmp]
    exact hends.vmp_eq hst
  · rw [resetTenantFn_eq, modTn_otp]
    exact hends.otp

end Sys2Proof.Machine
end

section
/-! SUPPORT. Resets of functions by PCI Express (03 R67 to R73; O38): the statement fails where the table of tenants lists one tenant twice, because two
changes of a tenant in turn are one change in a canonical table only. -/

namespace Sys2Proof.Machine

open Sys2Proof.Safety

/-! ## The state a row leaves -/

/-- A row that runs an effect on the device leaves what the effect makes of it. -/
theorem leaves_of {row : Instr} {s : State} {e : Dev} (f : Dev → Dev) (hrow : exec row s = s.onDev f) (he : f s.dev = e) : leaves row s e := by
  subst he
  exact hrow

/-- Two devices that one row leaves are alike after what follows every command. -/
theorem after_eq_of_leaves {row : Instr} {s : State} {d e : Dev} (hd : leaves row s d) (he : leaves row s e) : Dev.after s.dev d = Dev.after s.dev e := by
  have h : Host.Outcome.next (s.after d) = .next (s.after e) := hd.symm.trans he
  injection h with h
  exact congrArg State.dev h

theorem tn_canon (d : Dev) (n : Nat) : tn (canon d) n = tn d n := tabGet_canon _ _ _

theorem WokenOnly.tenants {d e : Dev} (h : WokenOnly d e) : e.tenants = d.tenants := by
  obtain ⟨_, _, _, _, _, _, rfl⟩ := h
  rfl

/-- What follows every command changes of a tenant its events, its credit and its vectors alone. -/
theorem tn_after (old d : Dev) (n : Nat) : ∃ ev cr cd m, tn (Dev.after old d) n = { tn d n with event := ev, credit := cr, credited := cd, msix := m } := by
  obtain ⟨e, hwoken, hafter⟩ := after_changes old d
  obtain ⟨ev, cr, cd, m, h⟩ := tn_settle old (d := canon e) (tabWf_canon _ _) n
  exact ⟨ev, cr, cd, m, by rw [hafter, h, tn_canon, tn_congr hwoken.tenants]⟩

theorem tn_after_cfg (old d : Dev) (n : Nat) : (tn (Dev.after old d) n).cfg = (tn d n).cfg := by
  obtain ⟨ev, cr, cd, m, h⟩ := tn_after old d n
  rw [h]

/-! ## A table that lists tenant 0 twice -/

/-- A tenant that a reset and Bus Master Enable 0 bring to the default: its generation and RESET_COUNT wrap. -/
def wrappingTenant : Tenant := { gen := 65535, resetCount := 255, bme := true }

/-- What the table lists behind it, with a configuration space of its own. -/
def shadowedTenant : Tenant := { cfg := { mps := 5 } }

/-- VF 0 exists, and the table of tenants, out of its canonical form, lists it twice. -/
def twiceListed : Dev :=
  { Dev.reset with host := { resetHost with linkUp := true, vfEnable := true, numVFs := 1 }, tenants := [(0, wrappingTenant), (0, shadowedTenant)] }

/-- The FLR clears Bus Master Enable first, which takes the first entry out of the table, and then the configuration space of the second. -/
theorem flrVf_twiceListed : (tn (flrVfEff 0 twiceListed) 0).cfg.mps = 0 := by decide +kernel

/-- One change of the tenant takes the first entry out and leaves the second. -/
theorem resetTenantFn_twiceListed : (tn (modTn (resetTenantFn twiceListed 0) 0 fun t => { t with bme := false, cfg := {} }) 0).cfg.mps = 5 := by
  decide +kernel

/-- Refutes O38 by the first clause, on the state `twiceListed`, which is not canonical: its table lists tenant 0 twice. The FLR makes two changes of
that tenant where the clause makes one, and the configuration space then read differs. -/
theorem not_resetsComplete : ¬ Obligations.ResetsComplete := by
  unfold Obligations.ResetsComplete
  intro h
  obtain ⟨hflr, -⟩ := h.1 { dev := twiceListed, pending := [] } 0 (by decide) rfl
  have hrow : leaves (.flrVf 0) { dev := twiceListed, pending := [] } (flrVfEff 0 twiceListed) := leaves_of (flrVfEff 0) rfl rfl
  have hcfg := congrArg (fun d => (tn d 0).cfg.mps) (after_eq_of_leaves hrow hflr)
  simp only [tn_after_cfg] at hcfg
  rw [flrVf_twiceListed, resetTenantFn_twiceListed] at hcfg
  cases hcfg

end Sys2Proof.Machine
end

section
/-! SUPPORT. The management commands (04 R115 to R120; O17). -/

namespace Sys2Proof.Machine

open Sys2Proof.Safety

/-! ## SET_TENANT_CONFIG -/

/-- A policy is in force at once where the completion can be written, and is due otherwise (03 R73, 04 R117). -/
theorem withPolicy_eq (c : Cmd) (bme : Bool) : withPolicy c bme = fun t =>
    if bme then { t with policySet := true, maxPrio := c.b1 2, contextCap := c.b2 4, classMask := c.b2 6, groupMask := c.b4 8, policyDue := none }
    else { t with policyDue := some { maxPrio := c.b1 2, contextCap := c.b2 4, classMask := c.b2 6, groupMask := c.b4 8 } } := by
  funext t
  cases bme <;> rfl

theorem statusWord_eq (c : Cmd) (d : Dev) : statusWord c d = if c.fn = .pf then glbStatus d else vfStatus d c.tenant := by
  unfold statusWord Cmd.isTenant
  by_cases h : c.fn = .pf <;> simp [h]

/-! ## RESET_TENANT -/

/-- The drain record that a RESET_TENANT makes of tenant n, with DRAIN. -/
def drainMark (d : Dev) (k n : Nat) (drain : Bool) (t : Tenant) : Option Drain :=
  if drain then some { ctx := k, oldGen := (tn d n).gen, newGen := newGen d (.vf n), ended := 0, resets := (t.resetCount + 1) % 256 } else none

/-- The device on which a RESET_TENANT resets its tenant: the record of its drain made or cleared. -/
def drainNoted (d : Dev) (k n : Nat) (drain : Bool) : Dev := modTn d n fun t => { t with drain := drainMark d k n drain t }

theorem beginReset_eq (d : Dev) (k n : Nat) (drain : Bool) : beginReset d k n drain =
    logTenant (resetTenantFn (drainNoted d k n drain) n) 1 n (natLe 2 (tn d n).gen ++ natLe 2 (newGen d (.vf n))) := rfl

theorem tn_beginReset (d : Dev) (k n : Nat) (drain : Bool) : tn (beginReset d k n drain) n = tn (resetTenantFn (drainNoted d k n drain) n) n := by
  rw [beginReset_eq]
  exact tn_congr (submit_tenants ..) n

theorem newGen_drainNoted {d : Dev} (hwf : tabWf {} d.tenants = true) (k n : Nat) (drain : Bool) :
    newGen (drainNoted d k n drain) (.vf n) = newGen d (.vf n) := by
  have hgen : genOf (drainNoted d k n drain) (.vf n) = genOf d (.vf n) := by
    rw [genOf, drainNoted, tn_modTn hwf, if_pos rfl]
    rfl
  rw [newGen, hgen]
  rfl

/-- What the tenant of a RESET_TENANT is after its reset: the next generation, RESET_COUNT counted, and its drain record, if any, with what has ended. -/
theorem beginReset_tenant {d : Dev} (hwf : tabWf {} d.tenants = true) (k n : Nat) (drain : Bool) :
    (tn (beginReset d k n drain) n).gen = newGen d (.vf n) ∧ (tn (beginReset d k n drain) n).resetCount = ((tn d n).resetCount + 1) % 256 ∧
      (tn (beginReset d k n drain) n).drain.isSome = drain := by
  have hwf' : tabWf {} (drainNoted d k n drain).tenants = true := wf_modTn hwf n fun t => { t with drain := drainMark d k n drain t }
  have htn : tn (drainNoted d k n drain) n = { tn d n with drain := drainMark d k n drain (tn d n) } := by
    rw [drainNoted, tn_modTn hwf, if_pos rfl]
  obtain ⟨t, ht, -, hsettled⟩ := tn_resetTenantFn hwf' n
  rw [newGen_drainNoted hwf, htn] at hsettled
  have hgen : t.gen = newGen d (.vf n) := (congrArg Tenant.gen hsettled :)
  have hcount : t.resetCount = ((tn d n).resetCount + 1) % 256 := (congrArg Tenant.resetCount hsettled :)
  have hdrain : t.drain.map (fun x : Drain => { x with ended := 0 }) = (drainMark d k n drain (tn d n)).map (fun x : Drain => { x with ended := 0 }) :=
    (congrArg Tenant.drain hsettled :)
  have hsome := congrArg Option.isSome hdrain
  rw [Option.isSome_map, Option.isSome_map] at hsome
  rw [tn_beginReset, ht]
  exact ⟨hgen, hcount, hsome.trans (by cases drain <;> rfl)⟩

theorem resetTenantEff_of_turn {c : Cmd} {d : Dev} (h : resetWaits d (c.b2 0) (ctxOf d c.k).fetchNo = true) :
    resetTenantEff c d = (d, .waits (.resetTurn (c.b2 0))) := by
  simp [resetTenantEff, h]

/-- The reset made, RESET_TENANT completes, or waits for its drain. -/
theorem resetTenantEff_of_free {c : Cmd} {d : Dev} (h : resetWaits d (c.b2 0) (ctxOf d c.k).fetchNo = false) {drain : Bool} (hdrain : bit (c.b1 2) 0 = drain) :
    resetTenantEff c d =
      match (tn (beginReset d c.k (c.b2 0) drain) (c.b2 0)).drain with
      | none => (beginReset d c.k (c.b2 0) drain, ok (resetResult (tn d (c.b2 0)).gen (tn (beginReset d c.k (c.b2 0) drain) (c.b2 0)).gen 0
          (tn (beginReset d c.k (c.b2 0) drain) (c.b2 0)).resetCount))
      | some x =>
        if drained (beginReset d c.k (c.b2 0) drain) (c.b2 0) (tn d (c.b2 0)).gen then
          (modTn (beginReset d c.k (c.b2 0) drain) (c.b2 0) fun t => { t with drain := none }, ok (resetResult x.oldGen x.newGen x.ended x.resets))
        else (beginReset d c.k (c.b2 0) drain, .waits (.tenantDrain (c.b2 0))) := by
  subst hdrain
  simp only [resetTenantEff, h, Bool.false_eq_true, if_false] <;> rfl

theorem resetTenant_ends {s : State} {k : Nat} {i : Inputs} {c : Cmd} {d : Dev} (h : reach cardResetTenant s.dev k i = some (c, d))
    (hwf : tabWf {} d.tenants = true) (hturn : resetWaits d (c.b2 0) (ctxOf d k).fetchNo = false) (hflag : c.b1 2 = 0) :
    (tn (beginReset d k (c.b2 0) false) (c.b2 0)).drain = none ∧
    ends (.resetTenant k i) s d (beginReset d k (c.b2 0) false) k
      (rep (resetResult (tn d (c.b2 0)).gen (newGen d (.vf (c.b2 0))) 0 (((tn d (c.b2 0)).resetCount + 1) % 256)) []) i := by
  obtain ⟨rfl, -, -⟩ := execCard_of_reach h
  obtain ⟨hgen, hcount, hdrain⟩ := beginReset_tenant hwf c.k (c.b2 0) false
  have hnone : (tn (beginReset d c.k (c.b2 0) false) (c.b2 0)).drain = none := by simpa using hdrain
  refine ⟨hnone, ends_of_eff rfl h ?_⟩
  show resetTenantEff c d = _
  rw [resetTenantEff_of_free hturn (drain := false) (by rw [hflag]; rfl), hnone, hgen, hcount]
  rfl

theorem resetTenant_waits_drain {s : State} {k : Nat} {i : Inputs} {c : Cmd} {d : Dev} (h : reach cardResetTenant s.dev k i = some (c, d))
    (hwf : tabWf {} d.tenants = true) (hturn : resetWaits d (c.b2 0) (ctxOf d k).fetchNo = false) (hflag : c.b1 2 = 1)
    (hdrained : drained (beginReset d k (c.b2 0) true) (c.b2 0) (tn d (c.b2 0)).gen = false) :
    leavesWaiting (.resetTenant k i) s (beginReset d k (c.b2 0) true) k (.tenantDrain (c.b2 0)) i := by
  obtain ⟨rfl, -, -⟩ := execCard_of_reach h
  obtain ⟨-, -, hdrain⟩ := beginReset_tenant hwf c.k (c.b2 0) true
  obtain ⟨x, hx⟩ := Option.isSome_iff_exists.mp hdrain
  refine waits_of_eff rfl h ?_
  show resetTenantEff c d = _
  rw [resetTenantEff_of_free hturn (drain := true) (by rw [hflag]; rfl), hx]
  simp [hdrained]

theorem resetTenant_ends_drained {s : State} {k : Nat} {i : Inputs} {c : Cmd} {d : Dev} {x : Drain} (h : reach cardResetTenant s.dev k i = some (c, d))
    (hturn : resetWaits d (c.b2 0) (ctxOf d k).fetchNo = false) (hflag : c.b1 2 = 1)
    (hdrained : drained (beginReset d k (c.b2 0) true) (c.b2 0) (tn d (c.b2 0)).gen = true)
    (hx : (tn (beginReset d k (c.b2 0) true) (c.b2 0)).drain = some x) :
    ends (.resetTenant k i) s d (modTn (beginReset d k (c.b2 0) true) (c.b2 0) fun t => { t with drain := none }) k
      (rep (resetResult x.oldGen x.newGen x.ended x.resets) []) i := by
  obtain ⟨rfl, -, -⟩ := execCard_of_reach h
  refine ends_of_eff rfl h ?_
  show resetTenantEff c d = _
  rw [resetTenantEff_of_free hturn (drain := true) (by rw [hflag]; rfl), hx]
  simp [hdrained]
  rfl

theorem resetTenant_waits_turn {s : State} {k : Nat} {i : Inputs} {c : Cmd} {d : Dev} (h : reach cardResetTenant s.dev k i = some (c, d))
    (hturn : resetWaits d (c.b2 0) (ctxOf d k).fetchNo = true) : leavesWaiting (.resetTenant k i) s d k (.resetTurn (c.b2 0)) i := by
  obtain ⟨rfl, -, -⟩ := execCard_of_reach h
  exact waits_of_eff rfl h (resetTenantEff_of_turn hturn)

/-! ## LOG_READ -/

/-- READ_MAX once the entry of a number has been read: it starts there, and only rises (04 R120). -/
def readUpTo (readMax seq : Nat) : Nat := if readMax = 0xFFFFFFFFFFFFFFFF then seq else max readMax seq

theorem logRead_eff {c : Cmd} {d : Dev} {e : LogEntry} {t : List LogEntry} (h : logSlice c d = e :: t) :
    cardLogRead.eff c d = ({ d with sen.readMax := readUpTo d.sen.readMax ((e :: t).getLast (by simp)).seq },
      .done (rep (natLe 8 e.seq ++ natLe 4 (t.length + 1)) ((e :: t).flatMap logBytes))) := by
  have hlast : (e :: t).getLast? = some ((e :: t).getLast (by simp)) := List.getLast?_eq_some_getLast (by simp)
  simp only [cardLogRead, h, hlast]
  rfl

/-- Settles O17: each clause is its card's effect, and a reset's is what `beginReset_tenant` says of its tenant. -/
theorem managementCommandsComplete : Obligations.ManagementCommandsComplete := by
  unfold Obligations.ManagementCommandsComplete
  refine ⟨fun s k i c d h => ends_of_eff rfl h rfl, fun s k i c d h => ends_of_eff rfl h ?_, fun s k i c d h => ends_of_eff rfl h ?_,
    fun s k i c d h => ends_of_eff rfl h rfl, fun s k i c d h hwf hturn hflag => resetTenant_ends h hwf hturn hflag,
    fun s k i c d h e t hslice => ends_of_eff rfl h (logRead_eff hslice),
    fun s k i c d h hwf hturn hflag hdrained => resetTenant_waits_drain h hwf hturn hflag hdrained,
    fun s k i c d x h hturn hflag hdrained hx => resetTenant_ends_drained h hturn hflag hdrained hx,
    fun s k i c d h hturn => resetTenant_waits_turn h hturn, fun s k n x hwait hdrain hctx hcode hdrained => ?_⟩
  · simp only [cardGetStatus, statusWord_eq]
    rfl
  · simp only [cardSetTenantConfig, withPolicy_eq]
    rfl
  · refine leaves_of (resetTenantDrainEndEff k) rfl ?_
    simp only [resetTenantDrainEndEff, hwait, hdrain, hctx, hcode, hdrained, and_self, if_true]
    rfl

end Sys2Proof.Machine
end

section
/-! SUPPORT. The vault commands (07 R225 to R229; O18). -/

namespace Sys2Proof.Machine

open Sys2Proof.Safety

/-! ## VAULT_LOAD_BEGIN -/

theorem joined_of_ring {d e : Dev} (h : e.ring = d.ring) : joined e = joined d := by rw [joined, joined, h]

theorem drawRecordKeys_ring (d : Dev) : (drawRecordKeys d).ring = d.ring := by
  unfold drawRecordKeys
  split <;> rfl

theorem drawRecordKeys_vmp (d : Dev) : (drawRecordKeys d).vmp = d.vmp := by
  unfold drawRecordKeys
  split <;> rfl

theorem formatVault_ring (d : Dev) (p : Population) (accept : Bool) : (formatVault d p accept).ring = d.ring := by
  have hkeys : (if d.keys.maskKey.isNone then drawRecordKeys d else d).ring = d.ring := by
    split
    · exact drawRecordKeys_ring d
    · rfl
  unfold formatVault
  rw [apply_ite Dev.ring, logVault, submit_ring, ite_self]
  exact hkeys

theorem formatVault_vmp (d : Dev) (p : Population) (accept : Bool) :
    (formatVault d p accept).vmp.st = 0x55 ∧ (formatVault d p accept).vmp.slots = [] ∧ (formatVault d p accept).vmp.mirrored = d.vmp.mirrorCfg := by
  unfold formatVault
  rw [apply_ite Dev.vmp, logVault, submit_vmp, ite_self]
  exact ⟨rfl, rfl, rfl⟩

theorem vaultLoadBegin_eff {c : Cmd} {d : Dev} {p : Population} (hring : joined d = false) (hp : population d = some p) :
    cardVaultLoadBegin.eff c d = (formatVault d p (bit (c.b1 0) 0), .done (rep (natLe 4 (slotCount (formatVault d p (bit (c.b1 0) 0)).vmp.n) ++
      natLe 4 (groupCount (formatVault d p (bit (c.b1 0) 0)).vmp.n) ++ natLe 1 (if d.vmp.mirrorCfg then 1 else 0)) [])) := by
  have hjoined : joined (formatVault d p (bit (c.b1 0) 0)) = false := (joined_of_ring (formatVault_ring ..)).trans hring
  obtain ⟨-, -, hmirrored⟩ := formatVault_vmp d p (bit (c.b1 0) 0)
  simp only [cardVaultLoadBegin, hp, hjoined, hmirrored, Bool.false_eq_true, if_false]
  rfl

/-! ## VAULT_LOAD_RECORDS and VAULT_LOAD_END -/

theorem vaultLoadRecords_eff {c : Cmd} {d e : Dev} {n : Counts} (h : loadAll (bit (c.b1 0) 0) (chunks 168 c.data) {} d = (e, n, stOk)) :
    cardVaultLoadRecords.eff c d = (e, .done { status := stOk, result := n.bytes, data := [] }) := by
  simp only [cardVaultLoadRecords, h]
  rfl

theorem imageRecords_of_not_joined {k : Nat} {d : Dev} (h : joined d = false) : imageRecords k d = (d, some (heldRecords d ++ d.vmp.tombs)) := by
  simp [imageRecords, h]

theorem logDropped_ring (d : Dev) (l : List Record) : (logDropped d l).ring = d.ring := by
  unfold logDropped
  generalize (l.map Record.handle).eraseDups = hs
  induction hs generalizing d with
  | nil => rfl
  | cons h t ih => exact (ih _).trans rfl

theorem loadEndEff_of_passed {c : Cmd} {d e : Dev} {l : List Record} (hring : joined d = false) (hl : l = (heldRecords d ++ d.vmp.tombs).filter isLive)
    (hchecks : loadEndFail c d l = none) (hedit : applyEdit d { puts := [], drops := brokenChains l } = (e, true)) (hafter : joined e = false) :
    loadEndEff c d = (logVault (vaultReady (logDropped e (brokenChains l))) 1 (natLe 8 (l.length - (brokenChains l).length)),
      ok (natLe 8 (l.length - (brokenChains l).length) ++ natLe 4 ((brokenChains l).map Record.handle).eraseDups.length)) := by
  subst hl
  have hjoined : ∀ x, joined (logVault (vaultReady (logDropped e x)) 1
      (natLe 8 (((heldRecords d ++ d.vmp.tombs).filter isLive).length - x.length))) = false := fun x =>
    (joined_of_ring (logDropped_ring e x)).trans hafter
  simp only [loadEndEff, imageRecords_of_not_joined hring, hring, hchecks, hedit, hjoined, Bool.false_eq_true, if_false]

/-! ## VAULT_SAVE -/

theorem saveManifest_of_key {d : Dev} {all : List Record} {n : Nat} {key : Bytes} (hring : joined d = false) (hkey : manifestKey d = some key)
    {live : List Record} (hlive : live = all.filter fun r => isLive r && decide (r.changeSeq ≤ n))
    {body : Bytes} (hbody : body = manifestBody d.otp.serial (d.vmp.manifestSeq + 1) n (now d) live.length (imageDigest live)) :
    saveManifest d all n = ({ d with vmp.manifestSeq := d.vmp.manifestSeq + 1 },
      .done (rep (natLe 8 (d.vmp.manifestSeq + 1) ++ natLe 8 n) (body ++ aesCmac key body))) := by
  subst hlive hbody
  simp only [saveManifest, hkey, hring, Bool.false_eq_true, if_false]
  rfl

/-- With no ring, VAULT_SAVE's effect is that of its operation on what this vault holds. -/
theorem saveEff_of_not_joined {c : Cmd} {d : Dev} (hring : joined d = false) : saveEff c d =
    if c.b1 0 = 1 then saveManifest d (heldRecords d ++ d.vmp.tombs) (highest (heldRecords d ++ d.vmp.tombs))
    else saveRecords c d (heldRecords d ++ d.vmp.tombs) (highest (heldRecords d ++ d.vmp.tombs)) := by
  simp only [saveEff, imageRecords_of_not_joined hring, hring, Bool.false_eq_true, if_false]
  split
  next heq => exact heq.symm
  next heq => exact heq.symm

theorem mem_insertBy {α : Type} {key : α → Nat} {a x : α} {l : List α} : x ∈ insertBy key a l ↔ x = a ∨ x ∈ l := by
  induction l with
  | nil => rw [insertBy, List.mem_singleton]; simp
  | cons b t ih =>
    rw [insertBy]
    split
    · exact List.mem_cons
    · rw [List.mem_cons, ih, List.mem_cons]
      tauto

theorem mem_sortBy {α : Type} {key : α → Nat} {x : α} {l : List α} : x ∈ sortBy key l ↔ x ∈ l := by
  suffices h : ∀ acc, x ∈ l.foldl (fun acc a => insertBy key a acc) acc ↔ x ∈ acc ∨ x ∈ l by simpa [sortBy] using h []
  induction l with
  | nil => simp
  | cons a t ih =>
    intro acc
    rw [List.foldl_cons, ih, mem_insertBy, List.mem_cons]
    tauto

/-- A slot that has a bank in force is sealed under it, with nothing filled (07 R218). -/
theorem sealingBank_of_inForce {d : Dev} {tenant : Nat} {b : Bool} (h : bankInForce d (rootSlot d (0x1000 + tenant)) = some b) :
    sealingBank d tenant = (d, some (if b then (rootSlot d (0x1000 + tenant)).b else (rootSlot d (0x1000 + tenant)).a)) := by
  simp [sealingBank, h]

/-- Records of one tenant whose slot has a bank in force are sealed under it, every one. -/
theorem sealAll_of_inForce {d : Dev} {tenant : Nat} {bank : Bank} (hbank : sealingBank d tenant = (d, some bank)) {l : List Record}
    (hl : ∀ r ∈ l, hTenant r.handle = tenant) (last : Nat) :
    sealAll l last d = (d, l.flatMap (sealRecord d bank), l.length, (l.map Record.changeSeq).getLastD last, true) := by
  induction l generalizing last with
  | nil => rfl
  | cons r t ih =>
    have hr : hTenant r.handle = tenant := hl r List.mem_cons_self
    have ht := ih (fun x hx => hl x (List.mem_cons_of_mem _ hx)) r.changeSeq
    simp only [sealAll, hr, hbank, ht, List.flatMap_cons, List.length_cons, List.map_cons, List.getLastD_cons]

/-- The records that VAULT_SAVE OP 2 is asked for: one tenant's live records, changed since a CHANGE_SEQ (07 R228). -/
def tenantRecords (d : Dev) (since tenant : Nat) : List Record :=
  sortBy Record.changeSeq ((currentOf (heldRecords d ++ d.vmp.tombs)).filter fun r =>
    decide (since < r.changeSeq) && decide (r.changeSeq ≤ highest (heldRecords d ++ d.vmp.tombs)) && (isLive r && hTenant r.handle == tenant))

theorem tenant_of_mem_tenantRecords {d : Dev} {since tenant : Nat} {r : Record} (h : r ∈ tenantRecords d since tenant) : hTenant r.handle = tenant := by
  obtain ⟨-, hr⟩ := List.mem_filter.mp (mem_sortBy.mp h)
  simp only [Bool.and_eq_true, beq_iff_eq] at hr
  exact hr.2.2

theorem saveRecords_of_tenant {c : Cmd} {d : Dev} (hop : c.b1 0 = 2) {b : Bool} (hb : bankInForce d (rootSlot d (0x1000 + c.b2 2)) = some b) {bank : Bank}
    (hbank : bank = (if b then (rootSlot d (0x1000 + c.b2 2)).b else (rootSlot d (0x1000 + c.b2 2)).a)) (hcode : bank.code = 0x55)
    {l : List Record} (hl : l = (tenantRecords d (c.b8 8) (c.b2 2)).take (min (c.b4 4) (c.cap / 168))) :
    saveRecords c d (heldRecords d ++ d.vmp.tombs) (highest (heldRecords d ++ d.vmp.tombs)) = (d, .done
      { status := stOk
        result := natLe 4 l.length ++ natLe 1 (if l.length < (tenantRecords d (c.b8 8) (c.b2 2)).length then 1 else 0) ++ zeroBytes 3 ++
          natLe 8 ((l.map Record.changeSeq).getLastD (c.b8 8))
        data := l.flatMap (sealRecord d bank) }) := by
  have htenant : ∀ r ∈ l, hTenant r.handle = c.b2 2 := fun r hr => by
    rw [hl] at hr
    exact tenant_of_mem_tenantRecords (List.mem_of_mem_take hr)
  have hfill : l.any (needsFill d) = false := List.any_eq_false.mpr fun r hr => by
    rw [needsFill, htenant r hr]
    cases b
    · have ha : (rootSlot d (0x1000 + c.b2 2)).a.code = 0x55 := by rw [← hcode, hbank]; rfl
      simp [ha]
    · have hb : (rootSlot d (0x1000 + c.b2 2)).b.code = 0x55 := by rw [← hcode, hbank]; rfl
      simp [hb]
  have hseal := sealAll_of_inForce (hbank ▸ sealingBank_of_inForce hb) htenant (c.b8 8)
  have hwanted : sortBy Record.changeSeq ((currentOf (heldRecords d ++ d.vmp.tombs)).filter fun r => decide (c.b8 8 < r.changeSeq) &&
      decide (r.changeSeq ≤ highest (heldRecords d ++ d.vmp.tombs)) && (c.b1 0 == 0 || isLive r && hTenant r.handle == c.b2 2)) =
      tenantRecords d (c.b8 8) (c.b2 2) := by
    rw [hop]
    rfl
  have hop0 : (c.b1 0 == 0) = false := by rw [hop]; rfl
  rw [saveRecords]
  simp only [hwanted]
  simp only [← hl, hfill, hseal, hop0, Bool.false_and, Bool.false_eq_true, if_false, if_true]

/-- Settles O18: each clause is its card's effect on a module in no ring, which sees what its own vault holds. -/
theorem vaultCommandsComplete : Obligations.VaultCommandsComplete := by
  unfold Obligations.VaultCommandsComplete
  refine ⟨fun s k i c d h hring p hp => ?_, fun s k i c d h e n hload => ends_of_eff rfl h (vaultLoadRecords_eff hload),
    fun s k i c d h hring l e hl hchecks hedit hafter => ends_of_eff rfl h (loadEndEff_of_passed hring hl hchecks hedit hafter),
    fun s k i c d h hring hop key hkey all live body hall hlive hbody => ends_of_eff rfl h ?_,
    fun s k i c d h hring hop l hl b hb bank hbank hcode n hn => ends_of_eff rfl h ?_,
    fun s k i c d h l hl => ends_of_eff rfl h (by rw [hl]; rfl)⟩
  · obtain ⟨hst, hslots, hmirrored⟩ := formatVault_vmp d p (bit (c.b1 0) 0)
    exact ⟨_, rfl, hst, hslots, hmirrored, ends_of_eff rfl h (vaultLoadBegin_eff hring hp)⟩
  · subst hall
    show saveEff c d = _
    rw [saveEff_of_not_joined hring, if_pos hop, saveManifest_of_key hring hkey hlive hbody]
  · subst hl hn
    have hnot : c.b1 0 ≠ 1 := by omega
    show saveEff c d = _
    rw [saveEff_of_not_joined hring, if_neg hnot, saveRecords_of_tenant hop hb hbank hcode rfl]
    rfl

end Sys2Proof.Machine
end

section
/-! SUPPORT. Statements of one step: commands without a key handle, the PROTECTED ranges, the sideband (01 R20; 02 R40, R41; 13 R382; O11, O14, O46). -/

namespace Sys2Proof.Machine

open Sys2Proof.Safety

theorem runRoute_of_no_route {card : Card} {c : Cmd} (h : card.route c = none) (d : Dev) : runRoute card d c = runRecords card d c := by
  rw [runRoute, h, ite_self]

/-- Settles O11: the cards named have no route, and without one `runRoute` goes on here. -/
theorem localCommands : Obligations.LocalCommands := by
  unfold Obligations.LocalCommands
  refine ⟨?_, fun card d c h => runRoute_of_no_route h d⟩
  simp only [List.forall_mem_cons, List.not_mem_nil, false_implies, implies_true, and_true]
  repeat' apply And.intro
  all_goals exact fun _ => rfl

/-- A PROTECTED entry permits nothing to the classes it masks out (13 R382). -/
theorem entryPermits_of_prot {no : Nat} {e : ActEntry} {cls : Nat} (hprot : e.prot = true) (hcls : maskedOut cls = true) (kind : Access) :
    entryPermits no e cls kind = false := by
  simp [entryPermits, hprot, hcls]

/-- A STOPPED table permits a class other than HOST and the sentinel nothing (13 R392). -/
theorem stoppedPermits_of_ne {cls : Nat} (hhost : cls ≠ 4) (hsen : cls ≠ 10) (d : Dev) (addr : Nat) (kind : Access) :
    stoppedPermits d cls addr kind = false := by
  simp [stoppedPermits, hhost, hsen]

/-- Settles O14: the table in force denies by its entry, a STOPPED one by the class. -/
theorem protectedRanges : Obligations.ProtectedRanges := by
  unfold Obligations.ProtectedRanges
  intro d cls addr kind no e hstopped hdecider hprot hcls
  have hmasked : maskedOut cls = true := by
    rcases hcls with rfl | rfl | rfl | rfl <;> rfl
  rw [decideAccess]
  split
  next hst => exact stoppedPermits_of_ne (hstopped.resolve_left (not_not_intro hst)) (by omega) d addr kind
  next => rw [hdecider]; exact entryPermits_of_prot hprot hmasked kind

/-- Settles O46: each clause is its command's effect where the auxiliary logic is up. -/
theorem sidebandCompletes : Obligations.SidebandCompletes := by
  unfold Obligations.SidebandCompletes
  refine ⟨fun s hup => leaves_of smbusStatusReadEff rfl (if_pos hup), fun s => rfl, fun s code value => rfl, fun s straps hup hne =>
    ⟨fun hlog => leaves_of (bayIdChangeEff straps) rfl ?_, fun hlog => leaves_of (bayIdChangeEff straps) rfl ?_⟩⟩
  · simp [bayIdChangeEff, hup, hne, hlog]
  · simp only [bayIdChangeEff, hup, hne, hlog, ne_eq, not_false_eq_true, and_self, if_true]
    rfl

end Sys2Proof.Machine
end

section
/-! SUPPORT. LIFECYCLE_TRANSITION and its course (14 R400, R401, R420; O19): every context is freed at the end of the drain but for those whose writes are
held. -/

namespace Sys2Proof.Machine

open Sys2Proof.Safety

/-! ## The table of contexts stays in its canonical form -/

/-- A canonical table of contexts stays canonical. -/
def KeepsCtxs (d e : Dev) : Prop := tabWf {} d.sch.ctxs = true → tabWf {} e.sch.ctxs = true

theorem KeepsCtxs.of_sch {d e : Dev} (h : e.sch = d.sch) : KeepsCtxs d e := fun hwf => by rw [h]; exact hwf

theorem KeepsCtxs.trans {a b c : Dev} (h : KeepsCtxs a b) (g : KeepsCtxs b c) : KeepsCtxs a c := fun hwf => g (h hwf)

theorem KeepsCtxs.foldl {β : Type} (f : Dev → β → Dev) (hf : ∀ d b, KeepsCtxs d (f d b)) (l : List β) (d : Dev) : KeepsCtxs d (l.foldl f d) := by
  induction l generalizing d with
  | nil => exact fun hwf => hwf
  | cons b t ih => exact (hf d b).trans (ih _)

theorem MsixOnly.keepsCtxs {d e : Dev} (h : MsixOnly d e) : KeepsCtxs d e := by
  obtain ⟨_, _, _, _, rfl⟩ := h
  exact .of_sch rfl

theorem keepsCtxs_modCtx (d : Dev) (k : Nat) (f : Ctx → Ctx) : KeepsCtxs d (modCtx d k f) := tabWf_put _ _ _ _

theorem keepsCtxs_freeCtx (d : Dev) (k : Nat) : KeepsCtxs d (freeCtx d k) := fun hwf => by
  rw [freeCtx_ctxs]
  exact tabWf_put _ _ _ _ hwf

theorem keepsCtxs_wake (d : Dev) (k : Nat) : KeepsCtxs d (wake d k) := by
  unfold wake
  split
  · exact keepsCtxs_modCtx d k fun c => { c with code := csReady, wait := .nothing, want := none }
  · exact .of_sch rfl

theorem keepsCtxs_fenceAfter (d : Dev) (fn : Fn) (q : Nat) : KeepsCtxs d (fenceAfter d fn q) := by
  unfold fenceAfter
  dsimp only
  split
  · exact .of_sch (setQp_sch ..)
  · split
    · exact .foldl _ keepsCtxs_wake _ _
    · exact .of_sch rfl

theorem keepsCtxs_writeOuts (d : Dev) (c : Ctx) (outs : List (Nat × Bytes)) : KeepsCtxs d (writeOuts d c outs) := by
  refine .foldl _ (fun d o => ?_) _ _
  split <;> exact (msixOnly_dma _ _ _ _).keepsCtxs

theorem keepsCtxs_deliver (d : Dev) (k : Nat) (r : Reply) (ok fwd : Bool) : KeepsCtxs d (deliver d k r ok fwd) := by
  unfold deliver
  dsimp only
  refine .trans (keepsCtxs_writeOuts d (ctxOf d k) r.outs) (.trans ?_ (.trans ((msixOnly_dma _ _ _ _).keepsCtxs.trans (.of_sch (setQp_sch ..)))
    ((keepsCtxs_freeCtx _ _).trans (.trans (.of_sch (coalesce_out _ _ _ _).2) (keepsCtxs_fenceAfter _ _ _)))))
  split
  · exact .of_sch rfl
  · exact (msixOnly_dma _ _ _ _).keepsCtxs

theorem sendFrame_sch (d : Dev) (dst : Nat) (b : FrameBody) : (sendFrame d dst b).sch = d.sch := by
  obtain ⟨r, o, h⟩ := sendFrame_changes d dst b
  rw [h]

theorem keepsCtxs_finishWith (d : Dev) (k : Nat) (r : Reply) (ok fwd : Bool) : KeepsCtxs d (finishWith d k r ok fwd) := by
  have hoff : KeepsCtxs d (offCore d k) := fun hwf => by rw [offCore_ctxs]; exact hwf
  unfold finishWith
  dsimp only
  split
  · split
    · exact (keepsCtxs_freeCtx _ _).trans (.of_sch (sendFrame_sch ..))
    · exact keepsCtxs_freeCtx _ _
  · split
    · exact .trans (.of_sch (countDiscard_sch ..)) (keepsCtxs_freeCtx _ _)
    · split
      · exact keepsCtxs_freeCtx _ _
      · split
        · split <;> exact hoff.trans (keepsCtxs_modCtx _ _ _)
        · exact keepsCtxs_deliver _ _ _ _ _

/-! ## Many contexts freed -/

theorem foldl_freeCtx_out (l : List Nat) (d : Dev) : (l.foldl freeCtx d).out = d.out := by
  induction l generalizing d with
  | nil => rfl
  | cons k t ih => exact (ih _).trans (freeCtx_out d k)

/-- Of a list of contexts freed, those listed and those free before are free; the rest stay as they were. -/
theorem ctxOf_foldl_freeCtx {l : List Nat} {d : Dev} (hwf : tabWf {} d.sch.ctxs = true) (j : Nat) :
    (j ∈ l ∨ (ctxOf d j).code = csFree → (ctxOf (l.foldl freeCtx d) j).code = csFree) ∧ (j ∉ l → ctxOf (l.foldl freeCtx d) j = ctxOf d j) := by
  induction l generalizing d with
  | nil => exact ⟨fun h => h.resolve_left List.not_mem_nil, fun _ => rfl⟩
  | cons k t ih =>
    obtain ⟨hfree, hsame⟩ := ih (keepsCtxs_freeCtx d k hwf)
    have hk := ctxOf_freeCtx hwf k j
    rw [List.foldl_cons]
    refine ⟨fun h => hfree ?_, fun h => ?_⟩
    · by_cases hjk : j = k
      · exact .inr (by rw [hk, if_pos hjk]; rfl)
      · rw [hk, if_neg hjk]
        exact h.imp_left fun h => (List.mem_cons.mp h).resolve_left hjk
    · rw [List.mem_cons, not_or] at h
      rw [hsame h.2, hk, if_neg h.1]

/-- A read of a table gives its default or what the table lists under the key. -/
theorem tabGet_eq_or_mem {α : Type} (d : α) (t : Tab α) (k : Nat) : tabGet d t k = d ∨ (k, tabGet d t k) ∈ t := by
  induction t with
  | nil => exact .inl rfl
  | cons p t ih =>
    obtain ⟨k', v⟩ := p
    rw [tabGet]
    split
    next h => exact .inr (by rw [h]; exact List.mem_cons_self)
    next => exact ih.imp_right (List.mem_cons_of_mem _)

/-- A context that a test of held contexts does not list fails the test. -/
theorem not_of_not_mem_ctxsWhere {d : Dev} {p : Ctx → Bool} (hp : p {} = false) {j : Nat} (h : j ∉ ctxsWhere d p) : p (ctxOf d j) = false := by
  rcases tabGet_eq_or_mem ({} : Ctx) d.sch.ctxs j with hdefault | hmem
  · rw [ctxOf, hdefault, hp]
  · refine Bool.eq_false_iff.mpr fun htrue => h ?_
    exact List.mem_map.mpr ⟨_, List.mem_filter.mpr ⟨hmem, htrue⟩, rfl⟩

/-- Once every held context without held writes is freed, each is free or holds its writes. -/
theorem free_or_writesHeld {d : Dev} (hwf : tabWf {} d.sch.ctxs = true) (j : Nat) :
    (ctxOf ((ctxsWhere d fun c => ctxHeld c && !writesHeld c).foldl freeCtx d) j).code = csFree ∨
      writesHeld (ctxOf ((ctxsWhere d fun c => ctxHeld c && !writesHeld c).foldl freeCtx d) j) = true := by
  obtain ⟨hfree, hsame⟩ := ctxOf_foldl_freeCtx (l := ctxsWhere d fun c => ctxHeld c && !writesHeld c) hwf j
  by_cases hmem : j ∈ ctxsWhere d fun c => ctxHeld c && !writesHeld c
  · exact .inl (hfree (.inl hmem))
  · have hnot := not_of_not_mem_ctxsWhere (by rfl) hmem
    rw [hsame hmem]
    simp only [ctxHeld, Bool.and_eq_false_iff, bne_eq_false_iff_eq, Bool.not_eq_false'] at hnot
    exact hnot

/-! ## The end of the drain -/

/-- The device of a drain's end: INTENT programmed and logged (14 R401 step 2). -/
def intentProgrammed (d : Dev) : Dev :=
  logLifeCycle { d with otp.lcWord := setIntent d.otp.lcWord (lcTransition d.lcd.pendingTarget), lcd.phase := .wiping } (lcTransition d.lcd.pendingTarget) false

/-- The EXECUTE that a drain's end completes (14 R401 step 3). -/
def executeCompleted (d : Dev) : Dev :=
  match d.lcd.execCtx with
  | some k => finishWith (intentProgrammed d) k { bare stOk with result := natLe 1 d.lcd.pendingTarget ++ zeroBytes 7 ++ natLe 8 (now d) } true false
  | none => intentProgrammed d

/-- What a drain's end leaves: EXECUTE completed, and every other command freed (14 R401 steps 2 to 4). -/
def drainEnded (d : Dev) : Dev :=
  (ctxsWhere (executeCompleted d) fun c => ctxHeld c && !writesHeld c).foldl freeCtx { executeCompleted d with lcd.execCtx := none }

theorem lifecycleDrainEndEff_of_draining {d : Dev} (h : d.lcd.phase = .draining) : lifecycleDrainEndEff d = drainEnded d := if_pos h

theorem endsOnly_executeCompleted (d : Dev) : EndsOnly (intentProgrammed d) (executeCompleted d) := by
  unfold executeCompleted
  split
  · exact endsOnly_finishWith _ _ _ _ _
  · exact .refl _

theorem endsOnly_drainEnded (d : Dev) : EndsOnly { executeCompleted d with lcd.execCtx := none } (drainEnded d) := .foldl _ endsOnly_freeCtx _ _

theorem keepsCtxs_executeCompleted (d : Dev) : KeepsCtxs d (executeCompleted d) := by
  unfold executeCompleted
  split
  · exact .trans (b := intentProgrammed d) (.of_sch rfl) (keepsCtxs_finishWith _ _ _ _ _)
  · exact .of_sch rfl

theorem EndsOnly.lcd {d e : Dev} (h : EndsOnly d e) : ∃ cards, e.lcd = { d.lcd with cards := cards } := by
  obtain ⟨_, _, _, _, _, cards, _, _, _, _, _, _, _, _, rfl, -⟩ := h
  exact ⟨cards, rfl⟩

theorem drainEnded_lcd (d : Dev) : (drainEnded d).lcd.phase = .wiping ∧ (drainEnded d).lcd.execCtx = none := by
  obtain ⟨cards, hx⟩ := (endsOnly_executeCompleted d).lcd
  obtain ⟨cards', hy⟩ := (endsOnly_drainEnded d).lcd
  rw [hy]
  exact ⟨(congrArg Lcd.phase hx :), rfl⟩

theorem EndsOnly.vmp_st {d e : Dev} (h : EndsOnly d e) : ∃ st, e.vmp = { d.vmp with st := st } ∧ (d.vmp.st ≠ 0x33 → st = d.vmp.st) := by
  obtain ⟨_, _, _, _, _, _, _, _, _, _, _, st, _, _, rfl, hst⟩ := h
  exact ⟨st, rfl, hst⟩

theorem drainEnded_vmp (d : Dev) : { (drainEnded d).vmp with st := d.vmp.st } = d.vmp ∧ (d.vmp.st ≠ 0x33 → (drainEnded d).vmp.st = d.vmp.st) := by
  obtain ⟨x, hx, hxst⟩ := (endsOnly_executeCompleted d).vmp_st
  obtain ⟨y, hy, hyst⟩ := (endsOnly_drainEnded d).vmp_st
  have hvmp : (drainEnded d).vmp = { d.vmp with st := y } := hy.trans (congrArg (fun v : Vmp => { v with st := y }) hx)
  rw [hvmp]
  refine ⟨rfl, fun hne => ?_⟩
  have hfirst : (executeCompleted d).vmp.st = d.vmp.st := (congrArg Vmp.st hx).trans (hxst hne)
  exact (hyst (by rw [hfirst]; exact hne)).trans hfirst

theorem drainEnded_otp (d : Dev) : (drainEnded d).otp = { d.otp with lcWord := setIntent d.otp.lcWord (lcTransition d.lcd.pendingTarget) } :=
  (endsOnly_drainEnded d).otp.trans (endsOnly_executeCompleted d).otp

theorem drainEnded_keys (d : Dev) : (drainEnded d).keys = d.keys := (endsOnly_drainEnded d).keys.trans (endsOnly_executeCompleted d).keys

theorem drainEnded_out (d : Dev) : (drainEnded d).out = (executeCompleted d).out := foldl_freeCtx_out _ _

theorem drainEnded_ctxs {d : Dev} (hwf : tabWf {} d.sch.ctxs = true) (j : Nat) :
    (ctxOf (drainEnded d) j).code = csFree ∨ writesHeld (ctxOf (drainEnded d) j) = true :=
  free_or_writesHeld (d := { executeCompleted d with lcd.execCtx := none }) (keepsCtxs_executeCompleted d hwf) j

/-! ## A transition completed -/

theorem completeTransition_facts (d : Dev) {t : Nat} (hlow : 1 ≤ t) (hhigh : t ≤ 4) :
    (completeTransition t d).otp.lcWord = setDone (setIntent d.otp.lcWord t) t ∧
    (t = 1 ∨ t = 3 ∨ t = 4 → (completeTransition t d).keys.root = [] ∧ (completeTransition t d).keeper.cells0 = none ∧
      (completeTransition t d).keeper.cells1 = none) := by
  obtain rfl | hwipes : t = 2 ∨ (t = 1 ∨ t = 3 ∨ t = 4) := by omega
  · exact ⟨rfl, by omega⟩
  · rcases hwipes with rfl | rfl | rfl <;> exact ⟨rfl, fun _ => ⟨rfl, rfl, rfl⟩⟩

/-! ## LIFECYCLE_TRANSITION -/

/-- EXECUTE begun: the drain is under way, and its command waits (14 R401 step 1). -/
def drainBegun (d : Dev) (k target : Nat) : Dev :=
  { d with lcd.token := none, lcd.phase := .draining, lcd.execCtx := some k, lcd.pendingTarget := target }

theorem lifecycleEff_of_no_token {c : Cmd} {d : Dev} (hop : c.b1 0 = 2) (h : lcNeedsToken d.lcd.st (c.b1 1) = false) :
    lifecycleEff c d = (drainBegun d c.k (c.b1 1), .waits .lifecycle) := by
  simp only [lifecycleEff, hop, h, Bool.false_and, Bool.false_eq_true, if_false]
  rfl

theorem lifecycleEff_of_token {c : Cmd} {d : Dev} {t : TokenSession} (hop : c.b1 0 = 2) (h : lcNeedsToken d.lcd.st (c.b1 1) = true)
    (ht : d.lcd.token = some t) : lifecycleEff c d =
      if tokenDigest d.otp.serial (c.b1 1) (tokenOf t) == otpDigest d.otp (c.b1 1) then (drainBegun d c.k (c.b1 1), .waits .lifecycle)
      else (tokenFail d (c.b1 1), failWith stTokenInvalid) := by
  simp only [lifecycleEff, hop, h, ht, Bool.true_and]
  cases tokenDigest d.otp.serial (c.b1 1) (tokenOf t) == otpDigest d.otp (c.b1 1)
  · rfl
  · rfl

/-- Settles O19: LIFECYCLE_TRANSITION by its operation, the drain's end by what `drainEnded` keeps, the wipe and the expiry as they are defined. -/
theorem lifeCycleCommandsComplete : Obligations.LifeCycleCommandsComplete := by
  unfold Obligations.LifeCycleCommandsComplete
  refine ⟨fun s k i c d h => ?_, fun s hphase => ?_, fun s boot hphase => ?_, fun d t hlow hhigh => completeTransition_facts d hlow hhigh, fun s => rfl⟩
  · obtain ⟨rfl, -, -⟩ := execCard_of_reach h
    refine ⟨fun hop => ends_of_eff rfl h ?_, fun hop => ends_of_eff rfl h ?_, fun hop => ends_of_eff rfl h ?_,
      fun hop hneeds => waits_of_eff rfl h (lifecycleEff_of_no_token hop hneeds), fun t hop hneeds ht => ?_⟩
    · simp only [cardLifecycleTransition, lifecycleEff, hop]
      rfl
    · simp only [cardLifecycleTransition, lifecycleEff, hop]
      rfl
    · simp only [cardLifecycleTransition, lifecycleEff, hop]
      rfl
    · have heff := lifecycleEff_of_token hop hneeds ht
      split
      next hgood => exact waits_of_eff rfl h (heff.trans (if_pos hgood))
      next hbad => exact ends_of_eff rfl h (heff.trans (if_neg hbad))
  · obtain ⟨hwiping, hnone⟩ := drainEnded_lcd s.dev
    obtain ⟨hvmp, hst⟩ := drainEnded_vmp s.dev
    refine ⟨drainEnded s.dev, leaves_of lifecycleDrainEndEff rfl (lifecycleDrainEndEff_of_draining hphase), hwiping, hnone, drainEnded_otp s.dev,
      drainEnded_keys s.dev, hvmp, hst, fun hcanon j => drainEnded_ctxs ?_ j, fun k d1 hk hd1 => ?_⟩
    · simp only [canonical, Bool.and_eq_true] at hcanon
      tauto
    · rw [drainEnded_out, executeCompleted, hk, hd1, drainEnded_otp]
      rfl
  · exact leaves_of (lifecycleWipeDoneEff boot) rfl (if_pos hphase)

end Sys2Proof.Machine
end

section
/-! SUPPORT. Unlock and approval sessions (14 R421 to R425; O20). -/

namespace Sys2Proof.Machine

open Sys2Proof.Safety

/-! ## Sessions opened -/

theorem freeSession_lt {d : Dev} {j : Nat} (h : freeSession d = some j) : j < d.lcd.sessions.length := by
  obtain ⟨⟨j', x⟩, hfind, rfl⟩ := Option.map_eq_some_iff.mp h
  obtain ⟨-, hat, -⟩ := findAt_some hfind
  exact (List.getElem?_eq_some_iff.mp hat).1

/-- The session that opens for an action: its challenge is the next that the DRBG draws (14 R410, R411). -/
def openedSession (d : Dev) (action : Nat) (digest : Bytes) (bound : Nat) : Session :=
  { code := 0x33, action, digest, challenge := drawBytes d.ent.draws 32, openedAt := now d, ttl := d.lcd.ttl, approvedBy := [], bound }

theorem sessionOf_openSession {d : Dev} {j : Nat} (h : j < d.lcd.sessions.length) (action : Nat) (digest : Bytes) (bound : Nat) :
    sessionOf (openSession d j action digest bound) j = openedSession d action digest bound := by
  have hsessions : (openSession d j action digest bound).lcd.sessions = modifyAt d.lcd.sessions j fun _ => openedSession d action digest bound := rfl
  rw [sessionOf, hsessions, List.getD_eq_getElem?_getD, modifyAt, List.getElem?_modify_eq, List.getElem?_eq_getElem h]
  rfl

theorem unlockRequest_eff {c : Cmd} {d : Dev} {j : Nat} (h : freeSession d = some j) {e : Dev}
    (he : e = { openSession d j 9 (unlockDigest d.sen.nextSeq) d.sen.nextSeq with lcd.unlockSession := some j }) :
    cardUnlockRequest.eff c d = (e, .done (rep (natLe 1 j ++ zeroBytes 7 ++ natLe 8 (now d)) ((sessionOf e j).challenge ++ (sessionOf e j).digest))) := by
  subst he
  simp only [cardUnlockRequest, h, Option.getD_some]
  rfl

theorem approvalBegin_eff {c : Cmd} {d : Dev} {j : Nat} (h : freeSession d = some j) : cardApprovalBegin.eff c d =
    (openSession d j (c.b2 0) (slice c.p 8 32) 0, .done (rep (natLe 2 j ++ natLe 2 (c.b2 0) ++ zeroBytes 4 ++ natLe 8 (now d))
      (statement d 1 (c.b2 0) j 0xFF (now d) (drawBytes d.ent.draws 32) (slice c.p 8 32)))) := by
  simp only [cardApprovalBegin, h, Option.getD_some, sessionOf_openSession (freeSession_lt h)]
  rfl

/-! ## Approvals added -/

/-- The device once an approval of enrolment e stands in session j and the sessions are recounted. -/
def approvalNoted (d : Dev) (j e : Nat) : Dev :=
  recount { d with lcd.sessions := modifyAt d.lcd.sessions j fun s => { s with approvedBy := insertNat s.approvedBy e } }

/-- The answer to an approval of enrolment e in session j: the approvals that count, and whether they suffice. -/
def approvalResult (d : Dev) (j e : Nat) : Bytes :=
  natLe 1 (counted d (sessionOf d j)).length ++ natLe 1 (if (sessionOf d j).code = 0x55 then 1 else 0) ++ natLe 1 e

/-- An approval that does not unlock is counted and answered. -/
theorem approve_of_counted {unlocking : Bool} {d : Dev} {j e : Nat} (h : unlocking = false ∨ (sessionOf (approvalNoted d j e) j).code ≠ 0x55) :
    approve unlocking d j e = (approvalNoted d j e, ok (approvalResult (approvalNoted d j e) j e)) := by
  have hready : (unlocking && (sessionOf (approvalNoted d j e) j).code == 0x55) = false := by
    rcases h with h | h
    · rw [h, Bool.false_and]
    · rw [beq_false_of_ne h, Bool.and_false]
  unfold approve
  dsimp only
  rw [← approvalNoted, hready, if_neg Bool.false_ne_true, approvalResult]
  simp only [beq_iff_eq]

/-- The last approval of an unlock session that nothing speaks against takes the module out of LOCKED. -/
theorem approve_of_unlocked {d : Dev} {j e : Nat} (hready : (sessionOf (approvalNoted d j e) j).code = 0x55)
    (hcause : unlockCause (closeSession (approvalNoted d j e) j true) (sessionOf (approvalNoted d j e) j).bound = 0) :
    approve true d j e = (unlock (closeSession (approvalNoted d j e) j true) j (maskOf (counted (approvalNoted d j e) (sessionOf (approvalNoted d j e) j))),
      ok (approvalResult (approvalNoted d j e) j e ++ natLe 1 1)) := by
  unfold approve
  dsimp only
  rw [← approvalNoted, hready, if_pos (by rfl), if_pos hcause, approvalResult, hready]
  rfl

/-- The approval of a command as its effect finds it: remote, with the signature as its data, or of a card, with the signature the card returns, which
deactivates the card (14 R412, R413). -/
def Presented (d : Dev) (c : Cmd) (j : Nat) (sig : Bytes) (e : Dev) : Prop :=
  (c.b1 1 = 2 ∧ d.lcd.remoteEn = true ∧ j = c.b1 2 ∧ (enrolment d j).map enKind = some 1 ∧ sig = c.data ∧ e = d) ∨
    (c.b1 1 ≠ 2 ∧ cardReason d (c.b1 1) = none ∧ cardEnrolment d (cardOf d (c.b1 1)).serial = some j ∧ c.i.card = .returned sig ∧ e = useCard d (c.b1 1))

/-- An approval presented by an enrolment that may approve is added where its signature verifies. -/
theorem addEff_of_presented {unlocking : Bool} {c : Cmd} {d : Dev} (hsessions : checkSessions d = d) {x : Session} (hx : x = sessionOf d (c.b1 0))
    (hopen : x.code ≠ 0x0F) (haction : (x.action == 9) = unlocking) {j : Nat} {sig : Bytes} {e : Dev} (h : Presented d c j sig e) {b : Bytes}
    (hb : enrolment d j = some b) (hmay : mayApprove d x j = true) : addEff unlocking c d =
      if enVerify b (statement d 1 x.action (c.b1 0) j x.openedAt x.challenge x.digest) sig then approve unlocking e (c.b1 0) j
      else (e, failWith stApprovalInvalid) := by
  subst hx
  have hgate : ¬(decide ((sessionOf d (c.b1 0)).code = 0x0F) || ((sessionOf d (c.b1 0)).action == 9) != unlocking) = true := by
    rw [haction]
    simpa using hopen
  unfold addEff
  dsimp only
  rw [hsessions, if_neg hgate]
  rcases h with ⟨hremote, hen, rfl, hkind, rfl, rfl⟩ | ⟨hcard, hreason, henrolled, hreturned, rfl⟩
  · have hkind1 : (enKind b == 1) = true := by
      rw [hb] at hkind
      simpa using hkind
    simp [hremote, hen, hb, hkind1, hmay]
  · simp [hcard, hreason, henrolled, hreturned, hb, hmay, exchange]

/-- Settles O20: a session opened is `openedSession`, an approval presented is added by `approve`. -/
theorem approvalCommandsComplete : Obligations.ApprovalCommandsComplete := by
  unfold Obligations.ApprovalCommandsComplete
  refine ⟨fun s k i c d h j hj e he => ends_of_eff rfl h (unlockRequest_eff hj he), fun s k i c d h j hj e he => ?_, ?_,
    fun s j hopen => leaves_of (approvalSessionExpiryEff j) rfl (if_neg hopen), fun d j hj => ⟨sessionOf_closeSession_same d j false, rfl⟩⟩
  · subst he
    rw [sessionOf_openSession (freeSession_lt hj)]
    exact ⟨rfl, rfl, rfl, rfl, rfl, ends_of_eff rfl h (approvalBegin_eff hj)⟩
  · intro unlocking s k i c d h hsessions x hx hopen haction j sig d' hpresented b hb hmay e y he hy row hrow result hresult
    have hexec : exec row s = s.onDev (execCard (if unlocking then cardUnlockApprove else cardApprovalAdd) k i) := by
      rw [hrow]
      cases unlocking <;> rfl
    have heff : (if unlocking then cardUnlockApprove else cardApprovalAdd).eff c d = addEff unlocking c d := by
      cases unlocking <;> rfl
    obtain ⟨rfl, rfl, -⟩ := execCard_of_reach h
    have hadd := heff.trans (addEff_of_presented hsessions hx hopen haction hpresented hb hmay)
    have hnoted : e = approvalNoted d' (c.b1 0) j := he
    subst hnoted hy hresult
    split
    next hgood =>
      rw [if_pos hgood] at hadd
      refine ⟨fun hcounted => ends_of_eff hexec h (hadd.trans (approve_of_counted hcounted)), fun hunlocking hready hcause => ⟨rfl, ?_⟩⟩
      subst hunlocking
      exact ends_of_eff hexec h (hadd.trans (approve_of_unlocked hready hcause))
    next hbad =>
      rw [if_neg hbad] at hadd
      exact ends_of_eff hexec h hadd

end Sys2Proof.Machine
end

section
/-! SUPPORT. Custodians and cards (14 R413, R414, R417, R426 to R428; 02 R63; O21). -/

namespace Sys2Proof.Machine

open Sys2Proof.Safety

/-! ## CUSTODIAN -/

theorem custodianEff_of_removed {c : Cmd} {d : Dev} (hop : c.b1 0 = 2)
    (h : policyOk (quorum d) ((inForce d).filter fun j => j != c.b1 1 && hasRole d 0 j).length = true) :
    custodianEff c d = (setPolicy d (quorum d) (clearBits (enrolMask d) (2 ^ c.b1 1)) 2 (c.b1 1), ok []) := by
  simp only [custodianEff, hop, h, Bool.not_true, Bool.false_eq_true, if_false]

theorem custodianEff_of_quorum {c : Cmd} {d : Dev} (hop : c.b1 0 = 3) (h : policyOk (c.b1 5) (approvers d) = true) :
    custodianEff c d = (setPolicy d (c.b1 5) (enrolMask d) 3 0, ok []) := by
  simp only [custodianEff, hop, h, if_true]

theorem custodianEff_of_added {c : Cmd} {d d1 : Dev} {b : Bytes} (hop : c.b1 0 = 1) (hfree : bit (enrolMask d) (c.b1 1) = false)
    (hnew : newEnrolment c d (c.b1 2) (fun n => (cardEnrolment d n).isSome) = .ok (d1, b))
    (h : policyOk (quorum d) (approvers d + if bit (enRoles b) 0 then 1 else 0) = true) : custodianEff c d =
      (setPolicy (commitLogged d1 (0x10 + c.b1 1) b ((sha256 (enKey b)).take 5)) (quorum d) (setBit (enrolMask d) (c.b1 1)) 1 (c.b1 1), ok []) := by
  simp only [custodianEff, hop, hfree, hnew, h, Bool.not_true, Bool.false_eq_true, if_false]

theorem custodianEff_of_countersigner {c : Cmd} {d : Dev} (hop : c.b1 0 = 4) (halg : c.b1 4 = 0x49) :
    custodianEff c d = (commitLogged d 4 (natLe 1 0x49 ++ c.data) ((sha256 c.data).take 5), ok []) := by
  simp only [custodianEff, hop, halg]
  rfl

/-- The countersigning key's slot emptied, its SEQs kept (14 R426 OP 5). -/
def countersignerEmptied (d : Dev) : Dev :=
  logRoot (setRoot d 4 { a := { seq := (rootSlot d 4).a.seq }, b := { seq := (rootSlot d 4).b.seq } }) 4 false (rootSlot d 4).a.seq 0

theorem custodianEff_of_emptied {c : Cmd} {d : Dev} (hop : c.b1 0 = 5) : custodianEff c d = (countersignerEmptied d, ok []) := by
  simp only [custodianEff, hop]
  rfl

theorem rootSlot_setRoot {d : Dev} (hwf : tabWf {} d.keys.root = true) (s n : Nat) (v : Slot) :
    rootSlot (setRoot d s v) n = if n = s then v else rootSlot d n := tabGet_put _ _ _ _ _ hwf

theorem rootSlot_countersignerEmptied {d : Dev} (hwf : tabWf {} d.keys.root = true) :
    bankInForce (countersignerEmptied d) (rootSlot (countersignerEmptied d) 4) = none ∧ ∀ n, n ≠ 4 → rootSlot (countersignerEmptied d) n = rootSlot d n := by
  have hslot : ∀ n, rootSlot (countersignerEmptied d) n =
      if n = 4 then { a := { seq := (rootSlot d 4).a.seq }, b := { seq := (rootSlot d 4).b.seq } } else rootSlot d n := fun n => rootSlot_setRoot hwf 4 n _
  refine ⟨?_, fun n hn => by rw [hslot, if_neg hn]⟩
  rw [hslot, if_pos rfl]
  rfl

/-! ## ROOT_INIT -/

theorem rootInitEff_of_begin {c : Cmd} {d : Dev} (hop : c.b1 0 = 0) (hnone : d.lcd.rootInit = none) (hst : d.lcd.st = 0x55 ∨ d.lcd.st = 0x96)
    (hslot : bankInForce d (rootSlot d 0) = none) (hjoin : d.bay.ringJoin = false) (hvault : d.vmp.st = 0x0F) :
    rootInitEff c d = if c.i.testPasses then (rootBegin d, ok []) else ((draw d 32).2, failWith stKeyTestFail) := by
  have hgate : ((d.lcd.st == 0x55 || d.lcd.st == 0x96) && (bankInForce d (rootSlot d 0)).isNone && !d.bay.ringJoin && d.vmp.st == 0x0F) = true := by
    rw [hslot, hjoin, hvault]
    rcases hst with h | h <;> rw [h] <;> rfl
  simp only [rootInitEff, hop, hnone, hgate, if_true]

/-- The enrolment slot of a ROOT_INIT session written. -/
def enrolledInSession (d : Dev) (l : List Nat) (index : Nat) (b : Bytes) : Dev :=
  { initSlot d (0x10 + index) b ((sha256 (enKey b)).take 5) with lcd.rootInit := some (insertNat l index) }

theorem rootInitEff_of_remote {c : Cmd} {d : Dev} {l : List Nat} (hinit : d.lcd.rootInit = some l) (hop : c.b1 0 = 2) (hfree : l.contains (c.b1 1) = false)
    (halg : c.b1 4 = 0x49) : rootInitEff c d =
      (enrolledInSession d l (c.b1 1) (enrolBytes (c.b1 1) 1 (c.b1 3) 0x49 0 (now d) (slice c.p 0x10 32) c.data), ok []) := by
  simp only [rootInitEff, hop, hinit, hfree, newEnrolment, halg, Bool.false_eq_true, if_false, if_true]
  rfl

theorem rootInitEff_of_card {c : Cmd} {d d1 : Dev} {l : List Nat} {b : Bytes} (hinit : d.lcd.rootInit = some l) (hop : c.b1 0 = 1)
    (hfree : l.contains (c.b1 1) = false) (hnew : newEnrolment c d (c.b1 2)
      (fun n => l.any fun j => enKind (initContent d (0x10 + j)) == 0 && enSerial (initContent d (0x10 + j)) == n) = .ok (d1, b)) :
    rootInitEff c d = (enrolledInSession d1 l (c.b1 1) b, ok []) := by
  have hsource : (if c.b1 0 = 2 then 2 else c.b1 2) = c.b1 2 := by rw [hop]; rfl
  rw [hop] at hsource
  simp only [rootInitEff, hop, hinit, hfree, hsource, hnew, Bool.false_eq_true, if_false]
  rfl

theorem rootInitEff_of_finish {c : Cmd} {d : Dev} {l : List Nat} (hinit : d.lcd.rootInit = some l) (hop : c.b1 0 = 3)
    (hcards : 2 ≤ (l.filter fun j => enKind (initContent d (0x10 + j)) == 0 && bit (enRoles (initContent d (0x10 + j))) 0).length)
    (hpolicy : policyOk (c.b1 5) (l.filter fun j => bit (enRoles (initContent d (0x10 + j))) 0).length = true) : rootInitEff c d =
      (rootFinish d (c.b1 5) l, ok (fitTo 5 (rootSlot (rootFinish d (c.b1 5) l) 3).a.kcv ++ zeroBytes 3 ++ natLe 8 (now d))) := by
  simp only [rootInitEff, hop, hinit, hcards, hpolicy, decide_true, Bool.and_self, if_true]

theorem rootInitEff_of_abort {c : Cmd} {d : Dev} {l : List Nat} (hinit : d.lcd.rootInit = some l) (hop : c.b1 0 = 4) :
    rootInitEff c d = ({ d with lcd.rootInit := none, keys.root := [] }, ok []) := by
  simp only [rootInitEff, hop, hinit]

/-! ## Cards -/

theorem cardOf_modCard {d : Dev} {slot : Nat} (h : slot < d.lcd.cards.length) (f : CardSlot → CardSlot) :
    cardOf (modCard d slot f) slot = f (cardOf d slot) := by
  have hcards : (modCard d slot f).lcd.cards = modifyAt d.lcd.cards slot f := rfl
  rw [cardOf, cardOf, hcards, List.getD_eq_getElem?_getD, List.getD_eq_getElem?_getD, modifyAt, List.getElem?_modify_eq, List.getElem?_eq_getElem h]
  rfl

/-- A slot that is not listed reads as empty. -/
theorem lt_of_cardOf_ne {d : Dev} {slot : Nat} (h : cardOf d slot ≠ {}) : slot < d.lcd.cards.length := by
  by_contra hlen
  exact h (List.getD_eq_default _ _ (Nat.le_of_not_lt hlen))

theorem cardOpenEff_of_returned {c : Cmd} {d : Dev} {b : Bytes} (hpresent : (cardOf d (c.b1 0)).present = true) (hcard : c.i.card = .returned b) :
    cardOpenEff c d = (modCard d (c.b1 0) fun x => { x with opened := true, openedAt := now d, used := false },
      ok (natLe 8 (cardOf d (c.b1 0)).serial ++ natLe 1 (if (cardEnrolment d (cardOf d (c.b1 0)).serial).isSome then 1 else 0))) := by
  simp only [cardOpenEff, hpresent, hcard, exchange, Bool.not_true, Bool.false_eq_true, if_false]

theorem withdraw_cards_length (d : Dev) (slot : Nat) : (withdraw d slot).lcd.cards.length = d.lcd.cards.length := by
  unfold withdraw
  split
  · exact List.length_modify ..
  · rfl

/-- A card inserted stands in its slot, and its event bit with it (02 R63). -/
theorem cardInsertedEff_facts {d : Dev} {slot serial : Nat} {b : Bool} (hmain : d.bay.mainLoads = true) (hslot : slot < 2) (hlen : d.lcd.cards.length = 2) :
    (cardOf (cardInsertedEff slot serial b d) slot).present = true ∧ (cardOf (cardInsertedEff slot serial b d) slot).serial = serial ∧
      (cardOf (cardInsertedEff slot serial b d) slot).classB = b ∧ (cardOf (cardInsertedEff slot serial b d) slot).opened = false ∧
      bit (cardInsertedEff slot serial b d).lcd.event 2 = true := by
  have hlt : slot < (withdraw d slot).lcd.cards.length := by rw [withdraw_cards_length]; omega
  have hgate : (d.bay.mainLoads && decide (slot < 2)) = true := by simp [hmain, hslot]
  have hcard : cardOf (cardInsertedEff slot serial b d) slot = { present := true, serial, classB := b, lastFail := (cardOf (withdraw d slot) slot).lastFail } := by
    rw [cardInsertedEff, if_pos hgate]
    exact cardOf_modCard hlt fun c => { present := true, serial, classB := b, lastFail := c.lastFail }
  rw [hcard]
  refine ⟨rfl, rfl, rfl, rfl, ?_⟩
  rw [cardInsertedEff, if_pos hgate]
  exact bit_setBit_same _ 2

/-- A card withdrawn leaves its slot empty, and its event bit set (14 R414). -/
theorem withdraw_facts {d : Dev} {slot : Nat} (h : (cardOf d slot).present = true) :
    (cardOf (withdraw d slot) slot).present = false ∧ (cardOf (withdraw d slot) slot).opened = false ∧ bit (withdraw d slot).lcd.event 2 = true := by
  have hlt : slot < d.lcd.cards.length := lt_of_cardOf_ne fun hempty => by
    rw [hempty] at h
    exact Bool.false_ne_true h
  have hcard : cardOf (withdraw d slot) slot = { lastFail := (cardOf d slot).lastFail } := by
    rw [withdraw, if_pos h]
    exact cardOf_modCard hlt fun c => { lastFail := c.lastFail }
  rw [hcard]
  refine ⟨rfl, rfl, ?_⟩
  rw [withdraw, if_pos h]
  exact bit_setBit_same _ 2

/-- The device once a card's exchange is out of time: no exchange under way, and the reason noted (14 R413, R414). -/
def exchangeTimedOut (d : Dev) (slot : Nat) : Dev :=
  modCard (modCard d slot fun c => { c with exchange := none }) slot fun c => { c with lastFail := 7 }

theorem cardOf_exchangeTimedOut {d : Dev} {slot k : Nat} (h : (cardOf d slot).exchange = some k) :
    cardOf (exchangeTimedOut d slot) slot = { cardOf d slot with exchange := none, lastFail := 7 } := by
  have hlt : slot < d.lcd.cards.length := lt_of_cardOf_ne fun hempty => by
    rw [hempty] at h
    cases h
  have hlt' : slot < (modCard d slot fun c => { c with exchange := none }).lcd.cards.length := by
    show slot < (modifyAt d.lcd.cards slot fun c => { c with exchange := none }).length
    rw [modifyAt, List.length_modify]
    exact hlt
  rw [exchangeTimedOut, cardOf_modCard hlt', cardOf_modCard hlt]

theorem cardExchangeTimeoutEff_of_exchange {d : Dev} {slot k : Nat} (h : (cardOf d slot).exchange = some k) :
    cardExchangeTimeoutEff slot d = finishWith (exchangeTimedOut d slot) k { bare stCardFailed with result := fitTo 16 (natLe 1 7) } true false := by
  simp only [cardExchangeTimeoutEff, h, endCardStep, cardFail]
  rfl

/-- Settles O21: each operation of CUSTODIAN and ROOT_INIT by its equation, each event by what it leaves of its slot. -/
theorem custodianCommandsComplete : Obligations.CustodianCommandsComplete := by
  unfold Obligations.CustodianCommandsComplete
  refine ⟨fun s k i c d h => ?_, fun s k i c d h => ?_, fun s k i c d h hpresent b hb => ?_, fun s slot serial b hmain hslot hlen => ?_,
    fun s slot hnone hpresent => ?_, fun s slot k hexchange => ?_, fun s slot hopen => leaves_of (cardOpeningExpiryEff slot) rfl (if_pos hopen)⟩
  · refine ⟨fun hop => ends_of_eff rfl h ?_, fun hop hp => ends_of_eff rfl h (custodianEff_of_removed hop hp),
      fun hop hp => ends_of_eff rfl h (custodianEff_of_quorum hop hp),
      fun d1 b hop hfree hnew hp => ends_of_eff rfl h (custodianEff_of_added hop hfree hnew hp),
      fun hop halg => ends_of_eff rfl h (custodianEff_of_countersigner hop halg), fun hop hcanon => ?_⟩
    · simp only [cardCustodian, custodianEff, hop]
      rfl
    · have hwf : tabWf {} d.keys.root = true := by
        simp only [canonical, Bool.and_eq_true] at hcanon
        tauto
      obtain ⟨hnone, hrest⟩ := rootSlot_countersignerEmptied hwf
      exact ⟨_, ends_of_eff rfl h (custodianEff_of_emptied hop), hnone, hrest⟩
  · refine ⟨fun hop hnone hst hslot hjoin hvault => ?_, fun l hinit hop hfree halg => ends_of_eff rfl h (rootInitEff_of_remote hinit hop hfree halg),
      fun l d1 b hinit hop hfree hnew => ends_of_eff rfl h (rootInitEff_of_card hinit hop hfree hnew),
      fun l hinit hop hcards hpolicy => ⟨rfl, rfl, ends_of_eff rfl h (rootInitEff_of_finish hinit hop hcards hpolicy)⟩,
      fun l hinit hop => ends_of_eff rfl h (rootInitEff_of_abort hinit hop)⟩
    have heff := rootInitEff_of_begin (c := c) hop hnone hst hslot hjoin hvault
    split
    next hpass => exact ends_of_eff rfl h (heff.trans (if_pos hpass))
    next hfail => exact ends_of_eff rfl h (heff.trans (if_neg hfail))
  · obtain ⟨-, rfl, -⟩ := execCard_of_reach h
    exact ends_of_eff rfl h (cardOpenEff_of_returned hpresent hb)
  · exact ⟨_, leaves_of (cardInsertedEff slot serial b) rfl rfl, cardInsertedEff_facts hmain hslot hlen⟩
  · refine ⟨_, leaves_of (cardWithdrawnEff slot) rfl ?_, withdraw_facts hpresent⟩
    simp only [cardWithdrawnEff, hnone]
  · have hcard := cardOf_exchangeTimedOut hexchange
    exact ⟨_, _, leaves_of (cardExchangeTimeoutEff slot) rfl (cardExchangeTimeoutEff_of_exchange hexchange), rfl, rfl, by rw [hcard], by rw [hcard]⟩

end Sys2Proof.Machine
end

section
/-! SUPPORT. The commands that create or replace keys (06 R165, R170, R179 to R183, R186; 08 R259; O22). -/

namespace Sys2Proof.Machine

open Sys2Proof.Safety

/-! ## Keys written -/

/-- The edit that writes the chains of new keys. -/
def newKeysEdit (d : Dev) (l : List NewKey) : Edit := { puts := l.flatMap fun n => n.chain d.keys.floor 0x55 0, drops := [] }

theorem newKeysEdit_one (d : Dev) (n : NewKey) : newKeysEdit d [n] = newKeyEdit d n := by
  rw [newKeysEdit, newKeyEdit, List.flatMap_singleton]

theorem newKeysEdit_two (d : Dev) (n m : NewKey) :
    newKeysEdit d [n, m] = { puts := n.chain d.keys.floor 0x55 0 ++ m.chain d.keys.floor 0x55 0, drops := [] } := by
  rw [newKeysEdit, List.flatMap_cons, List.flatMap_singleton]

theorem createAll_of_taken {d e : Dev} {l : List NewKey} (h : applyEdit d (newKeysEdit d l) = (e, true)) (fin : Fin) : createAll d l fin = (e, fin) := by
  rw [newKeysEdit] at h
  simp only [createAll, h]

/-- A command whose effect creates keys ends once the vault takes their edit. The edit stands for itself here: `edits` of a concrete one is costly to
elaborate, so a use generalizes it first. -/
theorem edits_of_createAll {row : Instr} {card : Card} {s : State} {k : Nat} {i : Inputs} {c : Cmd} {d d1 : Dev} {l : List NewKey} {r : Reply} {edit : Edit}
    (hrow : exec row s = s.onDev (execCard card k i)) (h : reach card s.dev k i = some (c, d)) (he : card.eff c d = createAll d1 l (.done r))
    (hedit : newKeysEdit d1 l = edit) : edits row s d d1 edit k r i := by
  subst hedit
  exact edits_of_eff hrow h (he.trans rfl)

/-- A command whose effect creates keys that the vault takes ends with its reply. -/
theorem ends_of_createAll {row : Instr} {card : Card} {s : State} {k : Nat} {i : Inputs} {c : Cmd} {d d1 e : Dev} {l : List NewKey} {r : Reply}
    (hrow : exec row s = s.onDev (execCard card k i)) (h : reach card s.dev k i = some (c, d)) (he : card.eff c d = createAll d1 l (.done r))
    (htaken : applyEdit d1 (newKeysEdit d1 l) = (e, true)) : ends row s d e k r i :=
  ends_of_eff hrow h (he.trans (createAll_of_taken htaken _))

theorem replaceFin_of_ok {used : List Record} {n : NewKey} {r : Dev × Nat} {e : Dev} (h : r = (e, stOk)) :
    replaceFin used n r = (e, .done (repUsing used (natLe 8 n.handle ++ n.kcv) [] [])) := by
  subst h
  rfl

/-! ## KEY_GENERATE -/

/-- The key that KEY_GENERATE creates, of its parameters and the material drawn (06 R179). -/
def generatedKey (c : Cmd) (handle : Nat) (material : Bytes) : NewKey :=
  { handle, alg := c.b1 8, usage := c.b2 0x0A, mode := c.b1 0x0C, expo := c.b1 0x0D, kcvMethod := c.b1 9, params := genParams c,
    notBefore := c.b8 0x10, notAfter := c.b8 0x18, material }

theorem keyGenerate_eff (c : Cmd) (d : Dev) : cardKeyGenerate.eff c d = genEff c d := rfl

theorem genEff_of_symmetric {c : Cmd} {d : Dev} (hcls : hClass (c.b8 0) ≠ 8) {n : NewKey}
    (hn : n = generatedKey c (newHandle d (c.b8 0) [hClass (c.b8 0)]) (drawBytes d.ent.draws (symLen (c.b1 8)))) :
    genEff c d = createAll (draw d (symLen (c.b1 8))).2 [n] (.done (rep (natLe 8 n.handle ++ n.kcv) [])) := by
  subst hn
  simp only [genEff, if_neg hcls]
  rfl

theorem genEff_of_pair {c : Cmd} {d : Dev} (hcls : hClass (c.b8 0) = 8) {pair : Bytes × Bytes}
    (hpair : pair = freshPair (c.b1 8) (genBits c) (c.b1 0x22) d.ent.draws) {n : NewKey}
    (hn : n = generatedKey c (newHandle d (c.b8 0) [8, 9]) pair.1) : genEff c d =
      if c.i.testPasses then createAll (draw d 32).2 [n, publicTwin n pair.2] (.done (rep (natLe 8 n.handle ++ pubKcv n.alg pair.2) []))
      else ((draw d 32).2, failWith stKeyTestFail) := by
  subst hn hpair
  simp only [genEff, if_pos hcls]
  rfl

/-! ## KEY_IMPORT -/

theorem keyImport_check_of_form {c : Cmd} {d : Dev} (hform : blockFormOk c.data = true) (hexists : existsCheck c d (c.b8 0) = none)
    (hkek : firstError [useKey c d (c.b8 8) (importKek c.data) 1] = none) : cardKeyImport.check c d = none := by
  simp [cardKeyImport, hform, hexists, hkek, firstFail, orElse]

theorem keyImport_check_of_not_form {c : Cmd} {d : Dev} (hform : blockFormOk c.data = false) : cardKeyImport.check c d = some stBadParam := by
  simp [cardKeyImport, hform, firstFail, orElse]

theorem keyImport_eff (c : Cmd) (d : Dev) : cardKeyImport.eff c d = importEff c d := rfl

theorem importEff_of_forged {c : Cmd} {d : Dev} {w : Record × Bytes} (hw : useKey c d (c.b8 8) (importKek c.data) 1 = .ok w)
    (hopen : tr31Open w.2 c.data = none) : importEff c d = (useOnce d c.k w.1, failWith stMacMismatch) := by
  simp only [importEff, hw, got, hopen]

theorem importEff_of_fault {c : Cmd} {d : Dev} {w : Record × Bytes} (hw : useKey c d (c.b8 8) (importKek c.data) 1 = .ok w) {b : Config.KeyBlock}
    (hopen : tr31Open w.2 c.data = some b) {st : Nat}
    (hfault : blockFault b (hClass (c.b8 0)) (strength w.1.alg) (c.b1 0x10) (zeroBytes 7) = some st) :
    importEff c d = (useOnce d c.k w.1, failWith st) := by
  simp only [importEff, hw, got, hopen, hfault]

theorem importEff_of_no_room {c : Cmd} {d : Dev} {w : Record × Bytes} (hw : useKey c d (c.b8 8) (importKek c.data) 1 = .ok w) {b : Config.KeyBlock}
    (hopen : tr31Open w.2 c.data = some b) (hfault : blockFault b (hClass (c.b8 0)) (strength w.1.alg) (c.b1 0x10) (zeroBytes 7) = none) {st : Nat}
    (hroom : roomCheck (useOnce d c.k w.1) (c.b8 0) 1 = some st) : importEff c d = (useOnce d c.k w.1, failWith st) := by
  simp only [importEff, hw, got, hopen, hfault, hroom]

/-- KEY_IMPORT of an authentic block without fault, where there is room for its key. -/
theorem importEff_of_sound {c : Cmd} {d : Dev} {w : Record × Bytes} (hw : useKey c d (c.b8 8) (importKek c.data) 1 = .ok w) {b : Config.KeyBlock}
    (hopen : tr31Open w.2 c.data = some b) (hfault : blockFault b (hClass (c.b8 0)) (strength w.1.alg) (c.b1 0x10) (zeroBytes 7) = none)
    (hroom : roomCheck (useOnce d c.k w.1) (c.b8 0) 1 = none) {n : NewKey}
    (hn : n = { handle := newHandle (useOnce d c.k w.1) (c.b8 0) [hClass (c.b8 0)], alg := blockAlg b, usage := b.usage, mode := b.mode, expo := b.expo,
                kcvMethod := c.b1 0x10, params := zeroBytes 7, notBefore := 0, notAfter := noLimit, material := b.key }) :
    importEff c d = createAll (useOnce d c.k w.1) [n] (.done (repUsing [w.1] (natLe 8 n.handle ++ n.kcv) [] [])) := by
  subst hn
  simp only [importEff, hw, got, hopen, hfault, hroom]
  rfl

/-! ## KEY_REPLACE -/

theorem keyReplace_eff_of_record {c : Cmd} (hform : c.b1 0 = 0) (d : Dev) : cardKeyReplace.eff c d = replaceRecordEff c d := by
  have hroot : isRoot c = false := by rw [isRoot, hform]; rfl
  simp only [cardKeyReplace, hroot, Bool.false_eq_true, if_false]

theorem keyReplace_eff_of_root {c : Cmd} (hform : c.b1 0 = 1) (d : Dev) : cardKeyReplace.eff c d = replaceRootEff c d := by
  have hroot : isRoot c = true := by rw [isRoot, hform]; rfl
  simp only [cardKeyReplace, hroot, if_true]

theorem replaceStart_of_active {c : Cmd} {d : Dev} {v : Record} (h : activeNamed (storeOf d c.k (c.b8 8)) (c.b8 8) = some v) :
    replaceStart c d = (storeOf d c.k (c.b8 8), v) := by
  rw [replaceStart, h]
  rfl

/-- The material of a version drawn afresh: of a class 8 key its secret half (06 R182). -/
def drawnMaterial (d : Dev) (h : Nat) (v : Record) : Bytes :=
  if hClass h = 8 then (freshPair v.alg (recBits v) (field v.params 2 1) d.ent.draws).1 else drawBytes d.ent.draws (symLen v.alg)

theorem replaceRecordEff_of_fresh {c : Cmd} {d : Dev} (hsource : c.b1 1 = 0) {v : Record}
    (hv : activeNamed (storeOf d c.k (c.b8 8)) (c.b8 8) = some v) : replaceRecordEff c d =
      replaceFin [] (nextVersion v (drawnMaterial d (c.b8 8) v)) (replaceRun (draw d 32).2 (storeOf d c.k (c.b8 8)) v
        (nextVersion v (drawnMaterial d (c.b8 8) v)) (c.b8 0x18) (slice c.p 0x20 5) c.i.testPasses) := by
  by_cases hcls : hClass (c.b8 8) = 8
  · simp only [replaceRecordEff, replaceStart_of_active hv, hsource, drawnMaterial, if_pos hcls, if_true]
  · simp only [replaceRecordEff, replaceStart_of_active hv, hsource, drawnMaterial, if_neg hcls, if_true]
    rfl

theorem replaceRecordEff_of_forged {c : Cmd} {d : Dev} (hsource : c.b1 1 = 1) {w : Record × Bytes}
    (hw : useKey c d (c.b8 0x10) (importKek c.data) 1 = .ok w) (hopen : tr31Open w.2 c.data = none) :
    replaceRecordEff c d = (useOnce d c.k w.1, failWith stMacMismatch) := by
  have hnot : ¬c.b1 1 = 0 := by omega
  simp only [replaceRecordEff, if_neg hnot, hw, got, hopen]

/-- KEY_REPLACE of a record by the key of an authentic block without fault. -/
theorem replaceRecordEff_of_block {c : Cmd} {d : Dev} (hsource : c.b1 1 = 1) {v : Record} {w : Record × Bytes}
    (hv : activeNamed (storeOf d c.k (c.b8 8)) (c.b8 8) = some v) (hw : useKey c d (c.b8 0x10) (importKek c.data) 1 = .ok w) {b : Config.KeyBlock}
    (hopen : tr31Open w.2 c.data = some b) (hfault : blockFault b (hClass (c.b8 8)) (strength w.1.alg) v.kcvMethod v.params = none) {x : Record}
    (hx : activeNamed (storeOf (useOnce d c.k w.1) c.k (c.b8 8)) (c.b8 8) = some x) {n : NewKey}
    (hn : n = { nextVersion x b.key with alg := blockAlg b, usage := b.usage, mode := b.mode, expo := b.expo }) :
    replaceRecordEff c d = replaceFin [w.1] n
      (replaceRun (useOnce d c.k w.1) (storeOf (useOnce d c.k w.1) c.k (c.b8 8)) x n (c.b8 0x18) (slice c.p 0x20 5) c.i.testPasses) := by
  have hnot : ¬c.b1 1 = 0 := by omega
  subst hn
  simp only [replaceRecordEff, if_neg hnot, replaceStart_of_active hv, replaceStart_of_active hx, hw, got, hopen, hfault]

/-- Whether an expected check value speaks against a check value: all zero, it does not. -/
theorem expected_agrees {x kcv : Bytes} (h : x = zeroBytes 5 ∨ x = kcv) : (x.any (· != 0) && x != kcv) = false := by
  rcases h with rfl | rfl
  · rfl
  · rw [bne_self_eq_false, Bool.and_false]

theorem replaceRootEff_of_passed {c : Cmd} {d : Dev} (hring : joined d = false) {m : (Bytes × Bytes × Bytes) × Dev} (hm : m = rootMaterial d (rootAlg (c.b2 4)))
    (htest : c.i.testPasses = true) (hkcv : slice c.p 0x20 5 = zeroBytes 5 ∨ slice c.p 0x20 5 = m.1.2.1) : replaceRootEff c d =
      (logRoot (writeBank m.2 (c.b2 4) (replacedSeq d c.k (c.b2 4)) 0x55 m.1.1 m.1.2.1) (c.b2 4) (bankToWrite d (rootSlot d (c.b2 4)))
        (replacedSeq d c.k (c.b2 4)) 0, .done (rep (natLe 8 (replacedSeq d c.k (c.b2 4)) ++ m.1.2.1) m.1.2.2)) := by
  subst hm
  simp only [replaceRootEff, expected_agrees hkcv, htest, hring, Bool.not_true, Bool.false_and, Bool.false_eq_true, if_false]
  rfl

theorem replaceRootEff_of_test_failed {c : Cmd} {d : Dev} {m : (Bytes × Bytes × Bytes) × Dev} (hm : m = rootMaterial d (rootAlg (c.b2 4)))
    (htest : c.i.testPasses = false) (hkcv : slice c.p 0x20 5 = zeroBytes 5) : replaceRootEff c d =
      (logRoot (writeBank m.2 (c.b2 4) (replacedSeq d c.k (c.b2 4)) 0x0F m.1.1 m.1.2.1) (c.b2 4) (bankToWrite d (rootSlot d (c.b2 4)))
        (replacedSeq d c.k (c.b2 4)) 1, failWith stKeyTestFail) := by
  subst hm
  simp only [replaceRootEff, expected_agrees (.inl hkcv), htest, Bool.not_false, Bool.false_eq_true, if_false, if_true]
  rfl

/-! ## KEY_COMPONENT -/

theorem keyComponent_eff_of_begin {c : Cmd} (hop : c.b1 0 = 0) (d : Dev) : cardKeyComponent.eff c d =
    if c.i.testPasses then (componentBegin c d, ok []) else ((draw d 32).2, failWith stKeyTestFail) := by
  simp only [cardKeyComponent, hop]

theorem keyComponent_eff_of_add {c : Cmd} (hop : c.b1 0 = 1) (d : Dev) : cardKeyComponent.eff c d = componentAdd c d := by
  simp only [cardKeyComponent, hop]

theorem keyComponent_eff_of_finish {c : Cmd} (hop : c.b1 0 = 2) (d : Dev) : cardKeyComponent.eff c d = componentFinish c d := by
  simp only [cardKeyComponent, hop]

theorem keyComponent_eff_of_abort {c : Cmd} (hop : c.b1 0 = 3) (d : Dev) : cardKeyComponent.eff c d = (abortComponent d c.tenant, ok []) := by
  simp only [cardKeyComponent, hop]

/-- What ADD makes of its envelope: a component added to the session, or a refusal (06 R183). -/
def envelopeAdded (c : Cmd) (d : Dev) (x : Component) : Envelope → Dev × Fin
  | .badLength => (d, failWith stBadParam)
  | .refused => (d, failWith stDualControl)
  | .opened j m => (modTn d c.tenant fun t =>
      { t with component := some { x with given := insertNat x.given j, partialXor := xorBytes x.partialXor m } },
      ok (symKcv x.alg x.kcvMethod m ++ natLe 1 (x.given.length + 1)))

theorem componentAdd_of_room {c : Cmd} {d : Dev} {x : Component} (hx : componentOf c d = some x) (hroom : x.given.length < x.count) {e : Bytes}
    (he : e = if c.b1 1 = 2 then c.data else match c.i.card with | .returned p => p | _ => []) :
    componentAdd c d = envelopeAdded c d x (openEnvelope d c.tenant x (c.b1 1 == 2) e) := by
  have hnot : ¬x.count ≤ x.given.length := by omega
  subst he
  simp only [componentAdd, hx, if_neg hnot]
  rfl

theorem componentFinish_of_created {c : Cmd} {d e : Dev} {x : Component} (hx : componentOf c d = some x) (hfull : x.count ≤ x.given.length)
    (hexpected : x.expected = zeroBytes 5) (hnew : x.replace = false) (hcheck : createCheck c d x.handle true 1 = none) {n : NewKey}
    (hn : n = componentKey x (newHandle d x.handle [hClass x.handle]))
    (hedit : applyEdit d { puts := n.chain d.keys.floor 0x55 0, drops := [] } = (e, true)) :
    componentFinish c d = (modTn e c.tenant fun t => { t with component := none }, ok (natLe 8 n.handle ++ n.kcv)) := by
  have hnot : ¬x.given.length < x.count := by omega
  subst hn
  simp only [componentFinish, hx, if_neg hnot, expected_agrees (.inl hexpected), hnew, Bool.false_eq_true, if_false, componentCreate, hcheck, hedit]
  rfl

/-! ## KEY_DERIVE and KEY_UNWRAP -/

theorem keyDerive_eff {c : Cmd} {d : Dev} {w : Record × Bytes} (hw : useKey c d (c.b8 0) derivePerm 1 = .ok w) {n : NewKey}
    (hn : n = derivedKey c (useOnce d c.k w.1) w.2) :
    cardKeyDerive.eff c d = createAll (useOnce d c.k w.1) [n] (.done (repUsing [w.1] (natLe 8 n.handle ++ n.kcv) [] [])) := by
  subst hn
  simp only [cardKeyDerive, hw, got]
  rfl

theorem keyUnwrap_eff (c : Cmd) (d : Dev) : cardKeyUnwrap.eff c d = keyUnwrapEff c d := rfl

theorem keyUnwrapEff_of_forged {c : Cmd} {d : Dev} {w : Record × Bytes} (hw : useKey c d (c.b8 8) (unwrapKekPerm c) 1 = .ok w)
    (hopen : keyUnwrap w.2 c.data = none) : keyUnwrapEff c d = (useOnce d c.k w.1, failWith stTagFail) := by
  simp only [keyUnwrapEff, hw, got, hopen]

theorem keyUnwrapEff_of_opened {c : Cmd} {d : Dev} {w : Record × Bytes} {m : Bytes} (hw : useKey c d (c.b8 8) (unwrapKekPerm c) 1 = .ok w)
    (hopen : keyUnwrap w.2 c.data = some m) (hkcv : slice c.p 0x18 5 = zeroBytes 5) {n : NewKey} (hn : n = unwrapNew c (useOnce d c.k w.1) m) :
    keyUnwrapEff c d = createAll (useOnce d c.k w.1) [n] (.done (repUsing [w.1] (natLe 8 n.handle ++ n.kcv) [] [])) := by
  subst hn
  have hagrees : ((slice c.p 0x18 5).any (· != 0) && (unwrapNew c (useOnce d c.k w.1) m).kcv != slice c.p 0x18 5) = false := by
    rw [hkcv]
    rfl
  simp only [keyUnwrapEff, hw, got, hopen, hagrees, Bool.false_eq_true, if_false]
  rfl

/-- Settles O22: each command's effect by its course, the keys it creates written by `createAll`. -/
theorem keyCreationCompletes : Obligations.KeyCreationCompletes := by
  unfold Obligations.KeyCreationCompletes
  refine ⟨fun s k i c d h hcls n hn e he => ?_, fun s k i c d h hcls pair hpair n hn => ?_, fun s k i c d1 d h hexists hkek hserved w hw => ?_,
    fun s k i c d h hform hsource v hv m hm n hn e he => ?_, fun s k i c d h hform hsource v w hv hw => ?_,
    fun s k i c d h hform hring slot seq m hslot hseq hm => ?_, fun s k i c d h => ?_, fun s k i c d h w hw n hn e he => ?_,
    fun s k i c d h w hw hkcv => ?_⟩
  · rw [← newKeyEdit, ← newKeysEdit_one] at he
    exact ends_of_createAll rfl h ((keyGenerate_eff c d).trans (genEff_of_symmetric hcls hn)) he
  · obtain ⟨-, rfl, -⟩ := execCard_of_reach h
    have heff := (keyGenerate_eff c d).trans (genEff_of_pair hcls hpair hn)
    generalize hedit : ({ puts := n.chain d.keys.floor 0x55 0 ++ (publicTwin n pair.2).chain d.keys.floor 0x55 0, drops := [] } : Edit) = edit
    exact ⟨fun hpass => edits_of_createAll rfl h (heff.trans (if_pos hpass)) ((newKeysEdit_two _ _ _).trans hedit),
      fun hfail => ends_of_eff rfl h (heff.trans (if_neg (by rw [hfail]; exact Bool.false_ne_true)))⟩
  · split
    next hform =>
      have hreach := reach_of_ready h (keyImport_check_of_form hform hexists hkek) hserved
      obtain ⟨rfl, rfl, -⟩ := execCard_of_reach hreach
      split
      next hopen => exact ends_of_eff rfl hreach ((keyImport_eff c d).trans (importEff_of_forged hw hopen))
      next b hopen =>
        split
        next st hfault => exact ends_of_eff rfl hreach ((keyImport_eff c d).trans (importEff_of_fault hw hopen hfault))
        next hfault =>
          split
          next st hroom => exact ends_of_eff rfl hreach ((keyImport_eff c d).trans (importEff_of_no_room hw hopen hfault hroom))
          next hroom =>
            refine ⟨_, rfl, ?_⟩
            have heff := (keyImport_eff c d).trans (importEff_of_sound hw hopen hfault hroom rfl)
            generalize hedit : newKeyEdit (useOnce d c.k w.1) _ = edit
            exact edits_of_createAll rfl hreach heff ((newKeysEdit_one _ _).trans hedit)
    next hform => exact refuses_of_check rfl h (keyImport_check_of_not_form (Bool.eq_false_iff.mpr hform))
  · obtain ⟨rfl, rfl, -⟩ := execCard_of_reach h
    have hm' : m = drawnMaterial d (c.b8 8) v := hm
    subst hm' hn
    refine ends_of_eff rfl h ?_
    rw [keyReplace_eff_of_record hform, replaceRecordEff_of_fresh hsource hv, replaceFin_of_ok he]
    rfl
  · obtain ⟨rfl, rfl, -⟩ := execCard_of_reach h
    refine ⟨fun hopen => ends_of_eff rfl h ?_, fun b d1 x n e hopen hfault hd1 hx hn he => ends_of_eff rfl h ?_⟩
    · rw [keyReplace_eff_of_record hform, replaceRecordEff_of_forged hsource hw hopen]
      rfl
    · subst hd1
      rw [keyReplace_eff_of_record hform, replaceRecordEff_of_block hsource hv hw hopen hfault hx hn, replaceFin_of_ok he, hn]
      rfl
  · obtain ⟨rfl, rfl, -⟩ := execCard_of_reach h
    subst hslot
    have hseq' : seq = replacedSeq d c.k (c.b2 4) := hseq
    subst hseq'
    exact ⟨fun hpass hkcv => ends_of_eff rfl h ((keyReplace_eff_of_root hform d).trans (replaceRootEff_of_passed hring hm hpass hkcv)),
      fun hfail hkcv => ends_of_eff rfl h ((keyReplace_eff_of_root hform d).trans (replaceRootEff_of_test_failed hm hfail hkcv))⟩
  · obtain ⟨-, rfl, -⟩ := execCard_of_reach h
    refine ⟨fun hop => ?_, fun x e hop hx hroom he => ?_, fun x n e hop hx hfull hexpected hnew hcheck hn hedit => ends_of_eff rfl h ?_,
      fun hop => ends_of_eff rfl h (keyComponent_eff_of_abort hop d)⟩
    · have heff := keyComponent_eff_of_begin hop d
      split
      next hpass => exact ends_of_eff rfl h (heff.trans (if_pos hpass))
      next hfail => exact ends_of_eff rfl h (heff.trans (if_neg hfail))
    · have heff := (keyComponent_eff_of_add hop d).trans (componentAdd_of_room hx hroom he)
      split
      next hbad => exact ends_of_eff rfl h (heff.trans (congrArg (envelopeAdded c d x) hbad))
      next hrefused => exact ends_of_eff rfl h (heff.trans (congrArg (envelopeAdded c d x) hrefused))
      next j m hopened => exact ends_of_eff rfl h (heff.trans (congrArg (envelopeAdded c d x) hopened))
    · exact (keyComponent_eff_of_finish hop d).trans (componentFinish_of_created hx hfull hexpected hnew hcheck hn hedit)
  · obtain ⟨rfl, -, -⟩ := execCard_of_reach h
    rw [← newKeyEdit, ← newKeysEdit_one] at he
    exact ends_of_createAll rfl h (keyDerive_eff hw hn) he
  · obtain ⟨rfl, -, -⟩ := execCard_of_reach h
    split
    next hopen => exact ends_of_eff rfl h ((keyUnwrap_eff c d).trans (keyUnwrapEff_of_forged hw hopen))
    next m hopen =>
      intro n hn
      have heff := (keyUnwrap_eff c d).trans (keyUnwrapEff_of_opened hw hopen hkcv hn)
      generalize hedit : newKeyEdit (useOnce d c.k w.1) n = edit
      exact edits_of_createAll rfl h heff ((newKeysEdit_one _ _).trans hedit)

end Sys2Proof.Machine
end

section
/-! SUPPORT. The commands that read, send or destroy keys, and the symmetric commands on data (06 R181, R184, R185, R187; 08 R234 to R258; 14 R429; O23, O24). -/

namespace Sys2Proof.Machine

open Sys2Proof.Safety

theorem firstFail_one (b : Bool) (st : Nat) : firstFail [(b, st)] = if b then some st else none := by
  cases b <;> rfl

/-! ## KEY_EXPORT, KEY_DESTROY, KEY_INFO, ATTEST, COMPONENT_TRANSPORT, KEY_WRAP -/

theorem keyExport_check_of_ok {c : Cmd} {d : Dev} {x w : Record × Bytes} (hx : sentKey c d (c.b8 0) exportPerm = .ok x)
    (hw : useKey c d (c.b8 8) (exportKek (c.b1 0x10) x.1) 1 = .ok w) :
    cardKeyExport.check c d = if c.cap < (exportBlock c d x w).length then some stBadLength else none := by
  show exportCheck c d = _
  simp only [exportCheck, hx, hw, firstFail_one, decide_eq_true_eq]

theorem keyExport_eff {c : Cmd} {d : Dev} {y v : Record × Bytes} (hy : sentKey c d (c.b8 0) exportPerm = .ok y)
    (hv : useKey c d (c.b8 8) (exportKek (c.b1 0x10) y.1) 1 = .ok v) :
    cardKeyExport.eff c d = (useOnce d c.k v.1, .done (repUsing [v.1] y.1.kcv (exportBlock c d y v) [])) := by
  simp only [cardKeyExport, hy, hv, got]
  rfl

theorem keyDestroy_eff_of_taken {c : Cmd} {d e : Dev} (hnone : reportedOf d (c.b8 0) = []) {gone : List Record}
    (hgone : gone = destroyed (storeOf d c.k (c.b8 0)) (c.b8 0)) (he : applyEdit d (destroyEdit (storeOf d c.k (c.b8 0)) gone) = (e, true)) :
    cardKeyDestroy.eff c d = (e, .done (rep (natLe 1 ((gone.map Record.handle).eraseDups).length) [])) := by
  subst hgone
  show destroyEff c d = _
  simp only [destroyEff, hnone, List.map_nil, List.append_nil, he]
  rfl

theorem keyInfo_eff_of_record {c : Cmd} {d : Dev} {x : Record × Bytes} (hop : c.b1 0 = 0) (hx : infoKey c d = .ok x) : cardKeyInfo.eff c d =
    (d, .done (rep [] (headBytes x.1 ++ natLe 2 (activeVersion (storeOf d c.k (c.b8 8))) ++ zeroBytes 6))) := by
  simp only [cardKeyInfo, hop, hx, got, if_true]
  rfl

theorem keyInfo_eff_of_slot {c : Cmd} (hop : c.b1 0 = 1) (d : Dev) : cardKeyInfo.eff c d =
    (d, .done (rep [] (bankInfo (rootSlot d (c.b2 2)).a ++ bankInfo (rootSlot d (c.b2 2)).b))) := by
  have hnot : ¬c.b1 0 = 0 := by omega
  simp only [cardKeyInfo, if_neg hnot]
  rfl

theorem attest_eff_of_tenant {c : Cmd} {d : Dev} {n : Nat} {x : Record × Bytes} (hfn : c.fn = .vf n)
    (hx : useKey c d (mkHandle n 3 0xFFFFFFFE 0) attestPerm 1 = .ok x) :
    cardAttest.eff c d = (useOnce d c.k x.1, .done (repUsing [x.1] (aesCmac x.2 (evidence c d)) (evidence c d) [])) := by
  have htenant : c.tenant = n := by rw [Cmd.tenant, hfn]
  rw [← htenant, ← attestHandle] at hx
  have hpf : ¬(c.fn == .pf) = true := by rw [hfn]; exact Bool.false_ne_true
  refine (if_neg hpf).trans ?_
  rw [hx]
  rfl

theorem attest_eff_of_pf {c : Cmd} {d : Dev} {key : Bytes} (hfn : c.fn = .pf) (hkey : rootPrivate d 3 0x49 = some key) : cardAttest.eff c d =
    ((draw d 32).2, .done (rep (natLe 8 (now d))
      (evidence c d ++ fitTo 3309 (pkSign 0x30 0x49 3309 key (evidence c d) 0 [] d.ent.draws)))) := by
  have hpf : (c.fn == .pf) = true := by rw [hfn]; rfl
  simp only [cardAttest, hpf, hkey, if_true]
  rfl

theorem componentTransport_eff {c : Cmd} {d : Dev} {x : Component} (hx : componentOf c d = some x) :
    cardComponentTransport.eff c d = (d, .done (rep [] (x.challenge ++ fitTo 1184 (pkPublicOf 0x41 x.kemPriv)))) := by
  simp only [cardComponentTransport, hx]
  rfl

theorem keyWrap_eff {c : Cmd} {d : Dev} {x w : Record × Bytes} (hx : sentKey c d (c.b8 0) wrapKeyPerm = .ok x)
    (hw : useKey c d (c.b8 8) (wrapKekPerm x.1) 1 = .ok w) :
    cardKeyWrap.eff c d = (useOnce d c.k w.1, .done (repUsing [w.1] x.1.kcv (keyWrap w.2 x.2) [])) := by
  simp only [cardKeyWrap, hx, hw, got]
  rfl

/-- Settles O23: each command by its effect; KEY_EXPORT by its check where the block has no room. -/
theorem keyReadingCompletes : Obligations.KeyReadingCompletes := by
  unfold Obligations.KeyReadingCompletes
  refine ⟨fun s k i c d1 d h x w hx hw hserved y v hy hv => ?_, fun s k i c d h hnone gone hgone e he => ?_, fun s k i c d h => ?_, fun s k i c d h => ?_,
    fun s k i c d h x hx => ends_of_eff rfl h (componentTransport_eff hx), fun s k i c d h x w hx hw => ?_⟩
  · have hcheck := keyExport_check_of_ok hx hw
    split
    next hroom =>
      have hreach := reach_of_ready h (hcheck.trans (if_neg (Nat.not_lt.mpr hroom))) hserved
      obtain ⟨rfl, -, -⟩ := execCard_of_reach hreach
      exact ends_of_eff rfl hreach (keyExport_eff hy hv)
    next hroom => exact refuses_of_check rfl h (hcheck.trans (if_pos (Nat.lt_of_not_le hroom)))
  · obtain ⟨rfl, -, -⟩ := execCard_of_reach h
    exact ends_of_eff rfl h (keyDestroy_eff_of_taken hnone hgone he)
  · obtain ⟨rfl, -, -⟩ := execCard_of_reach h
    exact ⟨fun x hop hx => ends_of_eff rfl h (keyInfo_eff_of_record hop hx), fun hop => ends_of_eff rfl h (keyInfo_eff_of_slot hop d)⟩
  · obtain ⟨rfl, -, -⟩ := execCard_of_reach h
    exact ⟨fun n x hfn hx => ends_of_eff rfl h (attest_eff_of_tenant hfn hx), fun key hfn hkey => ends_of_eff rfl h (attest_eff_of_pf hfn hkey)⟩
  · obtain ⟨rfl, -, -⟩ := execCard_of_reach h
    exact ends_of_eff rfl h (keyWrap_eff hx hw)

/-! ## SYM_CIPHER -/

/-- The writes of an output that is not empty. -/
theorem outs_of_ne_nil {out : Bytes} (h : out ≠ []) (addr : Nat) : (if out.isEmpty then [] else [(addr, out)]) = [(addr, out)] := by
  rw [if_neg (by simpa using h)]

section
variable {c : Cmd} {d : Dev} {x : Record × Bytes} (hx : cipherKey c d (symPerm c) (symValues c) = .ok x)
include hx

/-- CTR encryption under the IV that the module forms of its serial and the value taken (08 R237). -/
theorem symEff_of_ctr (hmode : c.b1 9 = 2) (henc : symEnc c = true) (hown : symHostIv c = false)
    (hout : ctr x.2 (serialIv d (takeValues d c.k x.1 (symValues c)).1) c.data ≠ []) : symEff c d =
      ((takeValues d c.k x.1 (symValues c)).2, okUsing [x.1] (serialIv d (takeValues d c.k x.1 (symValues c)).1) []
        [(c.b8 0x10, ctr x.2 (serialIv d (takeValues d c.k x.1 (symValues c)).1) c.data)]) := by
  simp [symEff, hx, got, hmode, henc, hown, hout]

/-- CBC encryption under the IV that the module draws (08 R237). -/
theorem symEff_of_cbc (hmode : c.b1 9 = 1) (henc : symEnc c = true) (hown : symHostIv c = false) {iv : Bytes}
    (hiv : iv = drawBytes (takeValues d c.k x.1 (symValues c)).2.ent.draws (blockLen (isAes x.1.alg)))
    (hout : cbcEnc (isAes x.1.alg) x.2 iv c.data ≠ []) : symEff c d =
      ((draw (takeValues d c.k x.1 (symValues c)).2 32).2, okUsing [x.1] iv [] [(c.b8 0x10, cbcEnc (isAes x.1.alg) x.2 iv c.data)]) := by
  have hdraw : draw (takeValues d c.k x.1 (symValues c)).2 (blockLen (isAes x.1.alg)) = (iv, (draw (takeValues d c.k x.1 (symValues c)).2 32).2) := by
    rw [hiv]
    rfl
  simp [symEff, hx, got, hmode, henc, hown, hout, hdraw]

/-- Encryption under an IV that the host gives. -/
theorem symEff_of_host_iv (hmode : c.b1 9 ≠ 0) (henc : symEnc c = true) (hhost : symHostIv c = true) {out : Bytes}
    (hout : out = if c.b1 9 = 1 then cbcEnc (isAes x.1.alg) x.2 (slice c.p 0x18 (blockLen (isAes x.1.alg))) c.data
      else ctr x.2 (slice c.p 0x18 (blockLen (isAes x.1.alg))) c.data) (hne : out ≠ []) : symEff c d =
      ((takeValues d c.k x.1 (symValues c)).2, okUsing [x.1] (slice c.p 0x18 (blockLen (isAes x.1.alg))) [] [(c.b8 0x10, out)]) := by
  rw [← outs_of_ne_nil hne]
  subst hout
  simp [symEff, hx, got, hmode, henc, hhost]

theorem symEff_of_ecb (hmode : c.b1 9 = 0) {out : Bytes} (hout : out = ecb (isAes x.1.alg) (!symEnc c) x.2 c.data) (hne : out ≠ []) : symEff c d =
    ((takeValues d c.k x.1 (symValues c)).2, okUsing [x.1] [] [] [(c.b8 0x10, out)]) := by
  rw [← outs_of_ne_nil hne]
  subst hout
  simp [symEff, hx, got, hmode]

theorem symEff_of_decrypt (hmode : c.b1 9 ≠ 0) (hdec : symEnc c = false) {out : Bytes}
    (hout : out = if c.b1 9 = 1 then cbcDec (isAes x.1.alg) x.2 (slice c.p 0x18 (blockLen (isAes x.1.alg))) c.data
      else ctr x.2 (slice c.p 0x18 (blockLen (isAes x.1.alg))) c.data) (hne : out ≠ []) : symEff c d =
      ((takeValues d c.k x.1 (symValues c)).2, okUsing [x.1] (natLe 4 c.data.length) [] [(c.b8 0x10, out)]) := by
  rw [← outs_of_ne_nil hne]
  subst hout
  simp [symEff, hx, got, hmode, hdec]

end

/-! ## AEAD and CMAC -/

section
variable {c : Cmd} {d : Dev} {x : Record × Bytes} (hx : cipherKey c d (aeadPerm c) 1 = .ok x)
include hx

theorem aeadEff_of_encrypt (henc : aeadEnc c = true) (hdata : c.data ≠ []) {iv : Bytes}
    (hiv : iv = if aeadEnc c && !aeadCcm c && !bit (c.b1 0x0A) 2 then serialIv d (takeValues d c.k x.1 1).1 else aeadHostIv c)
    {pass : Bytes × Bytes} (hpass : pass = aeadPass c x.2 iv (aeadAad c) c.data) : aeadEff c d =
      ((takeValues d c.k x.1 1).2, okUsing [x.1] pass.2 (fitTo 64 (fitTo 16 iv ++ natLe 1 iv.length)) [(c.b8 0x10, pass.1)]) := by
  have hlen : ¬c.data.length = 0 := by simpa using hdata
  subst hpass hiv
  simp only [aeadEff, hx, got, henc, if_true, if_neg hlen]

theorem aeadEff_of_decrypt (hdec : aeadEnc c = false) (hfirst : verifyFirst c = false) {pass : Bytes × Bytes}
    (hpass : pass = aeadPass c x.2 (aeadHostIv c) (aeadAad c) c.data) : aeadEff c d =
      if pass.2 = aeadTag c then ((takeValues d c.k x.1 1).2, okUsing [x.1] (natLe 8 c.data.length) [] (releaseWrites d c pass.1 true))
      else ((takeValues d c.k x.1 1).2, tagFail (releasedOf c.data.length) (releaseWrites d c pass.1 false)) := by
  subst hpass
  simp only [aeadEff, hx, got, hdec, hfirst, Bool.false_and, Bool.false_eq_true, if_false]

theorem aeadEff_of_unverified (hdec : aeadEnc c = false) (hfirst : verifyFirst c = true)
    (hbad : (aeadPass c x.2 (aeadHostIv c) (aeadAad c) c.data).2 ≠ aeadTag c) :
    aeadEff c d = ((takeValues d c.k x.1 1).2, tagFail 0 (refusedWrites d c c.data.length)) := by
  simp only [aeadEff, hx, got, hdec, hfirst, Bool.false_and, Bool.false_eq_true, if_false, if_true, bne_iff_ne, ne_eq, hbad, not_false_eq_true]

theorem aeadEff_of_verified (hdec : aeadEnc c = false) (hfirst : verifyFirst c = true)
    (hgood : (aeadPass c x.2 (aeadHostIv c) (aeadAad c) c.data).2 = aeadTag c) {again : Bytes} (hagain : c.i.dataAgain = some again)
    {second : Bytes × Bytes} (hsecond : second = aeadPass c x.2 (aeadHostIv c) (aeadAad c) (fitTo c.data.length again)) (hsame : second.2 = aeadTag c) :
    aeadEff c d = ((takeValues d c.k x.1 1).2, okUsing [x.1] (natLe 8 c.data.length) [] (releaseWrites d c second.1 true)) := by
  subst hsecond
  simp only [aeadEff, hx, got, hdec, hfirst, Bool.false_and, Bool.false_eq_true, if_false, if_true, hgood, bne_self_eq_false, hagain, hsame]

end

theorem cmacEff_of_ok {c : Cmd} {d : Dev} {x : Record × Bytes} (hx : useKey c d (c.b8 0) (cmacPerm c) 1 = .ok x) : cmacEff c d =
    if c.b1 8 = 0 then (useOnce d c.k x.1, okUsing [x.1] ((aesCmac x.2 c.data).take (c.b1 9)) [] [])
    else if (aesCmac x.2 c.data).take (c.b1 9) = slice c.p 0x10 (c.b1 9) then (useOnce d c.k x.1, okUsing [x.1] [] [] [])
    else (useOnce d c.k x.1, failWith stMacMismatch) := by
  simp only [cmacEff, hx, got]

theorem symCipher_eff (c : Cmd) (d : Dev) : cardSymCipher.eff c d = symEff c d := rfl
theorem aead_eff (c : Cmd) (d : Dev) : cardAead.eff c d = aeadEff c d := rfl
theorem cmac_eff (c : Cmd) (d : Dev) : cardCmac.eff c d = cmacEff c d := rfl

/-- Settles O24: SYM_CIPHER by mode and IV, AEAD by direction and verification, CMAC by its operation. -/
theorem symmetricCommandsComplete : Obligations.SymmetricCommandsComplete := by
  unfold Obligations.SymmetricCommandsComplete
  refine ⟨fun s k i c d h x t hx ht _ iv hiv => ?_, fun s k i c d h x t hx ht aad iv pass haad hiv hpass => ?_, fun s k i c d h x hx => ?_⟩
  · obtain ⟨rfl, -, -⟩ := execCard_of_reach h
    subst ht hiv
    refine ⟨fun own out hmode henc hown hiv hout hne => ?_, fun own out hmode henc hown hiv hout hne => ?_, fun out hmode henc hhost hout hne => ?_,
      fun out hmode hout hne => ?_, fun out hmode hdec hout hne => ?_⟩
    · subst hout hiv
      exact ends_of_eff rfl h ((symCipher_eff c d).trans (symEff_of_ctr hx hmode henc hown hne))
    · subst hout
      exact ends_of_eff rfl h ((symCipher_eff c d).trans (symEff_of_cbc hx hmode henc hown hiv hne))
    · exact ends_of_eff rfl h ((symCipher_eff c d).trans (symEff_of_host_iv hx hmode henc hhost hout hne))
    · exact ends_of_eff rfl h ((symCipher_eff c d).trans (symEff_of_ecb hx hmode hout hne))
    · exact ends_of_eff rfl h ((symCipher_eff c d).trans (symEff_of_decrypt hx hmode hdec hout hne))
  · obtain ⟨rfl, rfl, -⟩ := execCard_of_reach h
    subst ht haad
    refine ⟨fun henc hdata => ⟨fun hgcm => ?_, ends_of_eff rfl h ((aead_eff c d).trans (aeadEff_of_encrypt hx henc hdata hiv hpass))⟩,
      fun hdec hfirst => ?_, fun hdec hfirst => ?_⟩
    · rw [hpass, aeadPass, hgcm, henc]
      rfl
    · have hpass' : pass = aeadPass c x.2 (aeadHostIv c) (aeadAad c) c.data := by
        rw [hpass, hiv, hdec]
        rfl
      have heff := (aead_eff c d).trans (aeadEff_of_decrypt hx hdec hfirst hpass')
      exact ⟨fun hgood => ends_of_eff rfl h (heff.trans (if_pos hgood)), fun hbad => ends_of_eff rfl h (heff.trans (if_neg hbad))⟩
    · have hiv' : iv = aeadHostIv c := by
        rw [hiv, hdec]
        rfl
      subst hiv' hpass
      exact ⟨fun hbad => ends_of_eff rfl h ((aead_eff c d).trans (aeadEff_of_unverified hx hdec hfirst hbad)),
        fun again second hgood hagain hsecond hsame =>
          ends_of_eff rfl h ((aead_eff c d).trans (aeadEff_of_verified hx hdec hfirst hgood hagain hsecond hsame))⟩
  · obtain ⟨rfl, -, -⟩ := execCard_of_reach h
    have heff := (cmac_eff c d).trans (cmacEff_of_ok hx)
    refine ⟨fun hop => ends_of_eff rfl h (heff.trans (if_pos hop)), fun hop hgood => ?_, fun hop hbad => ?_⟩
    · exact ends_of_eff rfl h (heff.trans ((if_neg (by omega)).trans (if_pos hgood)))
    · exact ends_of_eff rfl h (heff.trans ((if_neg (by omega)).trans (if_neg hbad)))

end Sys2Proof.Machine
end

section
/-! SUPPORT. The public-key commands (09 R271 to R280; O25). -/

namespace Sys2Proof.Machine

open Sys2Proof.Safety

/-! ## PK_SIGN to PK_PUBLIC -/

theorem pkSign_eff {c : Cmd} {d : Dev} {x : Record × Bytes} (hx : useKey c d (c.b8 0) (signPerm c) 1 = .ok x) {n : Nat}
    (hn : n = sigLen x.1.alg (recBits x.1)) : cardPkSign.eff c d = (useOnce (draw d 32).2 c.k x.1, .done (repUsing [x.1] (natLe 2 n)
      (fitTo n (pkSign (c.b1 8) x.1.alg n x.2 c.data (c.b1 9) (schemeCtx c) d.ent.draws)) [])) := by
  subst hn
  show pkSignEff c d = _
  rw [pkSignEff, hx]
  rfl

theorem pkVerify_eff {c : Cmd} {d : Dev} {x : Record × Bytes} (hx : useKey c d (c.b8 0) (verifyPerm c) 1 = .ok x) {sig : Bytes}
    (hsig : sig = slice c.p (0x10 + c.b1 0x0A) (c.b2 0x0C)) : cardPkVerify.eff c d = (useOnce d c.k x.1, .done
      (if sig.length = sigLen x.1.alg (recBits x.1) ∧ pkVerify (c.b1 8) x.1.alg x.2 c.data (c.b1 9) (schemeCtx c) sig = true
       then repUsing [x.1] [] [] [] else bare stSignatureMismatch)) := by
  subst hsig
  show pkVerifyEff c d = _
  rw [pkVerifyEff, hx, apply_ite Fin.done]
  exact congrArg (Prod.mk _) (if_congr (Bool.and_eq_true_iff.trans (and_congr_left' decide_eq_true_iff)) rfl rfl)

/-- What PK_DECRYPT answers: the plaintext, or that the ciphertext holds none (09 R274). -/
def decryptReply (x : Record × Bytes) : Option Bytes → Reply
  | none => bare stDecryptFail
  | some m => repUsing [x.1] (natLe 2 (m.take (recBits x.1 / 8 - 66)).length) (m.take (recBits x.1 / 8 - 66)) []

theorem pkDecrypt_eff {c : Cmd} {d : Dev} {x : Record × Bytes} (hx : useKey c d (c.b8 0) decryptPerm 1 = .ok x) :
    cardPkDecrypt.eff c d = (useOnce (draw d 32).2 c.k x.1, .done (decryptReply x (oaepDecrypt x.2 c.data))) := by
  show pkDecryptEff c d = _
  rw [pkDecryptEff, hx]
  cases hm : oaepDecrypt x.2 c.data <;> simp only [got, hm] <;> rfl

theorem pkKem_eff {c : Cmd} {d e : Dev} {x : Record × Bytes} (hx : useKey c d (c.b8 0) (kemPerm c) 1 = .ok x) (he : e = useOnce (draw d 32).2 c.k x.1)
    {n : NewKey} (hn : n = kemNew c e (if c.b1 8 = 0 then Config.kemSecret x.1.alg x.2 d.ent.draws else Config.kemDecaps x.1.alg x.2 c.data)) :
    cardPkKem.eff c d = createAll e [n] (.done (repUsing [x.1] (natLe 8 n.handle ++ n.kcv)
      (if c.b1 8 = 0 then fitTo (kemLen x.1.alg) (Config.kemCiphertext x.1.alg x.2 d.ent.draws) else []) [])) := by
  subst hn
  simp only [cardPkKem, pkKemEff, hx, got, ← he]
  rfl

theorem pkPublic_eff_of_export {c : Cmd} {d : Dev} {x : Record × Bytes} (hop : c.b1 0 = 0) (hx : sentKey c d (c.b8 8) publicPerm = .ok x) :
    cardPkPublic.eff c d = (d, .done (rep ((sha256 (encodingOf x)).take 5) (encodingOf x))) := by
  show pkPublicEff c d = _
  rw [pkPublicEff, if_pos hop, hx]
  rfl

theorem pkPublic_eff_of_import {c : Cmd} (hop : c.b1 0 = 1) (d : Dev) :
    cardPkPublic.eff c d = createAll d [publicNew c d] (.done (rep (publicNew c d).kcv [])) := by
  show pkPublicEff c d = _
  rw [pkPublicEff, if_neg (by omega)]
  rfl

/-! ## EMV_CERT -/

theorem orElse_none_left (b : Option Nat) : orElse none b = b := rfl

theorem orElse_none_right (a : Option Nat) : orElse a none = a := by
  cases a <;> rfl

/-- What the check of a recovery finds against the key it recovers and its target (09 R278). -/
def targetFault (c : Cmd) (d : Dev) (x : Record × Bytes) (e : EmvData) : Option Nat :=
  match recoveredModulus (c.b1 9) (signerLen x.1) (emvRecovered x e) e with
  | none => some stBadLength
  | some m => orElse (tenantStep c d (c.b8 0x10)) (orElse (firstFail [(rsaCode (8 * m.length) == 0 || expOf (beNat e.expo) == 3, stKeyUsage)])
      (createCheck c d (c.b8 0x10) true (chainLenOf (m.length + 4))))

section
variable {c : Cmd} {d : Dev} {x : Record × Bytes} (hx : useKey c d (c.b8 0) (emvPerm c) 1 = .ok x) {e : EmvData}
  (he : emvParse (c.b1 8) (c.b1 9) (signerLen x.1) c.data = some e)
include hx he

theorem emvCert_eff_of_icc (hop : c.b1 8 = 0) : cardEmvCert.eff c d = (useOnce (draw d 32).2 c.k x.1, .done
    (repUsing [x.1] (natLe 2 (signerLen x.1) ++ natLe 2 (e.modulus.drop (signerLen x.1 - 42)).length)
      (rsaRaw (signerLen x.1) x.2 (iccBlock (signerLen x.1) e) ++ e.modulus.drop (signerLen x.1 - 42)) [])) := by
  have hnot : ¬c.b1 8 = 2 := by omega
  show emvCertEff c d = _
  simp only [emvCertEff, hx, got, he, Option.getD_some, if_neg hnot, if_pos hop]
  rfl

theorem emvCert_eff_of_static (hop : c.b1 8 = 1) : cardEmvCert.eff c d =
    (useOnce (draw d 32).2 c.k x.1, .done (repUsing [x.1] [] (rsaRaw (signerLen x.1) x.2 (ssadBlock (signerLen x.1) e)) [])) := by
  have hnot : ¬c.b1 8 = 2 := by omega
  have hnot0 : ¬c.b1 8 = 0 := by omega
  show emvCertEff c d = _
  simp only [emvCertEff, hx, got, he, Option.getD_some, if_neg hnot, if_neg hnot0]
  rfl

theorem emvCert_eff_of_recovered (hop : c.b1 8 = 2) (htarget : c.b8 0x10 = 0) : cardEmvCert.eff c d = (useOnce d c.k x.1, .done
    (if recoveredOk (c.b1 9) (signerLen x.1) (emvRecovered x e) e then repUsing [x.1] [] (emvRecovered x e) [] else bare stSignatureMismatch)) := by
  show emvCertEff c d = _
  simp only [emvCertEff, hx, got, he, Option.getD_some, if_pos hop, if_pos htarget]
  cases recoveredOk (c.b1 9) (signerLen x.1) (emvRecovered x e) e <;> rfl

theorem emvCert_eff_of_forged (hop : c.b1 8 = 2) (hbad : recoveredOk (c.b1 9) (signerLen x.1) (emvRecovered x e) e = false) :
    cardEmvCert.eff c d = (useOnce d c.k x.1, .done (bare stSignatureMismatch)) := by
  show emvCertEff c d = _
  simp only [emvCertEff, hx, got, he, Option.getD_some, if_pos hop, hbad, Bool.not_false, if_true]
  rfl

theorem emvCert_eff_of_target (hop : c.b1 8 = 2) (htarget : c.b8 0x10 ≠ 0) (hgood : recoveredOk (c.b1 9) (signerLen x.1) (emvRecovered x e) e = true)
    {m : Bytes} (hm : recoveredModulus (c.b1 9) (signerLen x.1) (emvRecovered x e) e = some m) {f : Dev} (hf : f = useOnce d c.k x.1) :
    cardEmvCert.eff c d = createAll f [emvNew f (c.b8 0x10) m e.expo] (.done (repUsing [x.1] [] (emvRecovered x e) [])) := by
  subst hf
  show emvCertEff c d = _
  simp only [emvCertEff, hx, got, he, Option.getD_some, if_pos hop, if_neg htarget, hgood, hm, Bool.not_true, Bool.false_eq_true, if_false]
  rfl

/-- The check of a recovery passes one that does not verify on to the effect (09 R278). -/
theorem emvCheck_of_forged (hop : c.b1 8 = 2) (hbad : recoveredOk (c.b1 9) (signerLen x.1) (emvRecovered x e) e = false) : emvCheck c d = none := by
  simp only [emvCheck, hx, he]
  rw [if_pos ⟨hop, hbad⟩]

/-- The check of a recovery that verifies judges its modulus and its target (09 R278). -/
theorem emvCheck_of_recovered (hop : c.b1 8 = 2) (htarget : c.b8 0x10 ≠ 0) (hroom : signerLen x.1 ≤ c.cap)
    (hgood : recoveredOk (c.b1 9) (signerLen x.1) (emvRecovered x e) e = true) : emvCheck c d = targetFault c d x e := by
  have hfits : firstFail [(decide (c.cap < signerLen x.1), stBadLength)] = none := by simp [firstFail_one, hroom]
  have hnot : ¬(c.b1 8 = 2 ∧ recoveredOk (c.b1 9) (signerLen x.1) (emvRecovered x e) e = false) := by simp [hgood]
  have hicc : ¬c.b1 8 = 0 := by omega
  have hform : firstFail [(c.b1 8 == 0 && !(e.expo.length == 1 || e.expo.length == 3), stBadParam)] = none := by simp [firstFail_one, hicc]
  simp only [emvCheck, hx, he, if_neg hnot, hform, if_neg hicc, hfits, if_pos htarget, orElse_none_left, orElse_none_right]
  rfl

end

/-! ## TR34 -/

theorem tr34_eff (c : Cmd) (d : Dev) : cardTr34.eff c d = tr34Eff c d := rfl

theorem tr34Eff_of_nonce {c : Cmd} (hop : c.b1 0 = 0) (d : Dev) : tr34Eff c d =
    (issueNonce (draw d 16).2 c.tenant (c.b8 8) (drawBytes d.ent.draws 16), .done (rep (drawBytes d.ent.draws 16) [])) := by
  simp only [tr34Eff, hop]
  rfl

theorem tr34Check_of_import {c : Cmd} {d : Dev} {x y : Record × Bytes} (hop : c.b1 0 = 1) (hx : krdKey c d 1 = .ok x) (hy : kdhKey c d = .ok y)
    (htenant : tenantStep c d (c.b8 0x18) = none) : tr34Check c d = if (tokenIn c).isNone then some stBadParam else none := by
  simp only [tr34Check, hop, hx, hy, htenant, firstFail_one, firstError]
  rfl

theorem tr34Check_of_build {c : Cmd} {d : Dev} {x y z : Record × Bytes} (hop : c.b1 0 = 2) (hx : krdKey c d 1 = .ok x) (hy : kdhKey c d = .ok y)
    (hz : tr34Sent c d = .ok z) : tr34Check c d = if c.cap < (builtToken c d).length then some stBadLength else none := by
  simp only [tr34Check, hop, hx, hy, hz, firstFail_one, firstError, decide_eq_true_eq]
  rfl

theorem tr34Eff_of_build {c : Cmd} {d : Dev} {x y z : Record × Bytes} (hop : c.b1 0 = 2) (hx : krdKey c d 1 = .ok x) (hy : kdhKey c d = .ok y)
    (hz : tr34Sent c d = .ok z) : tr34Eff c d = (useOnce (useOnce (draw d 64).2 c.k x.1) c.k y.1,
      .done (repUsing [x.1, y.1] (natLe 4 (builtToken c d).length ++ z.1.kcv) (builtToken c d) [])) := by
  simp only [tr34Eff, hop, hx, hy, hz, got]
  rfl

theorem tr34Eff_of_token {c : Cmd} {t : Config.Token} (hop : c.b1 0 = 1) (ht : tokenIn c = some t) (d : Dev) : tr34Eff c d = tr34Import c d t := by
  simp only [tr34Eff, hop, ht]

section
variable {c : Cmd} {d : Dev} {x y : Record × Bytes} (hx : krdKey c d 1 = .ok x) (hy : kdhKey c d = .ok y) {t : Config.Token}
include hx hy

theorem tr34Import_of_forged (hbad : ¬Config.tr34Verify y.2 c.data = true) :
    tr34Import c d t = (useOnce d c.k y.1, .done (bare stSignatureMismatch)) := by
  have hforged : (!Config.tr34Verify y.2 c.data) = true := by simpa using hbad
  simp only [tr34Import, hx, hy, got, hforged, if_true]
  rfl

theorem tr34Import_of_stale (hgood : Config.tr34Verify y.2 c.data = true) {e : Dev} (hstale : freshness c (useOnce d c.k y.1) t y.1 = (false, e)) :
    tr34Import c d t = (e, .done (bare stTokenRejected)) := by
  simp only [tr34Import, hx, hy, got, hgood, hstale, Bool.not_true, Bool.not_false, Bool.false_eq_true, if_false, if_true]
  rfl

section
variable (hgood : Config.tr34Verify y.2 c.data = true) {e f : Dev} (hfresh : freshness c (useOnce d c.k y.1) t y.1 = (true, e))
  (hf : f = useOnce (draw e 32).2 c.k x.1)
include hgood hfresh hf

theorem tr34Import_of_sealed (hopen : Config.tr34Open x.2 t.envelope = none) : tr34Import c d t = (f, .done (bare stDecryptFail)) := by
  simp only [tr34Import, hx, hy, got, hgood, hfresh, Bool.not_true, Bool.false_eq_true, if_false, ← hf, hopen]
  rfl

theorem tr34Import_of_fault {b : Config.KeyBlock} (hopen : Config.tr34Open x.2 t.envelope = some b) {st : Nat}
    (hfault : orElse (blockFault b (hClass (c.b8 0x18)) (contentStrength t) (c.b1 2) (zeroBytes 7)) (createCheck c f (c.b8 0x18) true 1) = some st) :
    tr34Import c d t = (f, .done (bare st)) := by
  simp only [tr34Import, hx, hy, got, hgood, hfresh, Bool.not_true, Bool.false_eq_true, if_false, ← hf, hopen, hfault]
  rfl

theorem tr34Import_of_sound {b : Config.KeyBlock} (hopen : Config.tr34Open x.2 t.envelope = some b)
    (hfault : orElse (blockFault b (hClass (c.b8 0x18)) (contentStrength t) (c.b1 2) (zeroBytes 7)) (createCheck c f (c.b8 0x18) true 1) = none) {n : NewKey}
    (hn : n = { handle := newHandle f (c.b8 0x18) [hClass (c.b8 0x18)], alg := blockAlg b, usage := b.usage, mode := b.mode, expo := b.expo,
                kcvMethod := c.b1 2, params := zeroBytes 7, notBefore := 0, notAfter := noLimit, material := b.key }) :
    tr34Import c d t = tr34Create c f t n [x.1, y.1] := by
  subst hn
  simp only [tr34Import, hx, hy, got, hgood, hfresh, Bool.not_true, Bool.false_eq_true, if_false, ← hf, hopen, hfault]

end

end

/-- The new key of a token is written, or the vault is busy. -/
theorem tr34Create_done (c : Cmd) (d : Dev) (t : Config.Token) (n : NewKey) (used : List Record) : ∃ e r, tr34Create c d t n used = (e, .done r) ∧
    (r = repUsing used (natLe 8 n.handle ++ n.kcv) [] [] ∨ r = bare stBusy) := by
  unfold tr34Create
  dsimp only
  generalize applyEdit d _ = x
  obtain ⟨e, b⟩ := x
  cases b
  · exact ⟨e, _, rfl, .inr rfl⟩
  · exact ⟨e, _, rfl, .inl rfl⟩

/-- Settles O25: each command by its effect, EMV_CERT's recovery and TR34 by their checks as well. -/
theorem publicKeyCommandsComplete : Obligations.PublicKeyCommandsComplete := by
  unfold Obligations.PublicKeyCommandsComplete
  refine ⟨fun s k i c d h x hx n hn => ?_, fun s k i c d h x hx sig hsig => ?_, fun s k i c d h x hx => ?_, fun s k i c d h x hx e n he hn => ?_,
    fun s k i c d h => ?_, fun s k i c d h x hx N e hN he => ?_, fun s k i c d1 d h hop htarget hserved x e hx1 hx he hroom y f hy hf => ?_,
    fun s k i c d h hop => ends_of_eff rfl h ((tr34_eff c d).trans (tr34Eff_of_nonce hop d)),
    fun s k i c d1 d h hop hserved x y hx1 hy1 hx hy htenant => ?_, fun s k i c d1 d h hop hserved x y z hx1 hy1 hz1 hx hy hz => ?_⟩
  · obtain ⟨rfl, -, -⟩ := execCard_of_reach h
    exact ends_of_eff rfl h (pkSign_eff hx hn)
  · obtain ⟨rfl, -, -⟩ := execCard_of_reach h
    exact ends_of_eff rfl h (pkVerify_eff hx hsig)
  · obtain ⟨rfl, -, -⟩ := execCard_of_reach h
    have heff := pkDecrypt_eff hx
    split
    next hm => exact ends_of_eff rfl h (by rw [heff, hm]; rfl)
    next m hm => exact ends_of_eff rfl h (by rw [heff, hm]; rfl)
  · obtain ⟨rfl, -, -⟩ := execCard_of_reach h
    have heff := pkKem_eff hx he hn
    generalize hedit : newKeyEdit e n = edit
    exact edits_of_createAll rfl h heff ((newKeysEdit_one _ _).trans hedit)
  · refine ⟨fun x hop hx => ends_of_eff rfl h (pkPublic_eff_of_export hop hx), fun hop => ?_⟩
    have heff := pkPublic_eff_of_import hop d
    generalize hedit : newKeyEdit d (publicNew c d) = edit
    exact edits_of_createAll rfl h heff ((newKeysEdit_one _ _).trans hedit)
  · obtain ⟨rfl, -, -⟩ := execCard_of_reach h
    subst hN
    exact ⟨fun hop => ends_of_eff rfl h (emvCert_eff_of_icc hx he hop), fun hop => ends_of_eff rfl h (emvCert_eff_of_static hx he hop),
      fun hop htarget => ends_of_eff rfl h (emvCert_eff_of_recovered hx he hop htarget)⟩
  · rw [← hop] at he
    subst hy
    split
    next hgood =>
      have hcheck := emvCheck_of_recovered hx1 he hop htarget hroom hgood
      split
      next hm => exact refuses_of_check rfl h (hcheck.trans (by rw [targetFault, hm]))
      next m hm =>
        split
        next st hst => exact refuses_of_check rfl h (hcheck.trans (by rw [targetFault, hm]; exact hst))
        next hnone =>
          have hreach := reach_of_ready h (hcheck.trans (by rw [targetFault, hm]; exact hnone)) hserved
          obtain ⟨rfl, -, -⟩ := execCard_of_reach hreach
          have heff := emvCert_eff_of_target hx he hop htarget hgood hm hf
          generalize hedit : newKeyEdit f (emvNew f (c.b8 0x10) m e.expo) = edit
          exact edits_of_createAll rfl hreach heff ((newKeysEdit_one _ _).trans hedit)
    next hbad =>
      have hforged := Bool.eq_false_iff.mpr hbad
      have hreach := reach_of_ready h (emvCheck_of_forged hx1 he hop hforged) hserved
      obtain ⟨rfl, -, -⟩ := execCard_of_reach hreach
      subst hf
      exact ends_of_eff rfl hreach (emvCert_eff_of_forged hx he hop hforged)
  · have hcheck := tr34Check_of_import hop hx1 hy1 htenant
    split
    next hnone => exact refuses_of_check rfl h (hcheck.trans (by rw [hnone]; rfl))
    next t ht =>
      have hreach := reach_of_ready h (hcheck.trans (by rw [ht]; rfl)) hserved
      obtain ⟨rfl, -, -⟩ := execCard_of_reach hreach
      have heff := (tr34_eff c d).trans (tr34Eff_of_token hop ht d)
      split
      next hgood =>
        split
        next e hstale => exact ends_of_eff rfl hreach (heff.trans (tr34Import_of_stale hx hy hgood hstale))
        next e hfresh =>
          intro f hf
          split
          next hopen => exact ends_of_eff rfl hreach (heff.trans (tr34Import_of_sealed hx hy hgood hfresh hf hopen))
          next b hopen =>
            split
            next st hfault => exact ends_of_eff rfl hreach (heff.trans (tr34Import_of_fault hx hy hgood hfresh hf hopen hfault))
            next hfault =>
              intro n hn
              obtain ⟨e', r, hcreate, hr⟩ := tr34Create_done c f t n [x.1, y.1]
              exact ⟨e', r, hcreate, ends_of_eff rfl hreach (heff.trans ((tr34Import_of_sound hx hy hgood hfresh hf hopen hfault hn).trans hcreate)), hr⟩
      next hbad => exact ends_of_eff rfl hreach (heff.trans (tr34Import_of_forged hx hy hbad))
  · have hcheck := tr34Check_of_build hop hx1 hy1 hz1
    split
    next hroom =>
      have hreach := reach_of_ready h (hcheck.trans (if_neg (Nat.not_lt.mpr hroom))) hserved
      obtain ⟨rfl, -, -⟩ := execCard_of_reach hreach
      exact ends_of_eff rfl hreach ((tr34_eff c d).trans (tr34Eff_of_build hop hx hy hz))
    next hroom => exact refuses_of_check rfl h (hcheck.trans (if_pos (Nat.lt_of_not_le hroom)))

end Sys2Proof.Machine
end

section
/-! SUPPORT. The PIN commands and the payment commands (10 R286 to R314; O26, O27). -/

namespace Sys2Proof.Machine

open Sys2Proof.Safety

/-! ## PIN commands -/

section
variable {c : Cmd} {d : Dev} {src : Record × Bytes} (hsrc : translateSrc c d = .ok src)
include hsrc

section
variable {dst : Record × Bytes} (hdst : translateDst c d = .ok dst)
include hdst

theorem pinTranslate_eff_of_invalid (hpin : pinOf (c.b1 0x20) (panOf c 0x23 0x24) (workingKey c 0 0 src) (blockOf c (c.b1 0x20) 0x30) = none) :
    cardPinTranslate.eff c d = (useBoth d c.k src.1 dst.1, .done (bare stPinBlockInvalid)) := by
  simp only [cardPinTranslate, translateEff, hsrc, hdst, got, hpin]
  rfl

theorem pinTranslate_eff_of_pin {pin : List Nat}
    (hpin : pinOf (c.b1 0x20) (panOf c 0x23 0x24) (workingKey c 0 0 src) (blockOf c (c.b1 0x20) 0x30) = some pin) {b : Bytes × Dev}
    (hb : b = encipherPin (useBoth d c.k src.1 dst.1) (c.b1 0x21) pin (panOf c 0x23 0x24) dst.2) :
    cardPinTranslate.eff c d = (b.2, .done (repUsing [src.1, dst.1] b.1 [] [])) := by
  subst hb
  simp only [cardPinTranslate, translateEff, hsrc, hdst, got, hpin]
  rfl

end

section
variable {pvk : Record × Bytes} (hpvk : pvkKey c d [mC, mV] = .ok pvk)
include hpvk

theorem pinVerify_eff_of_invalid (hpin : pinOf (c.b1 0x20) (panOf c 0x23 0x24) (workingKey c 0 0 src) (blockOf c (c.b1 0x20) 0x30) = none) :
    cardPinVerify.eff c d = (useBoth d c.k src.1 pvk.1, .done (bare stPinBlockInvalid)) := by
  simp only [cardPinVerify, pinVerifyEff, hsrc, hpvk, got, hpin]
  rfl

theorem pinVerify_eff_of_pin {pin : List Nat}
    (hpin : pinOf (c.b1 0x20) (panOf c 0x23 0x24) (workingKey c 0 0 src) (blockOf c (c.b1 0x20) 0x30) = some pin) :
    cardPinVerify.eff c d = (useBoth d c.k src.1 pvk.1, .done
      (if pinMatches c pvk 0x40 pin then repUsing [src.1, pvk.1] [] [] [] else bare stPinMismatch)) := by
  simp only [cardPinVerify, pinVerifyEff, hsrc, hpvk, got, hpin]
  cases pinMatches c pvk 0x40 pin <;> rfl

end

section
variable {pvk : Record × Bytes} (hpvk : pvkKey c d [mC] = .ok pvk)
include hpvk

theorem pinChange_eff_of_invalid (hold : pinOf (c.b1 0x20) (panOf c 0x23 0x24) (workingKey c 0 0 src) (blockOf c (c.b1 0x20) 0x30) = none) :
    cardPinChange.eff c d = (useBoth d c.k src.1 pvk.1, .done (bare stPinBlockInvalid)) := by
  simp only [cardPinChange, pinChangeEff, hsrc, hpvk, got, hold]
  rfl

section
variable {old : List Nat} (hold : pinOf (c.b1 0x20) (panOf c 0x23 0x24) (workingKey c 0 0 src) (blockOf c (c.b1 0x20) 0x30) = some old)
include hold

theorem pinChange_eff_of_mismatch (hbad : (!pinMatches c pvk 0x50 old) = true) :
    cardPinChange.eff c d = (useBoth d c.k src.1 pvk.1, .done (bare stPinMismatch)) := by
  simp only [cardPinChange, pinChangeEff, hsrc, hpvk, got, hold, hbad, if_true]
  rfl

theorem pinChange_eff_of_new_invalid (hgood : ¬(!pinMatches c pvk 0x50 old) = true)
    (hnew : pinOf (c.b1 0x20) (panOf c 0x23 0x24) (workingKey c 0 0 src) (blockOf c (c.b1 0x20) 0x40) = none) :
    cardPinChange.eff c d = (useBoth d c.k src.1 pvk.1, .done (bare stPinBlockInvalid)) := by
  simp only [cardPinChange, pinChangeEff, hsrc, hpvk, got, hold, if_neg hgood, hnew]
  rfl

theorem pinChange_eff_of_new (hgood : ¬(!pinMatches c pvk 0x50 old) = true) {new : List Nat}
    (hnew : pinOf (c.b1 0x20) (panOf c 0x23 0x24) (workingKey c 0 0 src) (blockOf c (c.b1 0x20) 0x40) = some new) :
    cardPinChange.eff c d = (useBoth d c.k src.1 pvk.1, .done
      (if newPinRefused pvk.1 (c.b1 0x21) (c.b1 0x22) new then bare stPinPolicy
       else repUsing [src.1, pvk.1] (referenceBytes (referenceOf pvk (c.b1 0x21) (c.b1 0x22) (panOf c 0x23 0x24) (slice c.p 0x50 8) new)) [] [])) := by
  simp only [cardPinChange, pinChangeEff, hsrc, hpvk, got, hold, if_neg hgood, hnew]
  cases newPinRefused pvk.1 (c.b1 0x21) (c.b1 0x22) new <;> rfl

end

end

end

theorem pinGenerate_eff {c : Cmd} {d : Dev} {pvk dst : Record × Bytes} (hpvk : genPvk c d = .ok pvk) (hdst : genDst c d = .ok dst)
    {p : List Nat × Dev} (hp : p = if c.b1 0x12 = 1 then (naturalPin pvk (slice c.p 0x20 8) (c.b1 0x14), useBoth d c.k pvk.1 dst.1)
      else randomPin (c.b1 0x13) 64 (useBoth d c.k pvk.1 dst.1))
    {b : Bytes × Dev} (hb : b = encipherPin p.2 (c.b1 0x10) p.1 (panOf c 0x15 0x16) dst.2) : cardPinGenerate.eff c d = (b.2, .done
      (repUsing [pvk.1, dst.1] b.1
        (fitTo 64 (referenceBytes (referenceOf pvk (c.b1 0x11) (c.b1 0x14) (panOf c 0x15 0x16) (slice c.p 0x20 8) p.1))) [])) := by
  simp only [cardPinGenerate, pinGenerateEff, hpvk, hdst, got, ← hp, ← hb]
  rfl

/-- Settles O26: each command by what its PIN blocks hold. -/
theorem pinCommandsComplete : Obligations.PinCommandsComplete := by
  unfold Obligations.PinCommandsComplete
  refine ⟨fun s k i c d h src dst hsrc hdst e he => ?_, fun s k i c d h src pvk hsrc hpvk => ?_, fun s k i c d h src pvk hsrc hpvk => ?_,
    fun s k i c d h pvk dst hpvk hdst p b hp hb => ?_⟩
  · obtain ⟨rfl, -, -⟩ := execCard_of_reach h
    subst he
    split
    next hpin => exact ends_of_eff rfl h (pinTranslate_eff_of_invalid hsrc hdst hpin)
    next pin hpin => exact fun b hb => ends_of_eff rfl h (pinTranslate_eff_of_pin hsrc hdst hpin hb)
  · obtain ⟨rfl, -, -⟩ := execCard_of_reach h
    refine ends_of_eff rfl h ?_
    split
    next hpin => exact pinVerify_eff_of_invalid hsrc hpvk hpin
    next pin hpin => exact pinVerify_eff_of_pin hsrc hpvk hpin
  · obtain ⟨rfl, -, -⟩ := execCard_of_reach h
    refine ends_of_eff rfl h ?_
    split
    next hold => exact pinChange_eff_of_invalid hsrc hpvk hold
    next old hold =>
      split
      next hbad => exact pinChange_eff_of_mismatch hsrc hpvk hold hbad
      next hgood =>
        split
        next hnew => exact pinChange_eff_of_new_invalid hsrc hpvk hold hgood hnew
        next new hnew => exact pinChange_eff_of_new hsrc hpvk hold hgood hnew
  · obtain ⟨rfl, -, -⟩ := execCard_of_reach h
    exact ends_of_eff rfl h (pinGenerate_eff hpvk hdst hp hb)

/-! ## Payment commands -/

theorem arqcVerify_eff {c : Cmd} {d : Dev} {x : Record × Bytes} (hx : arqcKey c d = .ok x) {sk : Bytes} (hsk : sk = arqcSession c x) :
    cardArqcVerify.eff c d = (useOnce d c.k x.1, .done
      (if emvMac (isAes x.1.alg) (c.b1 0x0B) sk (slice c.p 0x38 (c.b1 0x1B)) = slice c.p 0x20 8
       then repUsing [x.1] (arpcOf c (isAes x.1.alg) sk) [] [] else bare stCryptogramMismatch)) := by
  subst hsk
  simp only [cardArqcVerify, arqcEff, hx, got]
  split
  · rfl
  · rfl

theorem emvScript_eff {c : Cmd} {d : Dev} {x : Record × Bytes} (hx : scriptKey c d = .ok x) {sk out : Bytes}
    (hsk : sk = sessionKey (isAes x.1.alg) 0 (cardKey (c.b1 9) x.2 (panOf c 0x0A 0x10) (psnOf (c.b1 0x0B))) (slice c.p 0x0C 2))
    (hout : out = cbcEnc (isAes x.1.alg) sk (zeroBytes (blockLen (isAes x.1.alg))) (pad2 (blockLen (isAes x.1.alg)) c.data)) :
    cardEmvScript.eff c d = (useOnce d c.k x.1, .done
      (if c.b1 8 = 0 then repUsing [x.1] (emvMac (isAes x.1.alg) 2 sk c.data) [] [] else repUsing [x.1] (natLe 4 out.length) out [])) := by
  subst hout hsk
  simp only [cardEmvScript, scriptEff, hx, got]
  split
  · rfl
  · rfl

theorem cvc_eff {c : Cmd} {d : Dev} {x : Record × Bytes} (hx : cvcKey c d = .ok x) {code : Bytes}
    (hcode : code = packNibbles (padRight 6 15 (cvcOf c x))) : cardCvc.eff c d = (useOnce d c.k x.1, .done
      (if c.b1 8 = 0 then repUsing [x.1] code [] [] else if code = slice c.p 0x1A 3 then repUsing [x.1] [] [] [] else bare stCvcMismatch)) := by
  subst hcode
  simp only [cardCvc, cvcEff, hx, got]
  split
  · rfl
  · split
    · rfl
    · rfl

theorem payMac_eff {c : Cmd} {d : Dev} {x : Record × Bytes} (hx : payMacKey c d = .ok x) {mac : Bytes}
    (hmac : mac = (payMacOf c (workingKey c (1 + c.b1 0x1C) (1 + c.b1 0x18) x)).take (c.b1 0x1B)) : cardPayMac.eff c d = (useOnce d c.k x.1, .done
      (if c.b1 0x18 = 0 then repUsing [x.1] mac [] [] else if mac = slice c.p 0x20 (c.b1 0x1B) then repUsing [x.1] [] [] [] else bare stMacMismatch)) := by
  subst hmac
  simp only [cardPayMac, payMacEff, hx, got]
  split
  · rfl
  · split
    · rfl
    · rfl

/-- Settles O27: each command is its card's effect. -/
theorem paymentCommandsComplete : Obligations.PaymentCommandsComplete := by
  unfold Obligations.PaymentCommandsComplete
  refine ⟨fun s k i c d h x hx sk hsk => ?_, fun s k i c d h x hx sk out hsk hout => ?_, fun s k i c d h x hx code hcode => ?_,
    fun s k i c d h x hx mac hmac => ?_⟩
  · obtain ⟨rfl, -, -⟩ := execCard_of_reach h
    exact ends_of_eff rfl h (arqcVerify_eff hx hsk)
  · obtain ⟨rfl, -, -⟩ := execCard_of_reach h
    exact ends_of_eff rfl h (emvScript_eff hx hsk hout)
  · obtain ⟨rfl, -, -⟩ := execCard_of_reach h
    exact ends_of_eff rfl h (cvc_eff hx hcode)
  · obtain ⟨rfl, -, -⟩ := execCard_of_reach h
    exact ends_of_eff rfl h (payMac_eff hx hmac)

end Sys2Proof.Machine
end

section
/-! SUPPORT. The metering commands (11 R315 to R338; O28). -/

namespace Sys2Proof.Machine

open Sys2Proof.Safety

/-! ## What a command passed before its card's own checks -/

/-- A command at its card's checks runs on this module, its entry and its operands passed, and so did the checks before its keys. -/
theorem ready_facts {card : Card} {d : Dev} {k : Nat} {i : Inputs} {c : Cmd} {d1 : Dev} (h : ready card d k i = some (c, d1)) :
    runsHere card d k = true ∧ entryFail card d (ctxOf d k) = none ∧ readCommand card (passEntry d k) k i = .ok c ∧ ∃ e, card.preCheck c e = none := by
  unfold ready at h
  split at h
  · cases h
  next hgate =>
    simp only [Bool.or_eq_true, Bool.not_eq_true', not_or, Bool.not_eq_true, Option.isSome_eq_false_iff, Option.isNone_iff_eq_none,
      Bool.not_eq_false] at hgate
    obtain ⟨hruns, hentry⟩ := hgate
    split at h
    · cases h
    next c' hread =>
      split at h
      · cases h
      next d' _ =>
        split at h
        · cases h
        next e _ =>
          split at h
          · cases h
          next hpre =>
            obtain ⟨d2, -, heq⟩ := Option.map_eq_some_iff.mp h
            cases heq
            exact ⟨hruns, hentry, hread, e, by simpa using hpre⟩

theorem ite_bnot {α : Type} (b : Bool) (x y : α) : (if (!b) = true then x else y) = if b = true then y else x := by
  cases b <;> rfl

/-- A card with other parameters allowed. -/
def withParams (card : Card) (p : Cmd → Bool) : Card := { card with paramOk := p }

/-- What is read under other parameters is read under the card's own where they allow it, and is BAD_PARAM where they do not. -/
theorem readCommand_of_withParams {card : Card} {p : Cmd → Bool} {d : Dev} {k : Nat} {i : Inputs} {c : Cmd}
    (h : readCommand (withParams card p) d k i = .ok c) : readCommand card d k i = if card.paramOk c then .ok c else .error stBadParam := by
  have hdeferred : ∀ x, deferredFail (withParams card p) d x = deferredFail card d x := fun x => rfl
  have hlate : (withParams card p).lenLate = card.lenLate := rfl
  unfold readCommand at h ⊢
  dsimp only at h ⊢
  cases hx : paramsOf (ctxOf d k).entry i with
  | none => simp only [hx] at h; cases h
  | some x =>
    simp only [hx, hdeferred, hlate] at h ⊢
    cases hf : deferredFail card d x with
    | some st =>
      simp only [hf] at h
      split_ifs at h
    | none =>
      simp only [hf] at h ⊢
      split_ifs at h with hsgl hsum hlen hform hdata
      cases h
      rw [if_neg hsgl, if_neg hsum, if_neg hlen]
      simp only [Bool.or_eq_true, not_or, Bool.not_eq_true] at hform
      obtain ⟨⟨hreserved, hsglForm⟩, -⟩ := hform
      rw [if_neg hdata, hreserved, hsglForm, Bool.or_self, Bool.false_or]
      exact ite_bnot _ _ _

/-- A command at its checks under other parameters is at its card's where that allows its own. -/
theorem ready_of_withParams {card : Card} {p : Cmd → Bool} {d : Dev} {k : Nat} {i : Inputs} {c : Cmd} {d1 : Dev}
    (h : ready (withParams card p) d k i = some (c, d1)) (hok : card.paramOk c = true) : ready card d k i = some (c, d1) := by
  obtain ⟨hruns, hentry, hread, -⟩ := ready_facts h
  have hread' : readCommand card (passEntry d k) k i = .ok c := by rw [readCommand_of_withParams hread, if_pos hok]
  have hgate : (!runsHere card d k || (entryFail card d (ctxOf d k)).isSome) = false := by
    have hruns' : runsHere card d k = true := hruns
    have hentry' : entryFail card d (ctxOf d k) = none := hentry
    rw [hruns', hentry']
    rfl
  have hgate' : (!runsHere (withParams card p) d k || (entryFail (withParams card p) d (ctxOf d k)).isSome) = false := hgate
  rw [← h, ready, ready, hgate, hgate', hread, hread']
  rfl

/-- A command whose parameters its card refuses ends BAD_PARAM (04 R101 step 6). -/
theorem execCard_of_bad_params {card : Card} {p : Cmd → Bool} {d : Dev} {k : Nat} {i : Inputs} {c : Cmd} {d1 : Dev}
    (h : ready (withParams card p) d k i = some (c, d1)) (hbad : card.paramOk c = false) : execCard card k i d = endWith (passEntry d k) k stBadParam := by
  obtain ⟨hruns, hentry, hread, -⟩ := ready_facts h
  have hread' : readCommand card (passEntry d k) k i = .error stBadParam := by
    rw [readCommand_of_withParams hread, if_neg (by rw [hbad]; exact Bool.false_ne_true)]
  have hruns' : runsHere card d k = true := hruns
  have hentry' : entryFail card d (ctxOf d k) = none := hentry
  simp only [runsHere, Bool.and_eq_true, beq_iff_eq, Bool.not_eq_true', Option.isNone_iff_eq_none] at hruns'
  obtain ⟨⟨⟨⟨⟨⟨hcode, hop⟩, horigin⟩, hinputs⟩, hgen⟩, hbme⟩, -⟩ := hruns'
  obtain ⟨-, -, -, hpass⟩ := passEntry_fields d k
  simp only [execCard, hcode, hop, and_self, if_true, runCard, inputsOf, hinputs, abandoned, hgen, bne_self_eq_false, Bool.and_false, Bool.false_and,
    Bool.false_eq_true, if_false, hentry', hpass, hbme, Bool.not_true, hread']

/-! ## Tokens (R317 to R320) -/

theorem issueToken_of_issued {c : Cmd} {d e : Dev} {x : Record × Bytes} (hx : tokenKey c d = .ok x) {cls value : Nat} {tid : Option Nat} {t token : Nat}
    (ht : t = tid.getD (Config.freeNat 11 (c.b1 8) % 2 ^ 24))
    (htoken : token = stsTokenOf cls x (tokenBlock cls (c.b1 8) (((drawBytes d.ent.draws 1).headD 0).toNat % 16) t value))
    (hissue : issueTid (draw d 1).2 c.k x.1 tid = (e, true)) :
    issueToken c d cls value tid = (e, .done (repUsing [x.1] (natLe 9 token ++ natLe 3 t ++ natLe 2 value) (tokenEntry token) [])) := by
  subst ht htoken
  simp only [issueToken, hx, got, hissue]
  rfl

theorem issueToken_of_busy {c : Cmd} {d e : Dev} {x : Record × Bytes} (hx : tokenKey c d = .ok x) {cls value : Nat} {tid : Option Nat}
    (hissue : issueTid (draw d 1).2 c.k x.1 tid = (e, false)) : issueToken c d cls value tid = (e, .done (bare stBusy)) := by
  simp only [issueToken, hx, got, hissue]
  rfl

theorem stsCreditToken_eff {c : Cmd} {d : Dev} {x : Record × Bytes} (hx : tokenKey c d = .ok x) {a : Nat} (ha : amountField (c.b4 0x0C) = some a) :
    cardStsCreditToken.eff c d = issueToken c d 0 a (nextTid d x.1) := by
  simp only [cardStsCreditToken, hx, got, ha, Option.getD_some]

theorem stsMgmtToken_eff {c : Cmd} {d : Dev} {x : Record × Bytes} (hx : tokenKey c d = .ok x) :
    cardStsMgmtToken.eff c d = issueToken c d 2 (c.b2 0x0C) (if Config.stsSubclassHasTid (c.b1 8) then nextTid d x.1 else none) := by
  simp only [cardStsMgmtToken, hx, got]

theorem stsMgmtToken_check {c : Cmd} {d : Dev} {x : Record × Bytes} (hx : tokenKey c d = .ok x) : cardStsMgmtToken.check c d =
    if (Config.stsSubclassHasTid (c.b1 8) && (nextTid d x.1).isNone) = true then some stTidRange else none := by
  simp only [cardStsMgmtToken, hx, got, firstError, orElse_none_left, firstFail_one]

/-- The next TID of a version depends on the state by module time alone (R320). -/
theorem nextTid_of_now {d d1 : Dev} (h : now d = now d1) (r : Record) : nextTid d r = nextTid d1 r := by
  rw [nextTid, nextTid, sinceBase, sinceBase, h]

/-- The parameters of STS_MGMT_TOKEN but for the meaning of its subclass. -/
def mgmtForm (c : Cmd) : Bool := decide (c.b1 8 ≤ 15) && zeros c.p 9 3 && zeros c.p 0x0E 2

theorem stsMgmtToken_paramOk (c : Cmd) : cardStsMgmtToken.paramOk c = (mgmtForm c && Config.stsSubclassHasValue (c.b1 8)) := by
  simp only [cardStsMgmtToken, mgmtForm]
  cases decide (c.b1 8 ≤ 15) <;> cases Config.stsSubclassHasValue (c.b1 8) <;> cases zeros c.p 9 3 <;> cases zeros c.p 0x0E 2 <;> rfl

/-! ## STS keys -/

theorem stsDecoderKey_eff {c : Cmd} {d : Dev} {x : Record × Bytes} (hx : stsVending c d 0 = .ok x) {n : NewKey}
    (hn : n = { handle := newHandle (useOnce d c.k x.1) (c.b8 8) [10], alg := x.1.alg, usage := uOwn 3, mode := mB, expo := c.b1 0x1E, kcvMethod := 1,
                params := decoderParams (c.b1 0x1C) (field x.1.params 4 1) (c.b1 0x1A) (c.b1 0x1B), notBefore := c.b8 0x20, notAfter := c.b8 0x28,
                material := decoderKey x (slice c.p 0x10 10) (c.b1 0x1A) (c.b1 0x1B) }) :
    cardStsDecoderKey.eff c d = createAll (useOnce d c.k x.1) [n] (.done (repUsing [x.1] (natLe 8 n.handle ++ n.kcv) [] [])) := by
  subst hn
  simp only [cardStsDecoderKey, stsKeyEff, hx, got]
  rfl

/-- A token set holds one token for each transfer block (R322). -/
theorem changeSet_length (old : Record × Bytes) (n : NewKey) : (changeSet old n).length = changeTokens old.1.alg := by
  rw [changeSet, List.length_map, List.length_range]

theorem stsKeyChange_eff {c : Cmd} {d : Dev} {x old : Record × Bytes} (hx : stsVending c d 8 = .ok x)
    (hold : useKey c d (changedVersion c d).handle decoderPerm 1 = .ok old) {e : Dev} {n : NewKey} {r : Dev × Nat} (he : e = useBoth d c.k x.1 old.1)
    (hn : n = { nextVersion (changedVersion c e) (decoderKey x (slice c.p 0x10 10) (c.b1 0x1A) (c.b1 0x1B)) with
                params := decoderParams (c.b1 0x1C) (field x.1.params 4 1) (c.b1 0x1A) (c.b1 0x1B) })
    (hr : r = replaceRun e (storeOf e c.k (c.b8 0)) (changedVersion c e) n (c.b8 0x20) (slice c.p 0x28 5) c.i.testPasses) :
    cardStsKeyChange.eff c d = (r.1, .done
      (if r.2 = stOk then repUsing [x.1] (natLe 8 n.handle ++ n.kcv ++ natLe 1 (changeTokens old.1.alg)) ((changeSet old n).flatMap tokenEntry) []
       else bare r.2)) := by
  rw [← changeSet_length old n]
  subst hr hn he
  simp only [cardStsKeyChange, keyChangeEff, hx, hold, got]
  split
  · rfl
  · rfl

/-! ## DLMS frames (R332 to R336) -/

section
variable {c : Cmd} {d : Dev} {ek : Record × Bytes} (hek : frameEk c d = .ok ek)
include hek

section
variable {sc : Nat} (ha : scA sc = false)
include ha

theorem frameUse_of_unauthenticated : frameUse c d sc = useOnce d c.k ek.1 := by
  simp only [frameUse, hek, got, ha, Bool.false_eq_true, if_false]

theorem frameUsed_of_unauthenticated : frameUsed c d sc = [ek.1] := by
  simp only [frameUsed, hek, got, ha, Bool.false_eq_true, if_false]

end

section
variable {ak : Record × Bytes} (hak : frameAk c d = .ok ak) {sc : Nat} (ha : scA sc = true)
include hak ha

theorem frameUse_of_authenticated : frameUse c d sc = useOnce (useOnce d c.k ek.1) c.k ak.1 := by
  simp only [frameUse, hek, hak, got, ha, if_true]

theorem frameUsed_of_authenticated : frameUsed c d sc = [ek.1, ak.1] := by
  simp only [frameUsed, hek, hak, got, ha, if_true]

end
end

/-- A frame without a tag is enciphered (R332). -/
theorem scE_of_scOk {sc ak : Nat} (hok : scOk sc ak = true) (ha : scA sc = false) : scE sc = true := by
  simp only [scOk, ha, Bool.false_or, Bool.and_eq_true] at hok
  exact hok.1.2

theorem dlmsProtect_eff {c : Cmd} {d : Dev} {ek : Record × Bytes} (hek : frameEk c d = .ok ek) : cardDlmsProtect.eff c d =
    (frameUse c d (c.b1 0x20), .done (repUsing (frameUsed c d (c.b1 0x20))
      (natLe 4 (protectedFrame c ek.2 (got (frameAk c d)).2).length) [] [(c.b8 0x18, protectedFrame c ek.2 (got (frameAk c d)).2)])) := by
  simp only [cardDlmsProtect, hek]
  rfl

theorem protectedFrame_of_unauthenticated {c : Cmd} (ha : scA (c.b1 0x20) = false) (he : scE (c.b1 0x20) = true) (ek ak : Bytes) :
    protectedFrame c ek ak = natLe 1 (c.b1 0x20) ++ slice c.p 0x24 4 ++ gcmText ek (slice c.p 0x10 8 ++ slice c.p 0x24 4) c.data := by
  simp only [protectedFrame, ha, he, if_true, Bool.false_eq_true, if_false, List.append_nil]

theorem protectedFrame_of_authenticated {c : Cmd} (ha : scA (c.b1 0x20) = true) {ek ak iv body : Bytes}
    (hiv : iv = slice c.p 0x10 8 ++ slice c.p 0x24 4) (hbody : body = if scE (c.b1 0x20) then gcmText ek iv c.data else c.data) :
    protectedFrame c ek ak = natLe 1 (c.b1 0x20) ++ slice c.p 0x24 4 ++ body ++
      (gcmTag ek iv (natLe 1 (c.b1 0x20) ++ ak ++ if scE (c.b1 0x20) then [] else c.data) (if scE (c.b1 0x20) then body else [])).take 12 := by
  subst hiv hbody
  simp only [protectedFrame, frameTag, frameAad, ha, if_true]

/-- An unauthenticated frame of the lengths permitted holds an APDU (R336). -/
theorem apdu_ne_nil {c : Cmd} (ha : scA (givenSc c) = false) (hlen : frameLenOk c = true) : c.data.length - 5 ≠ 0 := by
  simp only [frameLenOk, ha, Bool.false_eq_true, if_false, Bool.and_eq_true, decide_eq_true_eq] at hlen
  omega

/-- A frame past the first checks has a permitted SC and the length it requires (R336). -/
theorem dlmsUnprotect_preCheck {c : Cmd} {d : Dev} (h : cardDlmsUnprotect.preCheck c d = none) :
    scOk (givenSc c) (c.b8 8) = true ∧ frameLenOk c = true := by
  have hfirst : firstFail [(!scOk (givenSc c) (c.b8 8), stBadParam), (!frameLenOk c, stBadLength)] = none := h
  cases hsc : scOk (givenSc c) (c.b8 8) <;> cases hlen : frameLenOk c
  case true.true => exact ⟨rfl, rfl⟩
  all_goals
    rw [hsc, hlen] at hfirst
    cases hfirst

theorem dlmsUnprotect_eff_of_unauthenticated {c : Cmd} {d : Dev} {ek : Record × Bytes} (hek : frameEk c d = .ok ek) (ha : scA (givenSc c) = false)
    (he : scE (givenSc c) = true) (hne : c.data.length - 5 ≠ 0) : cardDlmsUnprotect.eff c d = (useOnce d c.k ek.1, .done
      (repUsing [ek.1] (slice c.data 1 4 ++ natLe 1 (givenSc c) ++ zeroBytes 3 ++ natLe 4 (c.data.length - 5)) []
        [(c.b8 0x18, gcmText ek.2 (slice c.p 0x10 8 ++ slice c.data 1 4) (slice c.data 5 (c.data.length - 5)))])) := by
  simp only [cardDlmsUnprotect, unprotectEff, frameUse_of_unauthenticated hek ha, frameUsed_of_unauthenticated hek ha, hek, got, ha, he, Bool.false_and,
    Bool.false_eq_true, if_false, if_true, Nat.sub_zero, if_neg hne]
  rfl

theorem dlmsUnprotect_eff_of_authenticated {c : Cmd} {d : Dev} {ek ak : Record × Bytes} (hek : frameEk c d = .ok ek) (hak : frameAk c d = .ok ak)
    (ha : scA (givenSc c) = true) {iv body apdu : Bytes} {n : Nat} (hiv : iv = slice c.p 0x10 8 ++ slice c.data 1 4) (hn : n = c.data.length - 17)
    (hbody : body = slice c.data 5 n) (hapdu : apdu = if scE (givenSc c) then gcmText ek.2 iv body else body) :
    cardDlmsUnprotect.eff c d = (useOnce (useOnce d c.k ek.1) c.k ak.1, .done
      (if (gcmTag ek.2 iv (natLe 1 (givenSc c) ++ ak.2 ++ if scE (givenSc c) then [] else apdu) (if scE (givenSc c) then body else [])).take 12 =
          c.data.drop (5 + n)
       then repUsing [ek.1, ak.1] (slice c.data 1 4 ++ natLe 1 (givenSc c) ++ zeroBytes 3 ++ natLe 4 n) [] (if n = 0 then [] else [(c.b8 0x18, apdu)])
       else bare stTagFail)) := by
  have hlen : c.data.length - 5 - 12 = n := by omega
  subst hapdu hbody hiv
  simp only [cardDlmsUnprotect, unprotectEff, frameUse_of_authenticated hek hak ha, frameUsed_of_authenticated hek hak ha, hek, hak, got, ha, if_true, hlen,
    frameTag, frameAad, Bool.true_and, bne_iff_ne]
  rw [ite_not, apply_ite Fin.done, apply_ite (Prod.mk (useOnce (useOnce d c.k ek.1) c.k ak.1))]
  rfl

/-! ## METER_KEY_LOAD (R338) -/

section
variable {c : Cmd} {d : Dev} {w : Record × Bytes} (hw : useKey c d (c.b8 8) (meterWrapPerm c) 1 = .ok w)
include hw

theorem meterKeyLoad_eff_of_forged (hopen : keyUnwrap w.2 c.data = none) : cardMeterKeyLoad.eff c d = (useOnce d c.k w.1, .done (bare stTagFail)) := by
  simp only [cardMeterKeyLoad, meterLoadEff, hw, got, hopen]
  rfl

section
variable {m : Bytes} (hopen : keyUnwrap w.2 c.data = some m) {n : NewKey} (hn : n = unwrapNew c (useOnce d c.k w.1) m)
include hopen hn

theorem meterKeyLoad_eff_of_other_key (hbad : (slice c.p 0x18 5).any (· != 0) = true ∧ n.kcv ≠ slice c.p 0x18 5) :
    cardMeterKeyLoad.eff c d = (useOnce d c.k w.1, .done (bare stKeyCheckFail)) := by
  have hcond : ((slice c.p 0x18 5).any (· != 0) && n.kcv != slice c.p 0x18 5) = true := by
    rw [Bool.and_eq_true, bne_iff_ne]
    exact hbad
  simp only [cardMeterKeyLoad, meterLoadEff, hw, got, hopen, ← hn, hcond, if_true]
  rfl

theorem meterKeyLoad_eff_of_opened (hgood : ¬((slice c.p 0x18 5).any (· != 0) = true ∧ n.kcv ≠ slice c.p 0x18 5)) :
    cardMeterKeyLoad.eff c d = createAll (useOnce d c.k w.1) [n] (.done (repUsing [w.1] (natLe 8 n.handle ++ n.kcv) [] [])) := by
  have hcond : ¬((slice c.p 0x18 5).any (· != 0) && n.kcv != slice c.p 0x18 5) = true := by
    rw [Bool.and_eq_true, bne_iff_ne]
    exact hgood
  simp only [cardMeterKeyLoad, meterLoadEff, hw, got, hopen, ← hn, if_neg hcond]
  rfl

end
end

/-! ## STS_MGMT_TOKEN's courses, and the settling -/

/-- STS_MGMT_TOKEN of a subclass without a meaning ends BAD_PARAM; of one with a TID, TID_RANGE where no TID is left; else it issues its token (R329). -/
theorem stsMgmtToken_course {s : State} {k : Nat} {i : Inputs} {c : Cmd} {d1 d : Dev} (h : ready (withParams cardStsMgmtToken mgmtForm) s.dev k i = some (c, d1))
    (hserved : served cardStsMgmtToken d1 c = some d) {x : Record × Bytes} (hx1 : tokenKey c d1 = .ok x)
    (hnow : now d = now d1) :
    if Config.stsSubclassHasValue (c.b1 8) then
      if Config.stsSubclassHasTid (c.b1 8) && (nextTid d x.1).isNone then
        leaves (.stsMgmtToken k i) s (refuse (meetInvalid cardStsMgmtToken d1 c) k stTidRange)
      else reach cardStsMgmtToken s.dev k i = some (c, d)
    else leaves (.stsMgmtToken k i) s (endWith (passEntry s.dev k) k stBadParam) := by
  obtain ⟨-, -, hread, -⟩ := ready_facts h
  have hform : mgmtForm c = true := (readCommand_ok hread).2
  have hparam : cardStsMgmtToken.paramOk c = Config.stsSubclassHasValue (c.b1 8) := by rw [stsMgmtToken_paramOk, hform, Bool.true_and]
  split
  next hvalue =>
    have hready := ready_of_withParams h (hparam.trans hvalue)
    rw [nextTid_of_now hnow]
    split
    next hrange => exact refuses_of_check rfl hready ((stsMgmtToken_check hx1).trans (if_pos hrange))
    next hfits => exact reach_of_ready hready ((stsMgmtToken_check hx1).trans (if_neg hfits)) hserved
  next hvalue =>
    exact leaves_of (execCard cardStsMgmtToken k i) rfl (execCard_of_bad_params h (hparam.trans (Bool.eq_false_iff.mpr hvalue)))

/-- Settles O28: each command is its card's effect. -/
theorem meteringCommandsComplete : Obligations.MeteringCommandsComplete := by
  unfold Obligations.MeteringCommandsComplete
  refine ⟨fun s k i c d h x hx a t ha ht token htoken e hissue => ?_, fun s k i c d1 d h hserved x hx1 hx hnow => ?_,
    fun s k i c d h x hx e he n hn => ?_, fun s k i c d h x old hx hold e n r he hn hr => ?_, fun s k i c d h ek hek ha iv out hiv hout => ?_,
    fun s k i c d h ek ak hek hak ha iv body out hiv hbody hout => ?_, fun s k i c d h ek hek ha iv n hiv hn => ?_,
    fun s k i c d h ek ak hek hak ha iv n body apdu hiv hn hbody hapdu => ?_, fun s k i c d h r hr => ?_, fun s k i c d h w hw => ?_⟩
  · obtain ⟨rfl, -, -⟩ := execCard_of_reach h
    refine ends_of_eff rfl h ((stsCreditToken_eff hx ha).trans ?_)
    rw [ht]
    exact issueToken_of_issued hx rfl htoken hissue
  · have hcourse := stsMgmtToken_course h hserved hx1 hnow
    split
    next hvalue =>
      rw [if_pos hvalue] at hcourse
      split
      next hrange => rwa [if_pos hrange] at hcourse
      next hfits =>
        rw [if_neg hfits] at hcourse
        obtain ⟨rfl, -, -⟩ := execCard_of_reach hcourse
        refine ⟨_, _, _, rfl, rfl, rfl, ?_⟩
        split
        next e hissue => exact ends_of_eff rfl hcourse ((stsMgmtToken_eff hx).trans (issueToken_of_issued hx rfl rfl hissue))
        next e hissue => exact ends_of_eff rfl hcourse ((stsMgmtToken_eff hx).trans (issueToken_of_busy hx hissue))
    next hvalue => rwa [if_neg hvalue] at hcourse
  · obtain ⟨rfl, -, -⟩ := execCard_of_reach h
    subst he
    have heff := stsDecoderKey_eff hx hn
    generalize hedit : newKeyEdit (useOnce d c.k x.1) n = edit
    exact edits_of_createAll rfl h heff ((newKeysEdit_one _ _).trans hedit)
  · obtain ⟨rfl, rfl, -⟩ := execCard_of_reach h
    exact ends_of_eff rfl h (stsKeyChange_eff hx hold he hn hr)
  · obtain ⟨-, hparam, -⟩ := reach_passed h
    obtain ⟨rfl, -, -⟩ := execCard_of_reach h
    have hsc : scOk (c.b1 0x20) (c.b8 8) = true := (Bool.and_eq_true_iff.mp hparam).1
    subst hiv hout
    refine ends_of_eff rfl h ((dlmsProtect_eff hek).trans ?_)
    rw [protectedFrame_of_unauthenticated ha (scE_of_scOk hsc ha), frameUse_of_unauthenticated hek ha, frameUsed_of_unauthenticated hek ha]
  · obtain ⟨rfl, -, -⟩ := execCard_of_reach h
    refine ends_of_eff rfl h ((dlmsProtect_eff hek).trans ?_)
    rw [protectedFrame_of_authenticated ha hiv hbody, frameUse_of_authenticated hek hak ha, frameUsed_of_authenticated hek hak ha, hout, hak]
    rfl
  · obtain ⟨-, -, -, -, d1, hready, -⟩ := reach_passed h
    obtain ⟨-, -, -, e, hpre⟩ := ready_facts hready
    obtain ⟨rfl, -, -⟩ := execCard_of_reach h
    obtain ⟨hsc, hlen⟩ := dlmsUnprotect_preCheck hpre
    subst hiv hn
    exact ends_of_eff rfl h (dlmsUnprotect_eff_of_unauthenticated hek ha (scE_of_scOk hsc ha) (apdu_ne_nil ha hlen))
  · obtain ⟨rfl, -, -⟩ := execCard_of_reach h
    exact ends_of_eff rfl h (dlmsUnprotect_eff_of_authenticated hek hak ha hiv hn hbody hapdu)
  · obtain ⟨rfl, -, -⟩ := execCard_of_reach h
    subst hr
    exact ends_of_eff rfl h rfl
  · obtain ⟨rfl, -, -⟩ := execCard_of_reach h
    split
    next hopen => exact ends_of_eff rfl h (meterKeyLoad_eff_of_forged hw hopen)
    next m hopen =>
      intro n hn
      split
      next hbad => exact ends_of_eff rfl h (meterKeyLoad_eff_of_other_key hw hopen hn hbad)
      next hgood =>
        have heff := meterKeyLoad_eff_of_opened hw hopen hn hgood
        generalize hedit : newKeyEdit (useOnce d c.k w.1) n = edit
        exact edits_of_createAll rfl h heff ((newKeysEdit_one _ _).trans hedit)

end Sys2Proof.Machine
end

section
/-! SUPPORT. The maintenance commands and the ring commands (18 R514 to R517, 12 R373 to R376; O29, O31). -/

namespace Sys2Proof.Machine

open Sys2Proof.Safety

/-! ## Maintenance commands -/

/-- The start of an activity is logged in one entry (R502). -/
theorem startActivity_submitted (d : Dev) (a : Activity) : (startActivity d a).sen.submitted.length = d.sen.submitted.length + 1 := by
  cases h : d.mnt.occupant <;> simp [startActivity, logActivity, submit, h]

theorem startActivity_of_empty {d : Dev} (h : d.mnt.occupant = none) (a : Activity) : (startActivity d a).mnt.occupant = some a := by
  simp [startActivity, logActivity, h]

theorem startActivity_of_occupied {d : Dev} (h : d.mnt.occupant.isSome = true) (a : Activity) :
    (startActivity d a).mnt.occupant = d.mnt.occupant ∧ (startActivity d a).mnt.companion = some a := by
  obtain ⟨b, hb⟩ := Option.isSome_iff_exists.mp h
  simp [startActivity, logActivity, hb]

theorem maintStart_eff (c : Cmd) (d : Dev) : cardMaintStart.eff c d = (beginActivity (newActivity c d) (startActivity d (newActivity c d)), .done
    (rep (natLe 1 (c.b1 0) ++ natLe 1 (if d.mnt.occupant.isSome then 1 else 0) ++ zeroBytes 6 ++ natLe 8 (now d)) [])) := rfl

theorem shutdown_eff_of_cancel {c : Cmd} (h : c.b1 0 = 1) (d : Dev) : cardShutdown.eff c d = (resumeService d, .done (rep [] [])) :=
  if_pos h

section
variable {c : Cmd} (hop : c.b1 0 = 0)
include hop

theorem shutdown_eff_of_safe {d : Dev} (hsafe : d.bay.removal = .safe) (hkind : d.bay.drainKind ≠ 2) :
    cardShutdown.eff c d = (d, .done (rep (natLe 8 d.bay.safeAt) [])) := by
  have hcancel : ¬c.b1 0 = 1 := by omega
  exact (if_neg hcancel).trans (if_pos ⟨hsafe, hkind⟩)

theorem shutdown_eff_of_under_way {d : Dev} (hunder : d.bay.removal = .draining ∨ d.bay.removal = .leaving) (hkind : d.bay.drainKind ≠ 2) :
    cardShutdown.eff c d = ({ d with bay.shutdownCtxs := d.bay.shutdownCtxs ++ [c.k] }, .waits .removal) := by
  have hcancel : ¬c.b1 0 = 1 := by omega
  have hsafe : ¬(d.bay.removal = .safe ∧ d.bay.drainKind ≠ 2) := by
    rcases hunder with h | h <;> rw [h] <;> exact fun x => nomatch x.1
  have hjoins : ((d.bay.removal == .draining || d.bay.removal == .leaving) && d.bay.drainKind != 2) = true := by
    rw [Bool.and_eq_true, Bool.or_eq_true, beq_iff_eq, beq_iff_eq, bne_iff_ne]
    exact ⟨hunder, hkind⟩
  simp only [cardShutdown, shutdownEff, if_neg hcancel, if_neg hsafe, hjoins, if_true]

theorem shutdown_eff_of_idle {d : Dev} (hidle : d.bay.removal = .idle ∨ d.bay.removal = .abortWindow ∨ d.bay.drainKind = 2) :
    cardShutdown.eff c d = ({ startDrain d 1 with bay.shutdownCtxs := (startDrain d 1).bay.shutdownCtxs ++ [c.k] }, .waits .removal) := by
  have hcancel : ¬c.b1 0 = 1 := by omega
  have hsafe : ¬(d.bay.removal = .safe ∧ d.bay.drainKind ≠ 2) := by
    rintro ⟨hs, hk⟩
    rw [hs] at hidle
    simp [hk] at hidle
  have hjoins : ((d.bay.removal == .draining || d.bay.removal == .leaving) && d.bay.drainKind != 2) = false := by
    rcases hidle with h | h | h <;> simp [h]
  simp only [cardShutdown, shutdownEff, if_neg hcancel, if_neg hsafe, hjoins, Bool.false_eq_true, if_false]

end

/-- Settles O29: each command is its card's effect. -/
theorem maintenanceCommandsComplete : Obligations.MaintenanceCommandsComplete := by
  unfold Obligations.MaintenanceCommandsComplete
  refine ⟨fun s k i c d h a ha => ?_, fun s k i c d h => ends_of_eff rfl h ?_, fun s k i c d h => ends_of_eff rfl h rfl, fun s k i c d h => ?_⟩
  · subst ha
    exact ⟨rfl, rfl, rfl, startActivity_submitted _ _, fun hempty => startActivity_of_empty hempty _, fun hfull => startActivity_of_occupied hfull _,
      ends_of_eff rfl h (maintStart_eff c d)⟩
  · rfl
  · obtain ⟨rfl, -, -⟩ := execCard_of_reach h
    exact ⟨fun hop => ends_of_eff rfl h (shutdown_eff_of_cancel hop d),
      fun hop hsafe hkind => ends_of_eff rfl h (shutdown_eff_of_safe hop hsafe hkind),
      fun hop hunder hkind => waits_of_eff rfl h (shutdown_eff_of_under_way hop hunder hkind),
      fun hop hidle e he => he ▸ waits_of_eff rfl h (shutdown_eff_of_idle hop hidle)⟩

/-! ## Ring commands -/

theorem sendFrame_config (d : Dev) (dst : Nat) (b : FrameBody) : (sendFrame d dst b).ring.config = d.ring.config := by
  have hrate : (applyRing d).ring.config = d.ring.config := by
    unfold applyRing
    split <;> rfl
  rw [← hrate, sendFrame, sendVia]
  cases (dst == 255 || goesEast (applyRing d) dst) <;> cases (dst == 255 || !goesEast (applyRing d) dst) <;> rfl

theorem sendConfig_config (d : Dev) (dst : Nat) : (sendConfig d dst).ring.config = d.ring.config := by
  unfold sendConfig
  split
  · rfl
  · exact sendFrame_config _ _ _

theorem ringConfig_eff_of_adopt {c : Cmd} (hop : c.b1 0 = 1) (d : Dev) : cardRingConfig.eff c d = ringConfigAdopt c d := by
  have hread : ¬c.b1 0 = 0 := by omega
  exact (if_neg hread).trans (if_pos hop)

theorem ringConfig_eff_of_held {c : Cmd} (hop : c.b1 0 = 2) {d : Dev} {cfg : Bytes} (hcfg : d.ring.config = some cfg) :
    cardRingConfig.eff c d = (d, .done (rep (natLe 8 (cfgSeq cfg)) cfg)) := by
  have hread : ¬c.b1 0 = 0 := by omega
  have hadopt : ¬c.b1 0 = 1 := by omega
  simp only [cardRingConfig, ringConfigEff, if_neg hread, if_neg hadopt, hcfg, Option.getD_some]
  rfl

/-- The members a joined module waits for once it adopted a configuration. -/
def otherMembers (e : Dev) : List Nat := (presentMembers e).filter (· != memberNo e)

theorem ringConfigAdopt_of_alone {c : Cmd} {d : Dev} (h : joined (adoptConfig d c.data) = false ∨ otherMembers (adoptConfig d c.data) = []) :
    ringConfigAdopt c d = (adoptConfig d c.data, .done (rep [] [])) := by
  have hcond : (!joined (adoptConfig d c.data) || (otherMembers (adoptConfig d c.data)).isEmpty) = true := by
    rcases h with h | h <;> simp [h]
  exact if_pos hcond

/-- A joined member with others hands its configuration round and waits for their acknowledgements (R347). -/
theorem ringConfigAdopt_of_joined {c : Cmd} {d : Dev} (hjoined : joined (adoptConfig d c.data) = true) (hothers : otherMembers (adoptConfig d c.data) ≠ []) :
    ∃ f, f.ring.config = (adoptConfig d c.data).ring.config ∧
      ringConfigAdopt c d = (f, .waits (.joinedAcks (otherMembers (adoptConfig d c.data)).length)) := by
  have hcond : ¬(!joined (adoptConfig d c.data) || (otherMembers (adoptConfig d c.data)).isEmpty) = true := by simp [hjoined, hothers]
  refine ⟨_, ?_, (if_neg hcond : ringConfigAdopt c d = _)⟩
  exact sendConfig_config _ _

theorem ringCtrl_eff_of_leave {c : Cmd} (hop : c.b1 0 = 0) (d : Dev) :
    cardRingCtrl.eff c d = if (startLeave d).bay.ringJoin then (startLeave d, .waits .ringLeave) else (startLeave d, .done (rep [] [])) :=
  if_pos hop

section
variable {c : Cmd} (hop : c.b1 0 = 1)
include hop

theorem ringCtrl_eff_of_anchor {d : Dev} (hanchor : isAnchor d = true) : cardRingCtrl.eff c d =
    (returnLost d (lostNamed d (c.b2 4)), .done (rep (natLe 2 (lostNamed d (c.b2 4)).length) [])) := by
  have hleave : ¬c.b1 0 = 0 := by omega
  simp only [cardRingCtrl, ringCtrlEff, if_neg hleave, hanchor, if_true]
  rfl

theorem ringCtrl_eff_of_member {d : Dev} (hanchor : isAnchor d = false) : cardRingCtrl.eff c d =
    (sendFrame d d.ring.acting (.map 0 ((lostNamed d (c.b2 4)).map fun b => (b, mapOf d b))), .done (rep (natLe 2 (lostNamed d (c.b2 4)).length) [])) := by
  have hleave : ¬c.b1 0 = 0 := by omega
  simp only [cardRingCtrl, ringCtrlEff, if_neg hleave, hanchor, Bool.false_eq_true, if_false]
  rfl

end

theorem placementMapRead_eff_of_entries {c : Cmd} (hop : c.b1 0 = 0) (d : Dev) : cardPlacementMapRead.eff c d = (d, .done
    (rep (natLe 4 d.ring.mapSeq ++ natLe 2 (min (c.b2 4) (c.cap / 4)))
      ((List.range (min (c.b2 4) (c.cap / 4))).flatMap fun j => mapEntryBytes (mapOf d (c.b2 2 + j))))) :=
  if_pos hop

theorem placementMapRead_eff_of_handle {c : Cmd} (hop : c.b1 0 = 1) (d : Dev) : cardPlacementMapRead.eff c d = (d, .done
    (rep (natLe 2 (bucketOf (c.b8 8)) ++ mapEntryBytes (mapOf d (bucketOf (c.b8 8))) ++ zeroBytes 2 ++ natLe 4 d.ring.mapSeq) [])) := by
  have hentries : ¬c.b1 0 = 0 := by omega
  exact if_neg hentries

/-- Settles O31: each command is its card's effect. -/
theorem ringCommandsComplete : Obligations.RingCommandsComplete := by
  unfold Obligations.RingCommandsComplete
  refine ⟨fun s k i c d h => ⟨fun hop => ends_of_eff rfl h (if_pos hop), ?_, fun cfg hop hcfg => ends_of_eff rfl h (ringConfig_eff_of_held hop hcfg)⟩,
    fun s k i c d h => ⟨fun hop => ?_, fun hop hanchor l hl => hl ▸ ends_of_eff rfl h (ringCtrl_eff_of_anchor hop hanchor),
      fun hop hanchor l hl => hl ▸ ends_of_eff rfl h (ringCtrl_eff_of_member hop hanchor)⟩,
    fun s k i c d h => ends_of_eff rfl h rfl,
    fun s k i c d h => ⟨fun hop => ends_of_eff rfl h (placementMapRead_eff_of_entries hop d),
      fun hop => ends_of_eff rfl h (placementMapRead_eff_of_handle hop d)⟩⟩
  · intro e others hop he hothers
    subst hothers he
    refine ⟨fun halone => ends_of_eff rfl h ((ringConfig_eff_of_adopt hop d).trans (ringConfigAdopt_of_alone halone)), fun hjoined hne => ?_⟩
    obtain ⟨f, hf, heff⟩ := ringConfigAdopt_of_joined hjoined hne
    exact ⟨f, hf, waits_of_eff rfl h ((ringConfig_eff_of_adopt hop d).trans heff)⟩
  · have heff := ringCtrl_eff_of_leave hop d
    split
    next hjoin => exact waits_of_eff rfl h (heff.trans (if_pos hjoin))
    next hjoin => exact ends_of_eff rfl h (heff.trans (if_neg hjoin))

end Sys2Proof.Machine
end

section
/-! SUPPORT. The check-value units and the entropy source (16; O32, O33). -/

namespace Sys2Proof.Machine

open Sys2Proof.Safety

/-! ## Check-value units -/

theorem getD_modifyAt_same {α : Type} {l : List α} {i : Nat} (h : i < l.length) (f : α → α) (x : α) :
    (modifyAt l i f).getD i x = f (l.getD i x) := by
  rw [List.getD_eq_getElem?_getD, List.getD_eq_getElem?_getD, modifyAt, List.getElem?_modify_eq, List.getElem?_eq_getElem h]
  rfl

theorem length_modifyAt {α : Type} (l : List α) (i : Nat) (f : α → α) : (modifyAt l i f).length = l.length :=
  List.length_modify ..

theorem cvuOf_modCvu {d : Dev} {u : Nat} (h : u < d.cvu.units.length) (f : Cvu → Cvu) : cvuOf (modCvu d u f) u = f (cvuOf d u) :=
  getD_modifyAt_same h f {}

theorem modCvu_congr {d : Dev} {u : Nat} (h : u < d.cvu.units.length) {f g : Cvu → Cvu} (hfg : f (cvuOf d u) = g (cvuOf d u)) :
    modCvu d u f = modCvu d u g := by
  rw [cvuOf, List.getD_eq_getElem _ _ h] at hfg
  rw [modCvu, modCvu, modifyAt, modifyAt, List.modify_eq_set_get f h, List.modify_eq_set_get g h, List.get_eq_getElem, hfg]

theorem modCvu_units_length (d : Dev) (u : Nat) (f : Cvu → Cvu) : (modCvu d u f).cvu.units.length = d.cvu.units.length :=
  length_modifyAt ..

/-- A change of a unit by a commit, which moves its shadow values and its values alone. -/
structure KeepsJob (g : Cvu → Cvu) : Prop where
  owner : ∀ x, (g x).owner = x.owner
  irqEn : ∀ x, (g x).irqEn = x.irqEn

/-- A commit of the check-value block changes its units by their shadow values alone (16 R466). -/
theorem applyCvu_units (d : Dev) : ∃ g, KeepsJob g ∧ (applyCvu d).cvu.units = d.cvu.units.map g := by
  have htake : KeepsJob fun u => if runsJob u then u else takeShadow u := by
    refine ⟨fun x => ?_, fun x => ?_⟩
    all_goals
      split
      · rfl
      · rfl
  unfold applyCvu
  split
  · exact ⟨id, ⟨fun _ => rfl, fun _ => rfl⟩, (List.map_id _).symm⟩
  · split
    · refine ⟨dropShadow, ⟨fun _ => rfl, fun _ => rfl⟩, ?_⟩
      rw [rejectPf_cvu]
    · dsimp only
      split
      · exact ⟨_, htake, rfl⟩
      · exact ⟨_, htake, rfl⟩

theorem applyCvu_act_out (d : Dev) : (applyCvu d).act = d.act ∧ (applyCvu d).out = d.out := by
  unfold applyCvu
  split
  · exact ⟨rfl, rfl⟩
  · split
    · exact ⟨rejectPf_act .., rejectPf_out ..⟩
    · dsimp only
      split
      · exact ⟨rfl, rfl⟩
      · exact ⟨rfl, rfl⟩

/-- What an access is decided from is the access table alone. -/
theorem decideAccess_of_act {d e : Dev} (h : e.act = d.act) (cls addr : Nat) (kind : Access) : decideAccess e cls addr kind = decideAccess d cls addr kind := by
  simp only [decideAccess, stoppedPermits, decider, actEntry, h]

/-- A job that begins keeps its unit's owner and interrupt, and reads its data where the table permits it (R464). -/
theorem beginJob_unit {d : Dev} {u : Nat} (hu : u < d.cvu.units.length) :
    (cvuOf (beginJob d u) u).busy = true ∧ (cvuOf (beginJob d u) u).cmd = none ∧ (cvuOf (beginJob d u) u).owner = (cvuOf d u).owner ∧
      (cvuOf (beginJob d u) u).irqEn = (cvuOf d u).irqEn ∧
      (d.act.st ≠ 0x33 → (decideAccess d 6 hostWindow .read).1 = true →
        (beginJob d u).out = d.out ++ [.hostRead .pf (cvuOf (beginJob d u) u).addr (cvuOf (beginJob d u) u).len]) := by
  obtain ⟨g, hkeeps, hunits⟩ := applyCvu_units (modCvu d u fun c => { c with pend := false })
  obtain ⟨hact, hout⟩ := applyCvu_act_out (modCvu d u fun c => { c with pend := false })
  rw [beginJob]
  generalize applyCvu (modCvu d u fun c => { c with pend := false }) = e at hunits hact hout ⊢
  have hlen : u < e.cvu.units.length := by rwa [hunits, List.length_map, modCvu_units_length]
  have hunit : cvuOf e u = g { cvuOf d u with pend := false } := by
    have hmod : cvuOf (modCvu d u fun c => { c with pend := false }) u = { cvuOf d u with pend := false } := cvuOf_modCvu hu _
    rw [← hmod, cvuOf, cvuOf, hunits, List.getD_eq_getElem?_getD, List.getD_eq_getElem?_getD, List.getElem?_map,
      List.getElem?_eq_getElem (by rwa [modCvu_units_length])]
    rfl
  have hbegun : cvuOf (dma (modCvu e u fun c => { c with busy := true, cmd := none }) 6 .read (.hostRead .pf (cvuOf e u).addr (cvuOf e u).len)) u =
      { cvuOf e u with busy := true, cmd := none } := by
    rw [cvuOf, dma_cvu]
    exact cvuOf_modCvu hlen _
  rw [hbegun]
  refine ⟨rfl, rfl, ?_, ?_, fun hst hmay => ?_⟩
  · show (cvuOf e u).owner = _
    rw [hunit, hkeeps.owner]
  · show (cvuOf e u).irqEn = _
    rw [hunit, hkeeps.irqEn]
  · have hact' : (modCvu e u fun c => { c with busy := true, cmd := none }).act = d.act := hact
    rw [dma, hact', if_neg hst, decideAccess_of_act hact', if_pos hmay]
    exact congrArg (· ++ _) hout

/-- A word written at a unit's CVU_CTRL reaches the unit's control (R466). -/
theorem writeImage_cvuCtrl {u : Nat} (hu : u < 4) (w : Nat) (d : Dev) : writeImage .pf (0x302C + 0x100 * u) 4 w d = writeCvuCtrl u (w % 2 ^ 32) d := by
  interval_cases u
  · rfl
  · rfl
  · rfl
  · rfl

theorem cvuStart_of_may {d : Dev} {u w : Nat} (hu : u < 4) (hw : w < 2 ^ 32) (hmay : hostMay d .pf (0x302C + 0x100 * u) 4 = true) (hstart : bit w 0 = true) :
    cvuStartEff u w d = writeCvuCtrl u w d := by
  rw [cvuStartEff, if_pos hstart]
  refine (hostWrite_of_may hmay).trans ?_
  rw [writeImage_cvuCtrl hu, Nat.mod_eq_of_lt hw]

section
variable {d : Dev} {u w : Nat} (hidle : (cvuOf d u).busy = false) (hstart : bit w 0 = true)
include hidle

include hstart in
theorem writeCvuCtrl_of_start (hown : bit w 1 = true) (hbme : d.host.pfBme = true) (hu : u < d.cvu.units.length) :
    writeCvuCtrl u w d = beginJob (modCvu d u fun c => { c with owner := true, irqEn := bit w 2 }) u := by
  have hstill : ¬(cvuOf (modCvu d u fun c => { c with owner := true, irqEn := bit w 2 }) u).busy = true := by
    rw [cvuOf_modCvu hu]
    exact Bool.eq_false_iff.mp hidle
  simp only [writeCvuCtrl, hidle, hstart, hown, hbme, Bool.false_and, Bool.and_self, Bool.not_true, Bool.and_false, Bool.or_self, Bool.false_eq_true, if_false,
    if_true, startJob, if_neg hstill]

include hstart in
theorem writeCvuCtrl_of_start_without_bme (hown : bit w 1 = true) (hbme : d.host.pfBme = false) : writeCvuCtrl u w d = rejectPf d false (0x302C + 0x100 * u) := by
  simp only [writeCvuCtrl, hidle, hstart, hown, hbme, Bool.false_and, Bool.and_self, Bool.not_false, Bool.false_or, if_true, cvuCtrlOffset]

theorem writeCvuCtrl_of_given_back (hown : bit w 1 = false) :
    writeCvuCtrl u w d = modCvu d u fun c => { c with owner := false, irqEn := bit w 2 } := by
  simp only [writeCvuCtrl, hidle, hown, Bool.false_and, Bool.and_false, Bool.or_self, Bool.false_eq_true, if_false]

end

theorem nextJob_of_none {d : Dev} {u : Nat} (h : (cvuOf d u).pend = false) : nextJob d u = d := by
  rw [nextJob, h]
  rfl

theorem signalCvu_cvu (d : Dev) (u : Nat) : (signalCvu d u).cvu = d.cvu := by
  unfold signalCvu
  split
  · exact signalVector_cvu ..
  · rfl

section
variable {d : Dev} {u : Nat} (hu : u < d.cvu.units.length) (hruns : runsJob (cvuOf d u) = true) (hpend : (cvuOf d u).pend = false) (hst : d.act.st ≠ 0xF0)
include hu hruns hpend hst

theorem cvuJobDone_of_error : cvuJobDoneEff u none d = failJob d u 1 := by
  have hnext : (cvuOf (failJob d u 1) u).pend = false := by
    rw [cvuOf, failJob, signalCvu_cvu]
    show (cvuOf (modCvu d u _) u).pend = false
    rw [cvuOf_modCvu hu]
    exact hpend
  simp only [cvuJobDoneEff, hruns, Bool.not_true, Bool.false_eq_true, if_false, if_neg hst]
  exact nextJob_of_none hnext

theorem cvuJobDone_of_data (hcommit : d.cvu.pending = false) (data : Bytes) : cvuJobDoneEff u (some data) d = signalCvu (modCvu d u fun x =>
    { countJob x with busy := false, isDone := true, err := 0, result := jobResult x (data.take x.len) }) u := by
  simp only [cvuJobDoneEff, hruns, Bool.not_true, Bool.false_eq_true, if_false, if_neg hst]
  rw [modCvu_congr hu (g := fun x => { countJob x with busy := false, isDone := true, err := 0, result := jobResult x (data.take x.len) }) rfl]
  generalize hended : (modCvu d u fun x => { countJob x with busy := false, isDone := true, err := 0, result := jobResult x (data.take x.len) }) = e
  have hcvu : (signalCvu e u).cvu = e.cvu := signalCvu_cvu e u
  have hwaits : (signalCvu e u).cvu.pending = false := by
    rw [hcvu, ← hended]
    exact hcommit
  have happly : applyCvu (signalCvu e u) = signalCvu e u := by
    rw [applyCvu, hwaits]
    rfl
  rw [happly]
  refine nextJob_of_none ?_
  rw [cvuOf, hcvu, ← hended]
  show (cvuOf (modCvu d u _) u).pend = false
  rw [cvuOf_modCvu hu]
  exact hpend

end

theorem cvuJobDone_of_stopped {d : Dev} {u : Nat} (hruns : runsJob (cvuOf d u) = true) (hst : d.act.st = 0xF0) (data : Option Bytes) :
    cvuJobDoneEff u data d = failJob d u 2 := by
  simp only [cvuJobDoneEff, hruns, Bool.not_true, Bool.false_eq_true, if_false, if_pos hst]

theorem random_eff_of_inline {c : Cmd} {d : Dev} (h : c.b4 0 ≤ 16) :
    cardRandom.eff c d = ((draw d (c.b4 0)).2, .done (rep (drawBytes d.ent.draws (c.b4 0)) [])) :=
  congrArg (Prod.mk (draw d (c.b4 0)).2) (if_pos h)

theorem random_eff_of_data {c : Cmd} {d : Dev} (h : 16 < c.b4 0) :
    cardRandom.eff c d = ((draw d (c.b4 0)).2, .done (rep (natLe 4 (c.b4 0)) (drawBytes d.ent.draws (c.b4 0)))) :=
  congrArg (Prod.mk (draw d (c.b4 0)).2) (if_neg (Nat.not_le.mpr h))

theorem act_open_of_hostMay {d : Dev} {fn : Fn} {off bytes : Nat} (h : hostMay d fn off bytes = true) : d.act.st = 0x0F := by
  simp only [hostMay, Bool.and_eq_true, beq_iff_eq] at h
  exact h.1.1.1.2

/-- Settles O32: the commands by their cards, a unit's control and the end of its job by the unit's state. -/
theorem checkValuesComplete : Obligations.CheckValuesComplete := by
  unfold Obligations.CheckValuesComplete
  refine ⟨fun s k i c d h => ?_, fun s k i c d h => ⟨fun hlen => ends_of_eff rfl h (random_eff_of_inline hlen), fun hlen => ends_of_eff rfl h (random_eff_of_data hlen)⟩,
    fun s u w hu hw hmay hstart hlen hidle => ?_, fun s u data hu hruns hpend hcommit hst => ?_, fun s u data hruns hst => ?_⟩
  · obtain ⟨rfl, -, -⟩ := execCard_of_reach h
    exact ends_of_eff rfl h rfl
  · refine ⟨fun hown hbme => ?_, fun hown hbme => ?_, fun hown => ?_⟩
    · have hact : s.dev.act.st ≠ 0x33 := by rw [act_open_of_hostMay hmay]; decide
      have hmod := cvuOf_modCvu hlen fun c => { c with owner := true, irqEn := bit w 2 }
      have hunit := beginJob_unit (d := modCvu s.dev u fun c => { c with owner := true, irqEn := bit w 2 }) (by rwa [modCvu_units_length])
      rw [hmod] at hunit
      obtain ⟨hbusy, hcmd, howner, hirq, hread⟩ := hunit
      exact ⟨_, leaves_of (cvuStartEff u w) rfl ((cvuStart_of_may hu hw hmay hstart).trans (writeCvuCtrl_of_start hidle hstart hown hbme hlen)),
        hbusy, hcmd, howner, hirq, hread hact⟩
    · exact leaves_of (cvuStartEff u w) rfl ((cvuStart_of_may hu hw hmay hstart).trans (writeCvuCtrl_of_start_without_bme hidle hstart hown hbme))
    · exact leaves_of (cvuStartEff u w) rfl ((cvuStart_of_may hu hw hmay hstart).trans (writeCvuCtrl_of_given_back hidle hown))
  · exact ⟨leaves_of (cvuJobDoneEff u (some data)) rfl (cvuJobDone_of_data hu hruns hpend hst hcommit data),
      leaves_of (cvuJobDoneEff u none) rfl (cvuJobDone_of_error hu hruns hpend hst)⟩
  · exact leaves_of (cvuJobDoneEff u data) rfl (cvuJobDone_of_stopped hruns hst data)

/-! ## The entropy source -/

theorem noiseSourceTestFail_of_online {d : Dev} {src : Nat} (hfabric : d.bay.fabric = true) (hsrc : src < 4) (honline : bit d.ent.online src = true)
    (test : Nat) : noiseSourceTestFailEff src test d = judgePool (logEntropy { countTestFail d src with
      ent.online := clearBits d.ent.online (2 ^ src), ent.event := setBit d.ent.event 0 } 0 (sourceData src test)) := by
  have hgate : ¬(!d.bay.fabric || !decide (src < 4) || !bit d.ent.online src) = true := by simp [hfabric, hsrc, honline]
  exact if_neg hgate

section
variable {d : Dev} {src : Nat} (hfabric : d.bay.fabric = true) (hsrc : src < 4) (hoffline : bit d.ent.online src = false) (hkept : bit d.ent.retired src = false)
include hfabric hsrc hoffline hkept

theorem retest_gate : ¬(!d.bay.fabric || !decide (src < 4) || bit d.ent.online src || bit d.ent.retired src) = true := by
  simp [hfabric, hsrc, hoffline, hkept]

theorem noiseSourceRetest_of_pass : noiseSourceRetestEff src true d = judgePool (logEntropy { d with
    ent.online := setBit d.ent.online src, ent.inRow := modifyAt d.ent.inRow src fun _ => 0, ent.event := setBit d.ent.event 0 } 1 (natLe 1 src)) :=
  if_neg (retest_gate hfabric hsrc hoffline hkept)

theorem noiseSourceRetest_of_fail : noiseSourceRetestEff src false d = logEntropy (countTestFail d src) 0 (sourceData src 2) :=
  if_neg (retest_gate hfabric hsrc hoffline hkept)

end

theorem writeImage_entCtrl (w : Nat) (d : Dev) : writeImage .pf 0x8008 4 w d = writeEntCtrl (w % 2 ^ 32) d := rfl

/-- Settles O33: each event of the noise sources, reseeds and waits by its own effect. -/
theorem entropyEventsComplete : Obligations.EntropyEventsComplete := by
  unfold Obligations.EntropyEventsComplete
  refine ⟨fun s src test hfabric hsrc honline hlen => ?_, fun s src hfabric hsrc hoffline hkept hlen => ⟨?_, ?_⟩, fun s hfabric hseeded => ?_,
    fun s w hw hmay hdue => ?_, fun s k hcode hwait => ?_⟩
  · refine ⟨_, leaves_of (noiseSourceTestFailEff src test) rfl (noiseSourceTestFail_of_online hfabric hsrc honline test), rfl, ?_, ?_, rfl, rfl⟩
    · exact bit_setBit_same _ 0
    · exact getD_modifyAt_same (by rwa [hlen]) (fun v => holdAt 8 (v + 1)) 0
  · exact ⟨_, leaves_of (noiseSourceRetestEff src true) rfl (noiseSourceRetest_of_pass hfabric hsrc hoffline hkept), rfl,
      getD_modifyAt_same (by rwa [hlen]) (fun _ => 0) 0, rfl⟩
  · exact ⟨_, leaves_of (noiseSourceRetestEff src false) rfl (noiseSourceRetest_of_fail hfabric hsrc hoffline hkept), rfl,
      getD_modifyAt_same (by rwa [hlen]) (fun v => v + 1) 0, rfl⟩
  · refine leaves_of drbgReseedDueEff rfl ?_
    rw [drbgReseedDueEff, hfabric, hseeded]
    rfl
  · refine leaves_of (hostWrite .pf 0x8008 4 w) rfl ((hostWrite_of_may hmay).trans ?_)
    rw [writeImage_entCtrl, Nat.mod_eq_of_lt hw, writeEntCtrl, if_pos hdue]
    rfl
  · exact leaves_of (entropyWaitTimeoutEff k) rfl (if_pos ⟨hcode, hwait⟩)

end Sys2Proof.Machine
end

section
/-! SUPPORT. Doorbells and queue pairs (04 R88 to R93; O34). -/

namespace Sys2Proof.Machine

open Sys2Proof.Safety

/-! ## The words that reach a queue pair's registers -/

/-- A word of a virtual function's queue pair reaches the register of its offset, where no 64-bit register stands. -/
theorem writeImage_qp {d : Dev} {n q : Nat} (hq : q < 8) (hexists : qpExists d (.vf n) q = true) {o : Nat} (ho : o = 0x10 ∨ o = 0x18 ∨ o = 0x1C) (w : Nat) :
    writeImage (.vf n) (qpOffset (.vf n) q o) 4 w d = writeQp n q o (w % 2 ^ 32) d := by
  have hpage : (0x1000 + 0x100 * q + o) / 0x1000 = 1 := by omega
  have hoff : (0x1000 + 0x100 * q + o) % 0x1000 = 0x100 * q + o := by omega
  have hpair : (0x100 * q + o) / 0x100 = q := by omega
  have hreg : (0x100 * q + o) % 0x100 = o := by omega
  have hshape : regShape (0x1000 + 0x100 * q + o) 4 = true := by
    simp only [regShape, Bool.and_eq_true, beq_iff_eq]
    exact ⟨rfl, by omega⟩
  have hnone : reg64 d (.vf n) ((0x1000 + 0x100 * q + o) / 8 * 8) = none := by
    have hpage' : (0x1000 + 0x100 * q + o) / 8 * 8 / 0x1000 = 1 := by omega
    have hpair' : (0x1000 + 0x100 * q + o) / 8 * 8 % 0x1000 / 0x100 = q := by omega
    have hreg' : (0x1000 + 0x100 * q + o) / 8 * 8 % 0x1000 % 0x100 = o / 8 * 8 := by omega
    simp only [reg64, vf64, hpage', hpair', hreg']
    split
    · rcases ho with rfl | rfl | rfl <;> rfl
    · rfl
  simp only [writeImage, qpOffset, hshape, if_true, writeWord, hnone, writeVf32, hpage, hoff, hpair, hreg, hexists]
  rfl

theorem writeImage_adminCfg (w : Nat) (d : Dev) : writeImage .pf 0x50 4 w d = writeAdminCfg (w % 2 ^ 32) d := rfl

theorem writeImage_adminSqTail (w : Nat) (d : Dev) : writeImage .pf 0x54 4 w d = writeSqTail .pf 0 (w % 2 ^ 32 % 2 ^ 16) d := rfl

theorem writeImage_adminCqHead (w : Nat) (d : Dev) : writeImage .pf 0x58 4 w d = writeCqHead .pf 0 (w % 2 ^ 32 % 2 ^ 16) d := rfl

/-! ## Doorbells -/

section
variable {d : Dev} {fn : Fn} {q idx : Nat} (hadmin : fn = .pf → q = 0) (hq : q < 8) (hexists : qpExists d fn q = true) (hidx : idx < 2 ^ 16)
include hadmin hq hexists hidx

theorem sqTailDoorbell_of_may (hmay : hostMay d fn (qpOffset fn q 0x18) 4 = true) : doorbell fn q 0x18 idx d = writeSqTail fn q idx d := by
  have hword : idx % 2 ^ 32 % 2 ^ 16 = idx := by omega
  rw [doorbell, if_neg fun h => h.2 (hadmin h.1), hostWrite_of_may hmay]
  cases fn with
  | pf =>
    obtain rfl := hadmin rfl
    rw [qpOffset, writeImage_adminSqTail, hword]
  | vf n =>
    rw [writeImage_qp hq hexists (.inr (.inl rfl))]
    exact congrArg (writeSqTail (.vf n) q · d) hword

theorem cqHeadDoorbell_of_may (hmay : hostMay d fn (qpOffset fn q 0x1C) 4 = true) : doorbell fn q 0x1C idx d = writeCqHead fn q idx d := by
  have hword : idx % 2 ^ 32 % 2 ^ 16 = idx := by omega
  rw [doorbell, if_neg fun h => h.2 (hadmin h.1), hostWrite_of_may hmay]
  cases fn with
  | pf =>
    obtain rfl := hadmin rfl
    rw [qpOffset, writeImage_adminCqHead, hword]
  | vf n =>
    rw [writeImage_qp hq hexists (.inr (.inr rfl))]
    exact congrArg (writeCqHead (.vf n) q · d) hword

end

section
variable {d : Dev} {fn : Fn} {q idx : Nat} (hexists : qpExists d fn q = true)
include hexists

theorem writeSqTail_of_in_range (henable : (qpOf d fn q).enable = true) (hmay : mayFetch d fn = true) (hidx : idx < 2 ^ (qpOf d fn q).sqSize) :
    writeSqTail fn q idx d = setQp d fn q { qpOf d fn q with sqTail := idx } := by
  simp [writeSqTail, hexists, henable, hmay, Nat.not_le.mpr hidx]

theorem writeSqTail_of_ignored (hbad : (qpOf d fn q).enable = false ∨ mayFetch d fn = false ∨ 2 ^ (qpOf d fn q).sqSize ≤ idx) :
    writeSqTail fn q idx d = doorbellErr d fn q := by
  rw [writeSqTail, hexists]
  refine (if_neg (by decide)).trans (if_pos ?_)
  rcases hbad with h | h | h <;> simp [h]

theorem writeCqHead_of_in_range (henable : (qpOf d fn q).enable = true) (hmay : mayFetch d fn = true) (hidx : idx < 2 ^ (qpOf d fn q).cqSize)
    (hpast : headPast (qpOf d fn q) idx = false) : writeCqHead fn q idx d = setQp d fn q { qpOf d fn q with cqHead := idx } := by
  simp [writeCqHead, hexists, henable, hmay, hpast, Nat.not_le.mpr hidx]

theorem writeCqHead_of_ignored (hbad : (qpOf d fn q).enable = false ∨ mayFetch d fn = false ∨ 2 ^ (qpOf d fn q).cqSize ≤ idx ∨
    headPast (qpOf d fn q) idx = true) : writeCqHead fn q idx d = doorbellErr d fn q := by
  rw [writeCqHead, hexists]
  refine (if_neg (by decide)).trans (if_pos ?_)
  rcases hbad with h | h | h | h <;> simp [h]

end

/-! ## CFG words -/

section
variable {d : Dev} {n q w : Nat} (hq : q < 8) (hexists : qpExists d (.vf n) q = true) (hw : w < 2 ^ 32)
  (hmay : hostMay d (.vf n) (qpOffset (.vf n) q 0x10) 4 = true)
include hq hexists hw hmay

theorem hostWrite_qpCfg : hostWrite (.vf n) (qpOffset (.vf n) q 0x10) 4 w d = writeQpCfg n q w d := by
  rw [hostWrite_of_may hmay, writeImage_qp hq hexists (.inl rfl), Nat.mod_eq_of_lt hw]
  rfl

theorem qpEnable_of_may (hbit : bit w 0 = true) : qpEnableEff n q w d = writeQpCfg n q w d := by
  rw [qpEnableEff, if_pos hbit, hostWrite_qpCfg hq hexists hw hmay]

theorem qpDisable_of_may (hbit : bit w 0 = false) : qpDisableEff n q w d = writeQpCfg n q w d := by
  rw [qpDisableEff, if_neg (Bool.eq_false_iff.mp hbit), hostWrite_qpCfg hq hexists hw hmay]

end

theorem writeQpCfg_of_legal {d : Dev} {n q w : Nat} (h : cfgFault (qpBusy (qpOf d (.vf n) q)) (qpOf d (.vf n) q) w = none) :
    writeQpCfg n q w d = writeEnable (modQp d (.vf n) q fun p =>
      { p with irqEn := bit w 1, vector := bits w 5 4, sqSize := bits w 11 8, cqSize := bits w 15 12 }) (.vf n) q w := by
  rw [writeQpCfg, h]
  rfl

theorem writeQpCfg_of_illegal {d : Dev} {n q w : Nat} (h : cfgFault (qpBusy (qpOf d (.vf n) q)) (qpOf d (.vf n) q) w ≠ none) :
    writeQpCfg n q w d = rejectVf d n :=
  if_pos (Option.isSome_iff_ne_none.mpr h)

section
variable {d : Dev} {w : Nat} (hw : w < 2 ^ 32) (hmay : hostMay d .pf 0x50 4 = true)
include hw hmay

theorem hostWrite_adminCfg : hostWrite .pf 0x50 4 w d = writeAdminCfg w d := by
  rw [hostWrite_of_may hmay, writeImage_adminCfg, Nat.mod_eq_of_lt hw]

theorem adminQueueEnable_of_may (hbit : bit w 0 = true) : adminQueueEnableEff w d = writeAdminCfg w d := by
  rw [adminQueueEnableEff, if_pos hbit, hostWrite_adminCfg hw hmay]

theorem adminQueueDisable_of_may (hbit : bit w 0 = false) : adminQueueDisableEff w d = writeAdminCfg w d := by
  rw [adminQueueDisableEff, if_neg (Bool.eq_false_iff.mp hbit), hostWrite_adminCfg hw hmay]

end

theorem writeAdminCfg_of_legal {d : Dev} {w : Nat} (h : cfgFault (adminBusy d) d.glb.admin w = none) :
    writeAdminCfg w d = writeEnable (modQp d .pf 0 fun p =>
      { p with irqEn := bit w 1, fetchErr := p.fetchErr && !bit w 2, sqSize := bits w 11 8, cqSize := bits w 15 12 }) .pf 0 w := by
  rw [writeAdminCfg, h]

theorem writeAdminCfg_of_illegal {d : Dev} {w : Nat} {cause : Bool} (h : cfgFault (adminBusy d) d.glb.admin w = some cause) :
    writeAdminCfg w d = rejectPf d cause 0x50 := by
  rw [writeAdminCfg, h]

/-- Settles O34: each doorbell and CFG word by the queue pair's state. -/
theorem doorbellsAndQueuePairs : Obligations.DoorbellsAndQueuePairs := by
  unfold Obligations.DoorbellsAndQueuePairs
  refine ⟨fun s fn q idx hadmin hq hexists hidx p hp => ?_, fun s n q w hq hw hexists hmay p hp => ?_, fun s w hw hmay => ?_⟩
  · subst hp
    refine ⟨fun hmay => ?_, fun hmay => ?_⟩
    · have hwrite := sqTailDoorbell_of_may hadmin hq hexists hidx hmay
      refine ⟨fun henable hfetch hin => ?_, fun n hfn hbad => ?_, fun hfn hbad => ?_⟩
      · exact leaves_of (doorbell fn q 0x18 idx) rfl (hwrite.trans (writeSqTail_of_in_range hexists henable hfetch hin))
      · refine leaves_of (doorbell fn q 0x18 idx) rfl (hwrite.trans ((writeSqTail_of_ignored hexists hbad).trans ?_))
        subst hfn
        rfl
      · refine leaves_of (doorbell fn q 0x18 idx) rfl (hwrite.trans ((writeSqTail_of_ignored hexists (hbad.imp_right .inr)).trans ?_))
        subst hfn
        rfl
    · have hwrite := cqHeadDoorbell_of_may hadmin hq hexists hidx hmay
      refine ⟨fun henable hfetch hin hpast => ?_, fun n hfn hbad => ?_, fun hfn hbad => ?_⟩
      · exact leaves_of (doorbell fn q 0x1C idx) rfl (hwrite.trans (writeCqHead_of_in_range hexists henable hfetch hin hpast))
      · refine leaves_of (doorbell fn q 0x1C idx) rfl (hwrite.trans ((writeCqHead_of_ignored hexists hbad).trans ?_))
        subst hfn
        rfl
      · refine leaves_of (doorbell fn q 0x1C idx) rfl (hwrite.trans ((writeCqHead_of_ignored hexists (hbad.imp_right .inr)).trans ?_))
        subst hfn
        rfl
  · subst hp
    refine ⟨fun hlegal hbit => ?_, fun hlegal hbit => ?_, fun hillegal => ?_⟩
    · exact leaves_of (qpEnableEff n q w) rfl
        ((qpEnable_of_may hq hexists hw hmay hbit).trans ((writeQpCfg_of_legal hlegal).trans (if_pos hbit)))
    · exact leaves_of (qpDisableEff n q w) rfl
        ((qpDisable_of_may hq hexists hw hmay hbit).trans ((writeQpCfg_of_legal hlegal).trans (if_neg (Bool.eq_false_iff.mp hbit))))
    · split
      next hbit => exact leaves_of (qpEnableEff n q w) rfl ((qpEnable_of_may hq hexists hw hmay hbit).trans (writeQpCfg_of_illegal hillegal))
      next hbit =>
        exact leaves_of (qpDisableEff n q w) rfl
          ((qpDisable_of_may hq hexists hw hmay (Bool.eq_false_iff.mpr hbit)).trans (writeQpCfg_of_illegal hillegal))
  · refine ⟨fun hlegal hbit hoff => ?_, fun hlegal hbit hon => ?_, fun hlegal hbit => ?_, fun cause hillegal => ?_⟩
    · refine leaves_of (adminQueueEnableEff w) rfl
        ((adminQueueEnable_of_may hw hmay hbit).trans ((writeAdminCfg_of_legal hlegal).trans ((if_pos hbit).trans ?_)))
      simp only [modQp, setQp, qpOf, hoff, Bool.false_eq_true, if_false]
      rfl
    · refine leaves_of (adminQueueEnableEff w) rfl
        ((adminQueueEnable_of_may hw hmay hbit).trans ((writeAdminCfg_of_legal hlegal).trans ((if_pos hbit).trans ?_)))
      simp only [modQp, setQp, qpOf, hon, if_true]
    · exact leaves_of (adminQueueDisableEff w) rfl
        ((adminQueueDisable_of_may hw hmay hbit).trans ((writeAdminCfg_of_legal hlegal).trans (if_neg (Bool.eq_false_iff.mp hbit))))
    · split
      next hbit => exact leaves_of (adminQueueEnableEff w) rfl ((adminQueueEnable_of_may hw hmay hbit).trans (writeAdminCfg_of_illegal hillegal))
      next hbit =>
        exact leaves_of (adminQueueDisableEff w) rfl
          ((adminQueueDisable_of_may hw hmay (Bool.eq_false_iff.mpr hbit)).trans (writeAdminCfg_of_illegal hillegal))

end Sys2Proof.Machine
end

section
/-! SUPPORT. Starter: event flags and dispatch (05; O36, O37). -/

namespace Sys2Proof.Machine

open Sys2Proof.Safety

/-! ## Contexts read back -/

theorem ctxOf_modCtx_of_held (d : Dev) (k : Nat) {f : Ctx → Ctx} (h : (f (ctxOf d k)).code ≠ csFree) : ctxOf (modCtx d k f) k = f (ctxOf d k) :=
  ctxOf_setCtx_of_held d k h

theorem ctxOf_pushReady (d : Dev) (k : Nat) : ctxOf (pushReady d k) k = { ctxOf d k with code := csReady, wait := .nothing, want := none } :=
  ctxOf_modCtx_of_held d k (f := fun c => { c with code := csReady, wait := .nothing, want := none }) (show csReady ≠ csFree by decide)

theorem pushReady_ready (d : Dev) (k : Nat) : (pushReady d k).sch.ready = modifyAt d.sch.ready (ctxOf d k).level fun l => l ++ [k] := by
  have hlevel := congrArg Ctx.level (ctxOf_modCtx_of_held d k (f := fun c => { c with code := csReady, wait := .nothing, want := none })
    (show csReady ≠ csFree by decide))
  exact congrArg (fun n => modifyAt d.sch.ready n fun l => l ++ [k]) hlevel

theorem ctxOf_setCtx_of_ne_default (d : Dev) (k : Nat) {c : Ctx} (h : c ≠ {}) : ctxOf (setCtx d k c) k = c :=
  tabGet_put_self _ _ _ _ h

/-! ## Event flags (R126 to R128) -/

/-- A post counted in the flag of its context (R127). -/
def countPost (d : Dev) (k f : Nat) : Dev := modCtx d k fun c => { c with flags := tabPut 0 c.flags f (tabGet 0 c.flags f + 1) }

theorem countPost_code {d : Dev} {k : Nat} (h : ctxHeld (ctxOf d k) = true) (f : Nat) : (ctxOf (countPost d k f) k).code = (ctxOf d k).code := by
  have hread := ctxOf_modCtx_of_held d k (f := fun c => { c with flags := tabPut 0 c.flags f (tabGet 0 c.flags f + 1) })
    (show (ctxOf d k).code ≠ csFree from bne_iff_ne.mp h)
  rw [countPost, hread]

theorem wakeFlag_of_asleep {d : Dev} {k : Nat} (h : (ctxOf d k).code ≠ csWaiting ∨ (ctxOf d k).wait ≠ .nothing ∨ flagUp (ctxOf d k) = none) : wakeFlag d k = d := by
  unfold wakeFlag
  dsimp only
  split
  next hwaits =>
    obtain ⟨hcode, hwait⟩ := hwaits
    have hnone : flagUp (ctxOf d k) = none := (h.resolve_left (not_not_intro hcode)).resolve_left (not_not_intro hwait)
    rw [hnone]
  next => rfl

theorem wakeFlag_of_flag {d : Dev} {k g : Nat} (hcode : (ctxOf d k).code = csWaiting) (hwait : (ctxOf d k).wait = .nothing)
    (hup : flagUp (ctxOf d k) = some g) :
    wakeFlag d k = pushReady (modCtx d k fun c => { c with flags := tabPut 0 c.flags g (tabGet 0 c.flags g - 1), mask := 0 }) k := by
  simp only [wakeFlag, hcode, hwait, hup, and_self, if_true]

section
variable {d : Dev} {k f : Nat}

theorem takePost_of_full (h : 15 ≤ tabGet 0 (ctxOf d k).flags f) : takePost d k f =
    raiseFault { scope := 0, cause := 2, subsystem := 3, unit := 0xFF, object := k, detail := 0, inHandler := none }
      { d with sch.flagOverrun := min (d.sch.flagOverrun + 1) (2 ^ 32 - 1) } :=
  if_pos h

variable (hroom : tabGet 0 (ctxOf d k).flags f < 15) (hheld : ctxHeld (ctxOf d k) = true)
include hroom hheld

theorem takePost_of_asleep (h : (ctxOf (countPost d k f) k).code ≠ csWaiting ∨ (ctxOf (countPost d k f) k).wait ≠ .nothing ∨
    flagUp (ctxOf (countPost d k f) k) = none) : takePost d k f = countPost d k f := by
  have hwake : wakeFlag (modCtx d k fun c => { c with flags := tabPut 0 c.flags f (tabGet 0 (ctxOf d k).flags f + 1) }) k = countPost d k f :=
    wakeFlag_of_asleep h
  rw [takePost]
  dsimp only
  rw [if_neg (Nat.not_le.mpr hroom), hwake, if_pos (countPost_code hheld f)]

theorem takePost_of_flag {g : Nat} (hcode : (ctxOf (countPost d k f) k).code = csWaiting) (hwait : (ctxOf (countPost d k f) k).wait = .nothing)
    (hup : flagUp (ctxOf (countPost d k f) k) = some g) : takePost d k f = preemptAtPost
      (pushReady (modCtx (countPost d k f) k fun c => { c with flags := tabPut 0 c.flags g (tabGet 0 c.flags g - 1), mask := 0 }) k) := by
  have hwake : wakeFlag (modCtx d k fun c => { c with flags := tabPut 0 c.flags f (tabGet 0 (ctxOf d k).flags f + 1) }) k =
      pushReady (modCtx (countPost d k f) k fun c => { c with flags := tabPut 0 c.flags g (tabGet 0 c.flags g - 1), mask := 0 }) k :=
    wakeFlag_of_flag hcode hwait hup
  have hmoved : ¬csReady = (ctxOf d k).code := by
    rw [← countPost_code hheld f, hcode]
    decide
  rw [takePost]
  dsimp only
  rw [if_neg (Nat.not_le.mpr hroom), hwake, ctxOf_pushReady, if_neg hmoved]

end

/-- A post of a module whose fabric runs that names a held context and its use number reaches it (R127). -/
theorem eventFlagPost_of_named {d : Dev} {k u : Nat} (hfabric : d.bay.fabric = true) (hheld : ctxHeld (ctxOf d k) = true) (huse : (ctxOf d k).useNo = u) (f : Nat) :
    eventFlagPostEff k u f d = if (!codeKnown (ctxOf d k).code) = true then badContext { d with sch.owed := d.sch.owed.erase (k, u) } k
      else takePost { d with sch.owed := d.sch.owed.erase (k, u) } k f := by
  have hnamed : (!ctxHeld (ctxOf d k) || (ctxOf d k).useNo != u) = false := by simp [hheld, huse]
  have hctx : ctxOf { d with sch.owed := d.sch.owed.erase (k, u) } k = ctxOf d k := rfl
  simp only [eventFlagPostEff, hctx, hfabric, hnamed, Bool.not_true, Bool.false_eq_true, if_false]

theorem eventFlagPost_of_stray {d : Dev} {k u : Nat} (hfabric : d.bay.fabric = true) (hstray : ctxHeld (ctxOf d k) = false ∨ (ctxOf d k).useNo ≠ u) (f : Nat) :
    eventFlagPostEff k u f d = { d with sch.owed := d.sch.owed.erase (k, u), sch.stray := min (d.sch.stray + 1) (2 ^ 32 - 1) } := by
  have hnamed : (!ctxHeld (ctxOf d k) || (ctxOf d k).useNo != u) = true := by
    rcases hstray with h | h <;> simp [h]
  have hctx : ctxOf { d with sch.owed := d.sch.owed.erase (k, u) } k = ctxOf d k := rfl
  simp only [eventFlagPostEff, hctx, hfabric, hnamed, Bool.not_true, Bool.false_eq_true, if_false, if_true]
  rfl

/-- Settles O36: each post by the context it reaches. -/
theorem eventFlagsComplete : Obligations.EventFlagsComplete := by
  unfold Obligations.EventFlagsComplete
  refine ⟨fun s k u f hfabric _ hheld huse hknown hroom d hd => ?_, fun s k u f hfabric hheld huse hunknown => ⟨?_, ?_⟩,
    fun s k u f hfabric _ hheld huse hknown hfull => ?_, fun s k u f hfabric hstray => ?_, fun s k hcode hwait => ?_, fun d k c hlevel => ?_⟩
  · have hpost := eventFlagPost_of_named hfabric hheld huse f
    rw [hknown, Bool.not_true, if_neg Bool.false_ne_true] at hpost
    generalize howed : { s.dev with sch.owed := s.dev.sch.owed.erase (k, u) } = e at hpost hd
    have hctx : ctxOf e k = ctxOf s.dev k := howed ▸ rfl
    rw [← hctx] at hroom hheld
    obtain rfl : d = countPost e k f := hd
    exact ⟨fun hasleep => leaves_of (eventFlagPostEff k u f) rfl (hpost.trans (takePost_of_asleep hroom hheld hasleep)),
      fun g hcode hwait hup => leaves_of (eventFlagPostEff k u f) rfl (hpost.trans (takePost_of_flag hroom hheld hcode hwait hup))⟩
  · refine leaves_of (eventFlagPostEff k u f) rfl ((eventFlagPost_of_named hfabric hheld huse f).trans (if_pos ?_))
    rw [hunknown]
    rfl
  · refine leaves_of (taskWaitTimerEff k) rfl (if_pos ?_)
    rw [hfabric, hunknown]
    rfl
  · have hpost := eventFlagPost_of_named hfabric hheld huse f
    rw [hknown, Bool.not_true, if_neg Bool.false_ne_true] at hpost
    exact leaves_of (eventFlagPostEff k u f) rfl (hpost.trans (takePost_of_full (d := { s.dev with sch.owed := s.dev.sch.owed.erase (k, u) }) hfull))
  · exact leaves_of (eventFlagPostEff k u f) rfl (eventFlagPost_of_stray hfabric hstray f)
  · refine leaves_of (taskWaitTimerEff k) rfl ?_
    have hknown : ¬(s.dev.bay.fabric && !codeKnown (ctxOf s.dev k).code) = true := by
      rw [hcode, show codeKnown csWaiting = true from rfl, Bool.not_true, Bool.and_false]
      exact Bool.false_ne_true
    rw [taskWaitTimerEff, if_neg hknown, if_pos ⟨hcode, hwait⟩]
  · have hne : c ≠ {} := by
      rintro rfl
      exact absurd hlevel (Nat.lt_irrefl 0)
    rw [pushReady_ready, ctxOf_setCtx_of_ne_default d k hne]
    rfl

/-! ## Dispatch (R129, R130) -/

theorem applySch_of_none {d : Dev} (h : d.sch.pending = false) : applySch d = d := by
  rw [applySch, h]
  rfl

theorem freeCore_spec {d : Dev} {j : Nat} (h : freeCore d = some j) : (d.sch.cores.getD j {}).online = true ∧ (d.sch.cores.getD j {}).running = none := by
  obtain ⟨⟨i, c⟩, hfind, rfl⟩ := Option.map_eq_some_iff.mp h
  obtain ⟨-, hget, hc⟩ := findAt_some hfind
  rw [Bool.and_eq_true, Option.isNone_iff_eq_none] at hc
  rw [List.getD_eq_getElem?_getD, ← Nat.sub_zero i, hget]
  exact hc

/-- The core that runs at the greater level, the latest dispatched among equals: the step of `victimCore`'s search. -/
def laterVictim (best : Option (Nat × Nat × Nat)) (x : Nat × Nat × Nat) : Option (Nat × Nat × Nat) :=
  match best with
  | none => some x
  | some b => if b.1 < x.1 ∨ (b.1 = x.1 ∧ b.2.1 < x.2.1) then some x else best

theorem laterVictim_some (b x : Nat × Nat × Nat) : ∃ c, laterVictim (some b) x = some c ∧ (c = b ∨ c = x) ∧ b.1 ≤ c.1 ∧ x.1 ≤ c.1 := by
  simp only [laterVictim]
  split
  next hlater => exact ⟨x, rfl, .inr rfl, by omega, Nat.le_refl _⟩
  next hfirst => exact ⟨b, rfl, .inl rfl, Nat.le_refl _, by omega⟩

/-- The search from one candidate ends at a candidate of the greatest level. -/
theorem foldl_laterVictim_some (l : List (Nat × Nat × Nat)) (b : Nat × Nat × Nat) :
    ∃ c, l.foldl laterVictim (some b) = some c ∧ c ∈ b :: l ∧ ∀ x ∈ b :: l, x.1 ≤ c.1 := by
  induction l generalizing b with
  | nil => exact ⟨b, rfl, List.mem_singleton.mpr rfl, fun x hx => by rw [List.mem_singleton.mp hx]⟩
  | cons x l ih =>
    obtain ⟨b', hstep, hbx, hb, hx⟩ := laterVictim_some b x
    obtain ⟨c, hfold, hmem, hmax⟩ := ih b'
    refine ⟨c, by rw [List.foldl_cons, hstep, hfold], ?_, fun y hy => ?_⟩
    · rcases List.mem_cons.mp hmem with rfl | hmem
      · rcases hbx with rfl | rfl <;> simp
      · simp [hmem]
    · have hb' := hmax b' List.mem_cons_self
      rcases List.mem_cons.mp hy with rfl | hy
      · exact hb.trans hb'
      · rcases List.mem_cons.mp hy with rfl | hy
        · exact hx.trans hb'
        · exact hmax y (List.mem_cons_of_mem _ hy)

theorem foldl_laterVictim {l : List (Nat × Nat × Nat)} {c : Nat × Nat × Nat} (h : l.foldl laterVictim none = some c) : c ∈ l ∧ ∀ x ∈ l, x.1 ≤ c.1 := by
  cases l with
  | nil => cases h
  | cons b l =>
    obtain ⟨c', hfold, hmem, hmax⟩ := foldl_laterVictim_some l b
    obtain rfl : c' = c := Option.some.inj (hfold.symm.trans h)
    exact ⟨hmem, hmax⟩

/-- A core that a task of a level may pre-empt: its task's level, its order of dispatch and its number (R130). -/
def candidate (d : Dev) (level : Nat) (p : Core × Nat) : Option (Nat × Nat × Nat) :=
  match p.1.running with
  | some k => if p.1.online && decide (level < (ctxOf d k).level) && (decide (level < 2) || decide (2 ≤ (ctxOf d k).level))
      then some ((ctxOf d k).level, p.1.order, p.2) else none
  | none => none

theorem candidate_some {d : Dev} {level : Nat} {p : Core × Nat} {x : Nat × Nat × Nat} (h : candidate d level p = some x) :
    ∃ v, p.1.online = true ∧ p.1.running = some v ∧ level < (ctxOf d v).level ∧ x = ((ctxOf d v).level, p.1.order, p.2) := by
  unfold candidate at h
  split at h
  next v hrunning =>
    split at h
    next hmay =>
      simp only [Bool.and_eq_true, decide_eq_true_eq] at hmay
      exact ⟨v, hmay.1.1, hrunning, hmay.1.2, (Option.some.inj h).symm⟩
    next => cases h
  next => cases h

/-- A running task that is no candidate has no level above the one that pre-empts, or is of the management levels. -/
theorem level_of_not_candidate {d : Dev} {level : Nat} {p : Core × Nat} {w : Nat} (honline : p.1.online = true) (hrunning : p.1.running = some w)
    (h : candidate d level p = none) : (ctxOf d w).level ≤ level := by
  simp only [candidate, hrunning, honline, Bool.true_and, Bool.and_eq_true, Bool.or_eq_true, decide_eq_true_eq] at h
  split at h
  · cases h
  next hnot => omega

theorem victimCore_eq (d : Dev) (level : Nat) :
    victimCore d level = ((d.sch.cores.zipIdx.filterMap (candidate d level)).foldl laterVictim none).map fun x => x.2.2 := rfl

/-- The core that a task pre-empts runs a task of the greatest level above its own (R130). -/
theorem victimCore_spec {d : Dev} {level j : Nat} (h : victimCore d level = some j) :
    ∃ v, (d.sch.cores.getD j {}).online = true ∧ (d.sch.cores.getD j {}).running = some v ∧ level < (ctxOf d v).level ∧
      ∀ w c, c ∈ d.sch.cores → c.online = true → c.running = some w → (ctxOf d w).level ≤ (ctxOf d v).level := by
  rw [victimCore_eq] at h
  obtain ⟨x, hfold, rfl⟩ := Option.map_eq_some_iff.mp h
  obtain ⟨hmem, hmax⟩ := foldl_laterVictim hfold
  obtain ⟨⟨c, j⟩, hp, hcand⟩ := List.mem_filterMap.mp hmem
  obtain ⟨v, honline, hrunning, hlevel, rfl⟩ := candidate_some hcand
  have hget : d.sch.cores.getD j {} = c := by
    rw [List.getD_eq_getElem?_getD, List.mk_mem_zipIdx_iff_getElem?.mp hp]
    rfl
  refine ⟨v, by rwa [hget], by rwa [hget], hlevel, fun w c' hc' hon hrun => ?_⟩
  obtain ⟨i, hi⟩ := List.mem_iff_getElem?.mp hc'
  cases hother : candidate d level (c', i) with
  | none =>
    have hle := level_of_not_candidate hon hrun hother
    exact hle.trans hlevel.le
  | some y =>
    have hy := hmax y (List.mem_filterMap.mpr ⟨(c', i), List.mk_mem_zipIdx_iff_getElem?.mpr hi, hother⟩)
    obtain ⟨w', -, hrun', -, rfl⟩ := candidate_some hother
    obtain rfl : w' = w := Option.some.inj (hrun'.symm.trans hrun)
    exact hy

/-- The decision for the head of one level's list: a free core, or one whose task it pre-empts. -/
def decideLevel (d : Dev) (level : Nat) : Option (Nat × Nat × Bool) :=
  match (d.sch.ready.getD level []).head? with
  | none => none
  | some k =>
    match (if mayTakeFree d level then freeCore d else none) with
    | some j => some (k, j, false)
    | none => (victimCore d level).map fun j => (k, j, true)

theorem decideDispatch_eq (d : Dev) : decideDispatch d = (List.range 8).findSome? (decideLevel d) := rfl

theorem decideLevel_some {d : Dev} {level k j : Nat} {pre : Bool} (h : decideLevel d level = some (k, j, pre)) :
    (d.sch.ready.getD level []).head? = some k ∧ (pre = false → mayTakeFree d level = true ∧ freeCore d = some j) ∧
      (pre = true → victimCore d level = some j) := by
  unfold decideLevel at h
  split at h
  · cases h
  next k' hhead =>
    split at h
    next j' hfree =>
      cases h
      split at hfree
      next hmay => exact ⟨hhead, fun _ => ⟨hmay, hfree⟩, nofun⟩
      next => cases hfree
    next =>
      obtain ⟨j', hvictim, heq⟩ := Option.map_eq_some_iff.mp h
      cases heq
      exact ⟨hhead, nofun, fun _ => hvictim⟩

theorem decideLevel_none {d : Dev} {level : Nat} (h : decideLevel d level = none) :
    d.sch.ready.getD level [] = [] ∨ ((mayTakeFree d level = false ∨ freeCore d = none) ∧ victimCore d level = none) := by
  unfold decideLevel at h
  split at h
  next hhead => exact .inl (List.head?_eq_none_iff.mp hhead)
  next k hhead =>
    split at h
    · cases h
    next hfree =>
      refine .inr ⟨?_, Option.map_eq_none_iff.mp h⟩
      split at hfree
      next hmay => exact .inr hfree
      next hmay => exact .inl (Bool.eq_false_iff.mpr hmay)

/-- The first of a range to which a search answers: it answers there, and to none before. -/
theorem findSome?_range {α : Type} {f : Nat → Option α} {n : Nat} {x : α} (h : (List.range n).findSome? f = some x) :
    ∃ i, i < n ∧ f i = some x ∧ ∀ m, m < i → f m = none := by
  induction n with
  | zero => cases h
  | succ n ih =>
    rw [List.range_succ, List.findSome?_append] at h
    cases hfirst : (List.range n).findSome? f with
    | some y =>
      rw [hfirst] at h
      obtain rfl : y = x := Option.some.inj h
      obtain ⟨i, hi, hrest⟩ := ih hfirst
      exact ⟨i, Nat.lt_succ_of_lt hi, hrest⟩
    | none =>
      rw [hfirst, Option.none_or] at h
      refine ⟨n, Nat.lt_succ_self n, ?_, fun m hm => List.findSome?_eq_none_iff.mp hfirst m (List.mem_range.mpr hm)⟩
      simpa using h

theorem decideDispatch_some {d : Dev} {k j : Nat} {pre : Bool} (h : decideDispatch d = some (k, j, pre)) :
    ∃ level, level < 8 ∧ decideLevel d level = some (k, j, pre) ∧ ∀ m, m < level → decideLevel d m = none :=
  findSome?_range ((decideDispatch_eq d).symm.trans h)

theorem decideDispatch_victim {d : Dev} {k j : Nat} (h : decideDispatch d = some (k, j, true)) : ∃ v, (d.sch.cores.getD j {}).running = some v := by
  obtain ⟨level, -, hlevel, -⟩ := decideDispatch_some h
  obtain ⟨-, -, hvictim⟩ := decideLevel_some hlevel
  obtain ⟨v, -, hrunning, -⟩ := victimCore_spec (hvictim rfl)
  exact ⟨v, hrunning⟩

theorem taskDispatch_of_toRun {d : Dev} (hfabric : d.bay.fabric = true) (hstop : d.glb.failStop = false) {k : Nat} {l : List Nat}
    (hrun : d.sch.toRun = k :: l) (r : Run) : taskDispatchEff r d = runOn r { d with sch.toRun := l } k := by
  simp only [taskDispatchEff, hfabric, hstop, Bool.not_true, Bool.or_self, Bool.false_eq_true, if_false, hrun]

theorem taskDispatch_of_decided {d : Dev} (hfabric : d.bay.fabric = true) (hstop : d.glb.failStop = false) (hrun : d.sch.toRun = [])
    (hpending : d.sch.pending = false) {k j : Nat} {pre : Bool} (hdecide : decideDispatch d = some (k, j, pre)) (hready : (ctxOf d k).code = csReady)
    (r : Run) : taskDispatchEff r d = runOn r (onCore (if pre then preempt d j else d) k j) k := by
  have hcode : ¬(ctxOf d k).code ≠ csReady := not_not_intro hready
  simp only [taskDispatchEff, hfabric, hstop, Bool.not_true, Bool.or_self, Bool.false_eq_true, if_false, hrun, applySch_of_none hpending, hdecide, if_neg hcode]

theorem preemptAtPost_of_decided {d : Dev} {k j : Nat} (hdecide : decideDispatch d = some (k, j, true)) (hpending : d.sch.pending = false)
    (hstop : d.glb.failStop = false) (hready : (ctxOf d k).code = csReady) :
    preemptAtPost d = { onCore (preempt d j) k j with sch.toRun := (onCore (preempt d j) k j).sch.toRun ++ [k] } := by
  simp only [preemptAtPost, applySch_of_none hpending, hdecide, hready, hstop, Bool.not_false, and_self, if_true]

theorem onCore_code (d : Dev) (k j : Nat) : (ctxOf (onCore d k j) k).code = csRunning := by
  have hread := ctxOf_modCtx_of_held (unready d k) k (f := fun c => { c with code := csRunning, wait := .nothing }) (show csRunning ≠ csFree by decide)
  exact congrArg Ctx.code hread

theorem runLimitExpiry_of_running {d : Dev} {core k : Nat} (h : (d.sch.cores.getD core {}).running = some k) : runLimitExpiryEff core d =
    raiseFault { scope := 0, cause := 1, subsystem := 3, unit := core, object := k, detail := 0, inHandler := none }
      (modCtx (leaveCore { d with sch.runLimitHits := min (d.sch.runLimitHits + 1) (2 ^ 32 - 1) } k) k fun c =>
        { c with code := csWaiting, wait := .nothing, mask := 0 }) := by
  rw [runLimitExpiryEff, h]
  rfl

/-- Settles O37: a dispatch runs the task that a post put on a core, or the one its decision takes. -/
theorem dispatchCompletes : Obligations.DispatchCompletes := by
  unfold Obligations.DispatchCompletes
  refine ⟨fun s k l hfabric hstop hrun d hd => ?_, fun d k j hdecide hpending hstop hready => ?_,
    fun s k j hfabric hstop hrun hpending hdecide hready => ?_, fun s k j v hfabric hstop hrun hpending hdecide _ hready => ?_,
    fun d k j hj => ⟨getD_modifyAt_same hj _ _, rfl, onCore_code d k j⟩,
    fun s core k hrunning => leaves_of (runLimitExpiryEff core) rfl (runLimitExpiry_of_running hrunning), fun d k j pre hdecide => ?_⟩
  · subst hd
    have hcourse := taskDispatch_of_toRun hfabric hstop hrun
    exact ⟨leaves_of (taskDispatchEff .stays) rfl (hcourse .stays), fun i => leaves_of (taskDispatchEff (.ends i)) rfl (hcourse (.ends i)),
      fun mask begun => leaves_of (taskDispatchEff (.yields mask begun)) rfl (hcourse (.yields mask begun))⟩
  · obtain ⟨v, hrunning⟩ := decideDispatch_victim hdecide
    exact ⟨v, hrunning, preemptAtPost_of_decided hdecide hpending hstop hready⟩
  · have hcourse := taskDispatch_of_decided hfabric hstop hrun hpending hdecide hready
    exact ⟨leaves_of (taskDispatchEff .stays) rfl (hcourse .stays), fun i => leaves_of (taskDispatchEff (.ends i)) rfl (hcourse (.ends i)),
      fun mask begun => leaves_of (taskDispatchEff (.yields mask begun)) rfl (hcourse (.yields mask begun))⟩
  · have hcourse := taskDispatch_of_decided hfabric hstop hrun hpending hdecide hready
    exact ⟨leaves_of (taskDispatchEff .stays) rfl (hcourse .stays), fun i => leaves_of (taskDispatchEff (.ends i)) rfl (hcourse (.ends i)),
      fun mask begun => leaves_of (taskDispatchEff (.yields mask begun)) rfl (hcourse (.yields mask begun))⟩
  · obtain ⟨level, hlt, hlevel, hbefore⟩ := decideDispatch_some hdecide
    obtain ⟨hhead, hfree, hvictim⟩ := decideLevel_some hlevel
    refine ⟨level, hlt, hhead, fun m hm => decideLevel_none (hbefore m hm), fun hpre => ?_, fun hpre => victimCore_spec (hvictim hpre)⟩
    obtain ⟨hmay, hcore⟩ := hfree hpre
    obtain ⟨honline, hrunning⟩ := freeCore_spec hcore
    simp only [mayTakeFree, Bool.or_eq_true, decide_eq_true_eq] at hmay
    exact ⟨honline, hrunning, hmay⟩

end Sys2Proof.Machine
end

section
/-! SUPPORT. Pace, profiles and stalls (01 R23 to R33; O40). -/

namespace Sys2Proof.Machine

open Sys2Proof.Safety

/-! ## What the sentinel's responses leave of the die's temperature, the root store and the keeper -/

theorem EndsOnly.bay {d e : Dev} (h : EndsOnly d e) : e.bay = d.bay := by
  obtain ⟨_, _, _, _, _, _, _, _, _, _, _, _, _, _, rfl, -⟩ := h
  rfl

theorem EndsOnly.keeper {d e : Dev} (h : EndsOnly d e) : e.keeper = d.keeper := by
  obtain ⟨_, _, _, _, _, _, _, _, _, _, _, _, _, _, rfl, -⟩ := h
  rfl

/-- The keeper but for its latch. -/
def unlatched (k : Keeper) : Keeper := { k with latch := false, latchCause := 0 }

/-- What the end of locks, activities, commands and the ring membership leaves as it was: the die's temperature, the root store, the keeper but for its
latch. -/
structure Steady (d e : Dev) : Prop where
  die : e.bay.dieTemp = d.bay.dieTemp
  root : e.keys.root = d.keys.root
  keeper : unlatched e.keeper = unlatched d.keeper

theorem Steady.refl (d : Dev) : Steady d d := ⟨rfl, rfl, rfl⟩

theorem Steady.of_eqs {d e : Dev} (hbay : e.bay = d.bay) (hkeys : e.keys = d.keys) (hkeeper : e.keeper = d.keeper) : Steady d e :=
  ⟨congrArg Bay.dieTemp hbay, congrArg Keys.root hkeys, congrArg unlatched hkeeper⟩

theorem Steady.trans {a b c : Dev} (h : Steady a b) (g : Steady b c) : Steady a c :=
  ⟨g.die.trans h.die, g.root.trans h.root, g.keeper.trans h.keeper⟩

theorem Steady.foldl {β : Type} (f : Dev → β → Dev) (hf : ∀ d b, Steady d (f d b)) (l : List β) (d : Dev) : Steady d (l.foldl f d) := by
  induction l generalizing d with
  | nil => exact .refl d
  | cons b l ih => exact (hf d b).trans (ih (f d b))

theorem EndsOnly.steady {d e : Dev} (h : EndsOnly d e) : Steady d e := .of_eqs h.bay h.keys h.keeper

theorem steady_endAllLocks (d : Dev) : Steady d (endAllLocks d) := by
  refine .foldl _ (fun d n => (endsOnly_forceRelease d n).steady.trans ?_) _ d
  unfold refuseLock
  split
  · exact ⟨rfl, rfl, rfl⟩
  · exact .refl _

theorem steady_frogTrigger (d : Dev) : Steady d (frogTrigger d) := by
  unfold frogTrigger frogDraw
  split
  · have hdraw : Steady d (drbgBefore false { d with vmp.frog := 0x33 }) := .of_eqs (drbgBefore_bay ..) (drbgBefore_keys ..) (drbgBefore_keeper ..)
    dsimp only
    split
    · exact ⟨hdraw.die, hdraw.root, hdraw.keeper⟩
    · exact ⟨hdraw.die, hdraw.root, hdraw.keeper⟩
  · exact .refl d

theorem steady_resumeSweep (d : Dev) : Steady d (resumeSweep d) := by
  unfold resumeSweep
  split
  · have htrigger := steady_frogTrigger { d with vmp.sweepWaits := false }
    exact ⟨htrigger.die, htrigger.root, htrigger.keeper⟩
  · exact .refl d

theorem steady_vacate (d : Dev) (code : Nat) : Steady d (vacate d code) := by
  unfold vacate
  split
  · exact .refl d
  · split
    · exact ⟨rfl, rfl, rfl⟩
    · split
      · split
        · exact ⟨rfl, rfl, rfl⟩
        · exact .refl d
      · exact .refl d

theorem steady_endActivity (d : Dev) (code st status detail : Nat) : Steady d (endActivity d code st status detail) := by
  unfold endActivity
  split
  · exact .refl d
  · next a _ =>
    have hvacate := steady_vacate d code
    refine Steady.trans ?_ (steady_resumeSweep _)
    exact ⟨hvacate.die, hvacate.root, hvacate.keeper⟩

theorem steady_stopActivity (d : Dev) (code : Nat) : Steady d (stopActivity d code) := by
  unfold stopActivity
  split
  · exact .refl d
  · refine Steady.trans ?_ (steady_endActivity ..)
    split
    · split
      · exact ⟨rfl, rfl, rfl⟩
      · exact ⟨rfl, rfl, rfl⟩
    · dsimp only
      split
      · exact ⟨rfl, rfl, rfl⟩
      · exact ⟨rfl, rfl, rfl⟩
    · exact ⟨rfl, rfl, rfl⟩
    · exact ⟨rfl, rfl, rfl⟩
    · exact .refl d

theorem steady_markSafe (d : Dev) : Steady d (markSafe d) := by
  unfold markSafe
  split
  · exact ⟨rfl, rfl, rfl⟩
  · dsimp only
    refine Steady.trans ?_ (.foldl (fun d k => finishWith d k _ true false) (fun d k => (endsOnly_finishWith d k _ true false).steady) _ _)
    exact ⟨rfl, rfl, rfl⟩

theorem steady_foldl_endWith (l : List Nat) (st : Nat) (d : Dev) : Steady d (l.foldl (fun d k => endWith d k st) d) :=
  .foldl _ (fun d k => (endsOnly_endWith d k st).steady) l d

theorem steady_foldl_freeCtx (l : List Nat) (d : Dev) : Steady d (l.foldl freeCtx d) :=
  .foldl _ (fun d k => (endsOnly_freeCtx d k).steady) l d

theorem steady_foldl_finishHeld (l : List Nat) (d : Dev) :
    Steady d (l.foldl (fun d k => finishWith d k ((ctxOf d k).held.getD (bare stInternalFault)) true false) d) :=
  .foldl _ (fun d k => (endsOnly_finishWith d k _ true false).steady) l d

theorem steady_wakeWhere (d : Dev) (p : Ctx → Bool) : Steady d (wakeWhere d p) := (endsOnly_wakeWhere d p).steady

theorem steady_markSafe_ite (p : Prop) [Decidable p] (d : Dev) : Steady d (if p then markSafe d else d) := by
  split
  · exact steady_markSafe d
  · exact .refl d

theorem steady_ringDown (d : Dev) : Steady d (ringDown d) := ⟨rfl, rfl, rfl⟩

theorem steady_leaveRing (d : Dev) : Steady d (leaveRing d) := by
  unfold leaveRing
  split
  · constructor
    · simp only [(steady_foldl_endWith _ _ _).die, (steady_markSafe_ite _ _).die, (steady_wakeWhere _ _).die, (steady_foldl_finishHeld _ _).die,
        (steady_ringDown _).die, (steady_foldl_freeCtx _ _).die]
    · simp only [(steady_foldl_endWith _ _ _).root, (steady_markSafe_ite _ _).root, (steady_wakeWhere _ _).root, (steady_foldl_finishHeld _ _).root,
        (steady_ringDown _).root, (steady_foldl_freeCtx _ _).root]
    · simp only [(steady_foldl_endWith _ _ _).keeper, (steady_markSafe_ite _ _).keeper, (steady_wakeWhere _ _).keeper, (steady_foldl_finishHeld _ _).keeper,
        (steady_ringDown _).keeper, (steady_foldl_freeCtx _ _).keeper]
  · exact .refl d

theorem steady_lockEnds (d : Dev) : Steady d (lockEnds d) := by
  constructor
  · simp only [lockEnds, stopOnLock, (steady_leaveRing _).die, (steady_stopActivity _ _).die, (steady_foldl_endWith _ _ _).die, (steady_endAllLocks _).die]
  · simp only [lockEnds, stopOnLock, (steady_leaveRing _).root, (steady_stopActivity _ _).root, (steady_foldl_endWith _ _ _).root, (steady_endAllLocks _).root]
  · simp only [lockEnds, stopOnLock, (steady_leaveRing _).keeper, (steady_stopActivity _ _).keeper, (steady_foldl_endWith _ _ _).keeper,
      (steady_endAllLocks _).keeper]

theorem steady_enterLocked (d : Dev) (cause : Nat) : Steady d (enterLocked d cause) := by
  unfold enterLocked
  split
  · exact .refl d
  · split
    · exact ⟨rfl, rfl, rfl⟩
    · exact Steady.trans (b := { latchWith d cause with glb.locked := true, sen.lockCause := cause }) ⟨rfl, rfl, rfl⟩ (steady_lockEnds _)

theorem steady_endSessions (d : Dev) : Steady d (endSessions d) := by
  have hclose : Steady d (closeSessions d) := .foldl (fun d j => closeSession d j false) (fun d j => ⟨rfl, rfl, rfl⟩) (openSessions d) d
  have habort : ∀ (e : Dev) (n : Nat), Steady e (abortComponent e n) := fun e n => by
    unfold abortComponent
    split
    · exact .refl e
    · exact ⟨rfl, rfl, rfl⟩
  exact hclose.trans (Steady.trans (b := { closeSessions d with lcd.token := none, lcd.rootInit := none }) ⟨rfl, rfl, rfl⟩ (.foldl abortComponent habort _ _))

/-- A zeroisation does to the keeper what `zeroiseKeeper` does, but for the latch (15 R444). -/
theorem steady_zeroise (d : Dev) (cause : Nat) : Steady (zeroiseKeeper d) (zeroise d cause) := by
  have hactivity : Steady d (if (activityOf d 4).isSome then endActivity d 4 4 (openStatus 4 4) 0 else d) := by
    split
    · exact steady_endActivity ..
    · exact .refl d
  have hkeeper : ∀ e : Dev, unlatched (zeroiseKeeper e).keeper =
      { unlatched e.keeper with cells0 := none, cells1 := none, cellSet := false, sense := false, zeroised := true } := fun e => rfl
  have hsessions := steady_endSessions (clearKeys (zeroiseKeeper (if (activityOf d 4).isSome then endActivity d 4 4 (openStatus 4 4) 0 else d)))
  refine Steady.trans (b := zeroiseSteps d) ⟨hsessions.die.trans hactivity.die, hsessions.root.trans hactivity.root, hsessions.keeper.trans ?_⟩
    (steady_enterLocked _ cause)
  rw [hkeeper, ← hactivity.keeper]
  rfl

theorem respond_die (d : Dev) (src cls : Nat) : (respond d src cls).bay.dieTemp = d.bay.dieTemp := by
  have hzero : (zeroise d src).bay.dieTemp = d.bay.dieTemp := (steady_zeroise d src).die
  have hlocked : (enterLocked d src).bay.dieTemp = d.bay.dieTemp := (steady_enterLocked d src).die
  unfold respond
  split
  · simp only [submit_bay, hzero]
  · split
    · split
      · exact hlocked
      · simp only [submit_bay, hlocked]
    · rfl

theorem recordAlarm_bay (d : Dev) (src cls level count : Nat) (measured : Int) (flags : Nat) : (recordAlarm d src cls level count measured flags).bay = d.bay := by
  unfold recordAlarm keeperRecord
  split
  · rfl
  · dsimp only
    split <;> rfl

theorem eventAlarm_bay (d : Dev) (src : Nat) (measured : Int) (always : Bool) : (eventAlarm d src measured always).bay = d.bay := by
  have hflush : ∀ e : Dev, (flushSummary e src).bay = e.bay := fun e => by
    unfold flushSummary
    dsimp only
    split
    · rfl
    · exact recordAlarm_bay ..
  unfold eventAlarm
  dsimp only
  split
  · exact (recordAlarm_bay ..).trans (hflush _)
  · rfl

theorem windowEvent_die (d : Dev) (src : Nat) (measured : Int) : (windowEvent d src measured).bay.dieTemp = d.bay.dieTemp := by
  have hhist : ∀ (e : Dev) (f : Hist → Hist), (modHist e src f).bay = e.bay := fun e f => rfl
  simp only [windowEvent, escalate]
  split
  · simp only [respond_die, submit_bay, hhist, eventAlarm_bay]
  · simp only [eventAlarm_bay, hhist]

theorem windowReading_die (d : Dev) (src : Nat) (out settled : Bool) (measured : Int) : (windowReading d src out settled measured).bay.dieTemp = d.bay.dieTemp := by
  unfold windowReading
  dsimp only
  split
  · split
    · rfl
    · rw [windowEvent_die]
      rfl
  · split <;> rfl

theorem paceRange_die (d : Dev) : (paceRange d).bay.dieTemp = d.bay.dieTemp := by
  unfold paceRange
  split
  · exact windowReading_die _ _ _ _ _
  · exact windowReading_die _ _ _ _ _

theorem creditRefill_bay (d : Dev) : (creditRefill d).bay = d.bay := by
  have hfold : ∀ (l : List Nat) (f : Nat → Tenant → Tenant) (e : Dev), (l.foldl (fun d n => modTn d n (f n)) e).bay = e.bay := fun l f e => by
    induction l generalizing e with
    | nil => rfl
    | cons n l ih => exact (ih _).trans (modTn_bay ..)
  unfold creditRefill
  dsimp only
  split
  · exact hfold _ (fun n t => { t with active := t.active, fetchedInWindow := false }) d
  · exact (hfold _ _ _).trans (hfold _ _ d)

/-! ## Profiles, windows and the time -/

theorem serveWaiting_of_none {d : Dev} (h : d.act.waiting = []) : serveWaiting d = d := by
  unfold serveWaiting
  rw [h]
  show ({ d with act.waiting := [] } : Dev) = d
  rw [← h]

theorem readImage_time (fn : Fn) (d : Dev) : readImage fn (timeOffset fn) 4 d = (now d % 2 ^ 32, latchTime fn (timeOffset fn) 4 d) := by
  cases fn with
  | pf => rfl
  | vf n =>
    have hoffset : timeOffset (.vf n) = 0x18 := rfl
    have hword : readWord d (.vf n) 0x18 = now d % 2 ^ 32 := rfl
    have hshape : regShape 0x18 4 = true := rfl
    simp only [readImage, hoffset, hshape, hword, meetCodes, if_true, reduceCtorEq, false_and, if_false, Nat.reduceEqDiff]

theorem glbTimeLowRead_of_open {d : Dev} {fn : Fn} (hfabric : d.bay.fabric = true) (hst : d.act.st = 0x0F) (hwaiting : d.act.waiting = [])
    (hreaches : hostReaches d fn (timeOffset fn) = true) (hmay : deniedPiece d 4 (imageAddr fn (timeOffset fn)) 4 .read = none) :
    glbTimeLowReadEff fn d = emit (latchTime fn (timeOffset fn) 4 d) (.readData fn (now d % 2 ^ 32)) := by
  have hopen : ¬d.act.st = 0x33 := by rw [hst]; decide
  simp only [glbTimeLowReadEff, arriveAccess, hfabric, Bool.not_true, Bool.false_eq_true, if_false, if_neg hopen, serveWaiting_of_none hwaiting, performAccess,
    hreaches, if_true, hostAccess, hmay, readImage_time]

theorem profileWrite_of_may {d : Dev} {w : Nat} (hw : w < 2 ^ 32) (hmay : hostMay d .pf 0x1C 4 = true) : hostWrite .pf 0x1C 4 w d = writeProfile w d := by
  have himage : ∀ v, writeImage .pf 0x1C 4 v d = writeProfile (v % 2 ^ 32) d := fun v => rfl
  rw [hostWrite_of_may hmay, himage, Nat.mod_eq_of_lt hw]

theorem attachAck_of_may {d : Dev} {w : Nat} (hw : w < 2 ^ 32) (hmay : hostMay d .pf 0x30 4 = true) : hostWrite .pf 0x30 4 w d = writeGlbEvent w d := by
  have himage : ∀ v, writeImage .pf 0x30 4 v d = writeGlbEvent (v % 2 ^ 32) d := fun v => rfl
  rw [hostWrite_of_may hmay, himage, Nat.mod_eq_of_lt hw]

section
variable {d : Dev} {w : Nat} (hset : w % 4 ≠ 0)
include hset

theorem writeProfile_of_cool (hcool : d.bay.dieTemp ≤ 1680) : writeProfile w d = setActive (w % 4) { d with glb.profile := w % 4, glb.thermalFallback := false } := by
  have hbelow : ¬overLimit d.bay.dieTemp = true := by simpa [overLimit] using hcool
  exact (if_neg hset).trans (if_neg hbelow)

theorem writeProfile_of_hot (hhot : 1680 < d.bay.dieTemp) :
    writeProfile w d = fallBack (setActive (w % 4) { d with glb.profile := w % 4, glb.thermalFallback := false }) := by
  have habove : overLimit d.bay.dieTemp = true := by simpa [overLimit] using hhot
  exact (if_neg hset).trans (if_pos habove)

end

/-- A window closes on a die at or below 105 °C. -/
theorem paceWindowClose_of_cool {d : Dev} (hfabric : d.bay.fabric = true) {die : Int} (hcool : die ≤ 1680) (laps : List Nat) (hubs : List (Option Int)) :
    paceWindowCloseEff laps die hubs d = paceRange (creditRefill (closeWindow laps die hubs d)) := by
  have hbelow : overLimit die = false := by simpa [overLimit] using hcool
  simp only [paceWindowCloseEff, hfabric, hbelow, Bool.not_true, Bool.false_and, Bool.false_eq_true, if_false]

/-- A window closes on a die above 105 °C: the module falls back to STEADY, unless it has already (R30). -/
theorem paceWindowClose_of_hot {d : Dev} (hfabric : d.bay.fabric = true) {die : Int} (hhot : 1680 < die) (laps : List Nat) (hubs : List (Option Int)) :
    paceWindowCloseEff laps die hubs d = if (paceRange (creditRefill (closeWindow laps die hubs d))).glb.thermalFallback = false then
        fallBack (paceRange (creditRefill (closeWindow laps die hubs d))) else paceRange (creditRefill (closeWindow laps die hubs d)) := by
  have habove : overLimit die = true := by simpa [overLimit] using hhot
  simp only [paceWindowCloseEff, hfabric, habove, Bool.not_true, Bool.true_and, Bool.false_eq_true, if_false, Bool.not_eq_true']

theorem windowClosed_die (d : Dev) (laps : List Nat) (die : Int) (hubs : List (Option Int)) :
    (paceRange (creditRefill (closeWindow laps die hubs d))).bay.dieTemp = die :=
  (paceRange_die _).trans (congrArg Bay.dieTemp (creditRefill_bay (closeWindow laps die hubs d)))

/-! ## Stalls -/

section
variable {d : Dev} (hfabric : d.bay.fabric = true)
include hfabric

theorem stall_gate : ¬(!d.bay.fabric) = true := by
  rw [hfabric]
  decide

/-- A stall of a crossing for which 17 R477 names no scope. -/
theorem interfaceStall_of_other {j sub : Nat} (h : (j, sub) ∈ [(6, 12), (7, 16), (9, 11), (10, 12)]) (unit : Nat) : interfaceStallEff j unit d =
    raiseFault { scope := 3, cause := 5, subsystem := sub, unit := 0xFF, object := sub, detail := 0, inHandler := none } d := by
  simp only [List.mem_cons, Prod.mk.injEq, List.not_mem_nil, or_false] at h
  rcases h with ⟨rfl, rfl⟩ | ⟨rfl, rfl⟩ | ⟨rfl, rfl⟩ | ⟨rfl, rfl⟩
  all_goals exact if_neg (stall_gate hfabric)

theorem interfaceStall_of_jtag (hopen : d.lcd.st = 0x0F ∨ d.lcd.st = 0x33) (unit : Nat) : interfaceStallEff 8 unit d =
    raiseFault { scope := 3, cause := 5, subsystem := 11, unit := 0xFF, object := 11, detail := 0, inHandler := none } d :=
  (if_neg (stall_gate hfabric)).trans (if_pos hopen)

theorem interfaceStall_of_card {unit k : Nat} (h : (cardOf d unit).exchange = some k) : interfaceStallEff 5 unit d =
    raiseFault { scope := 0, cause := 5, subsystem := 13, unit, object := k, detail := 0, inHandler := none } d := by
  have hcard : (d.lcd.cards.getD unit {}).exchange = some k := h
  simp only [interfaceStallEff, if_neg (stall_gate hfabric), hcard]

theorem interfaceStall_of_idle_card {unit : Nat} (h : (cardOf d unit).exchange = none) : interfaceStallEff 5 unit d = d := by
  have hcard : (d.lcd.cards.getD unit {}).exchange = none := h
  simp only [interfaceStallEff, if_neg (stall_gate hfabric), hcard]

end

/-- Settles O40: each row by its own effect; the die's temperature stands through every response of the sentinel. -/
theorem paceAndProfileComplete : Obligations.PaceAndProfileComplete := by
  unfold Obligations.PaceAndProfileComplete
  refine ⟨fun s fn hfabric hst hwaiting hreaches hmay => ?_, fun s w hw hmay => ⟨fun hzero => ?_, fun hset hcool => ?_, fun hset hhot => ?_⟩,
    fun s => leaves_of profileSlewDoneEff rfl rfl, fun s laps die hubs hfabric hcool => ⟨?_, rfl, rfl, rfl⟩, fun s laps die hubs hfabric hhot => ?_,
    fun s unit hfabric => ?_, fun s w hw hmay => leaves_of (hostWrite .pf 0x30 4 w) rfl (attachAck_of_may hw hmay)⟩
  · exact leaves_of (glbTimeLowReadEff fn) rfl (glbTimeLowRead_of_open hfabric hst hwaiting hreaches hmay)
  · exact leaves_of (hostWrite .pf 0x1C 4 w) rfl ((profileWrite_of_may hw hmay).trans (if_pos hzero))
  · exact leaves_of (hostWrite .pf 0x1C 4 w) rfl ((profileWrite_of_may hw hmay).trans (writeProfile_of_cool hset hcool))
  · exact ⟨_, leaves_of (hostWrite .pf 0x1C 4 w) rfl ((profileWrite_of_may hw hmay).trans (writeProfile_of_hot hset hhot)), rfl, rfl, rfl, bit_setBit_same _ 3⟩
  · exact leaves_of (paceWindowCloseEff laps die hubs) rfl (paceWindowClose_of_cool hfabric hcool laps hubs)
  · refine ⟨_, leaves_of (paceWindowCloseEff laps die hubs) rfl (paceWindowClose_of_hot hfabric hhot laps hubs), ?_, fun hfalls => ?_⟩
    · split
      · exact windowClosed_die s.dev laps die hubs
      · exact windowClosed_die s.dev laps die hubs
    · rw [if_pos hfalls]
      exact ⟨rfl, rfl⟩
  · have hgate := stall_gate hfabric
    refine ⟨leaves_of (interfaceStallEff 0 unit) rfl (if_neg hgate), leaves_of (interfaceStallEff 1 unit) rfl (if_neg hgate),
      fun heast => leaves_of (interfaceStallEff 2 unit) rfl ((if_neg hgate).trans (if_neg heast)),
      fun hwest => leaves_of (interfaceStallEff 3 unit) rfl ((if_neg hgate).trans (if_neg hwest)),
      leaves_of (interfaceStallEff 4 unit) rfl (if_neg hgate),
      ⟨fun heast => leaves_of (interfaceStallEff 2 unit) rfl ((if_neg hgate).trans (if_pos heast)),
        fun hwest => leaves_of (interfaceStallEff 3 unit) rfl ((if_neg hgate).trans (if_pos hwest)),
        fun hidle => leaves_of (interfaceStallEff 5 unit) rfl (interfaceStall_of_idle_card hfabric hidle),
        fun h1 h2 => leaves_of (interfaceStallEff 8 unit) rfl ((if_neg hgate).trans (if_neg fun h => h.elim h1 h2))⟩,
      fun j sub h => ?_, fun k hk => leaves_of (interfaceStallEff 5 unit) rfl (interfaceStall_of_card hfabric hk)⟩
    rcases h with h | ⟨hopen, rfl, rfl⟩
    · exact leaves_of (interfaceStallEff j unit) rfl (interfaceStall_of_other hfabric h unit)
    · exact leaves_of (interfaceStallEff 8 unit) rfl (interfaceStall_of_jtag hfabric hopen unit)

end Sys2Proof.Machine
end

section
/-! SUPPORT. Lock mode (08 R248 to R253; O43). -/

namespace Sys2Proof.Machine

open Sys2Proof.Safety

/-! ## Requests and releases -/

theorem lockRequest_of_may {d : Dev} {n : Nat} (hmay : hostMay d (.vf n) 0x28 4 = true) : hostWrite (.vf n) 0x28 4 1 d = writeLockRequest n d :=
  (hostWrite_of_may hmay).trans rfl

theorem lockRelease_of_may {d : Dev} {n : Nat} (hmay : hostMay d (.vf n) 0x28 4 = true) : hostWrite (.vf n) 0x28 4 2 d = writeLockRelease n d :=
  (hostWrite_of_may hmay).trans rfl

theorem writeLockRequest_of_allowed {d : Dev} {n : Nat} (hallowed : (tn d n).lockAllowed = true) (hreq : (tn d n).lockReq = false) (hgrant : (tn d n).grant = none) :
    writeLockRequest n d = modTn { d with eng.lockQueue := d.eng.lockQueue ++ [n] } n fun t =>
      { t with lockReq := true, forced := false, refused := false } := by
  simp only [writeLockRequest, hallowed, hreq, hgrant, Bool.not_true, Option.isSome_none, Bool.or_self, Bool.false_eq_true, if_false]

theorem writeLockRequest_of_rejected {d : Dev} {n : Nat} (h : (tn d n).lockAllowed = false ∨ (tn d n).lockReq = true ∨ (tn d n).grant.isSome = true) :
    writeLockRequest n d = rejectVf d n := by
  refine if_pos ?_
  rcases h with h | h | h <;> simp [h]

theorem writeLockRelease_of_none {d : Dev} {n : Nat} (hgrant : (tn d n).grant = none) :
    writeLockRelease n d = modTn { d with eng.lockQueue := d.eng.lockQueue.filter (· != n) } n fun t => { t with lockReq := false } := by
  simp only [writeLockRelease, hgrant, Option.isSome_none, Bool.false_eq_true, if_false]

/-! ## Grants -/

/-- A tenant with a grant differs from the table's default, so it reads back as it was set. -/
theorem tn_modTn_of_grant (d : Dev) (n : Nat) {f : Tenant → Tenant} (h : (f (tn d n)).grant ≠ none) : tn (modTn d n f) n = f (tn d n) :=
  tabGet_put_self _ _ _ _ fun hdefault => h (congrArg Tenant.grant hdefault)

/-- What the grant of a lane leaves: the tenant's grant and event, the queue without it, the lane locked with its key (R249, R250). -/
theorem grantLane_spec (lane n : Nat) (r : Record) (d : Dev) :
    (tn (grantLane lane n r [] d) n).grant = some { lane, handle := r.handle, grantedAt := now d, recs := [] } ∧
      bit (tn (grantLane lane n r [] d) n).event 0 = true ∧ (tn (grantLane lane n r [] d) n).lockReq = false ∧
      n ∉ (grantLane lane n r [] d).eng.lockQueue ∧
      (lane < d.eng.lanes.length → ((grantLane lane n r [] d).eng.lanes.getD lane {}).lockedBy = some n ∧
        ((grantLane lane n r [] d).eng.lanes.getD lane {}).key = some r.handle) ∧
      (grantLane lane n r [] d).keys = d.keys ∧ (grantLane lane n r [] d).vmp = d.vmp := by
  have hread := tn_modTn_of_grant
    { d with eng.lockQueue := d.eng.lockQueue.filter (· != n), eng.lanes := modifyAt d.eng.lanes lane fun l => { l with lockedBy := some n, key := some r.handle } } n
    (f := fun t => { t with lockReq := false, grant := some { lane, handle := r.handle, grantedAt := now d, recs := [] }, event := setBit t.event 0 }) nofun
  have hgranted : grantLane lane n r [] d = modTn
    { d with eng.lockQueue := d.eng.lockQueue.filter (· != n), eng.lanes := modifyAt d.eng.lanes lane fun l => { l with lockedBy := some n, key := some r.handle } } n
    fun t => { t with lockReq := false, grant := some { lane, handle := r.handle, grantedAt := now d, recs := [] }, event := setBit t.event 0 } := rfl
  rw [hgranted, hread]
  refine ⟨rfl, bit_setBit_same _ 0, rfl, ?_, fun hlane => ?_, rfl, rfl⟩
  · show n ∉ d.eng.lockQueue.filter (· != n)
    simp
  · have hlocked := getD_modifyAt_same hlane (fun l : Lane => { l with lockedBy := some n, key := some r.handle }) {}
    exact ⟨congrArg Lane.lockedBy hlocked, congrArg Lane.key hlocked⟩

theorem lockGrant_of_oldest {d : Dev} {n lane : Nat} {l : List Nat} (hqueue : d.eng.lockQueue = n :: l) (hfabric : d.bay.fabric = true)
    (hstop : d.glb.failStop = false) (hfree : laneFree (d.eng.lanes.getD lane { online := false }) = true) (hroom : lockedLanes d < 32) :
    lockGrantEff lane d = serveLock lane n d := by
  simp only [lockGrantEff, hqueue, hfabric, hstop, hfree, hroom, Bool.not_false, Bool.and_self, decide_true, if_true]

theorem serveLock_of_refused {d : Dev} {n lane : Nat} (h : d.glb.locked = true ∨ draining d = true ∨ lockNameOk d n (tn d n).lockKey = false) :
    serveLock lane n d = refuseLock d n := by
  refine if_pos ?_
  rcases h with h | h | h <;> simp [h]

theorem serveLock_of_held {d : Dev} {n lane : Nat} (hlocked : d.glb.locked = false) (hdrain : draining d = false) (hname : lockNameOk d n (tn d n).lockKey = true)
    (hholds : holds d (tn d n).lockKey = true) (hrepair : underRepair d false (tn d n).lockKey = false) (hheld : vmpHeld d = false) :
    serveLock lane n d = decideLock lane n (recsOfKey d (keyOf (tn d n).lockKey)) true d := by
  simp only [serveLock, hlocked, hdrain, hname, hholds, hrepair, hheld, Bool.not_true, Bool.or_self, Bool.false_eq_true, if_false, if_true]

theorem decideLock_of_none {d : Dev} {n lane : Nat} {l : List Record} {own : Bool} (h : lockRecord d l (tn d n).lockKey = none) :
    decideLock lane n l own d = refuseLock d n := by
  rw [decideLock, h]

theorem decideLock_of_record {d : Dev} {n lane : Nat} {l : List Record} {r : Record} (h : lockRecord d l (tn d n).lockKey = some r) :
    decideLock lane n l true d = grantLane lane n r [] d := by
  rw [decideLock, h]
  rfl

/-- Settles O43: requests and releases by the tenant's state, a grant by what its lane and its tenant hold after it. -/
theorem lockModeCompletes : Obligations.LockModeCompletes := by
  unfold Obligations.LockModeCompletes
  refine ⟨fun s n hmay t ht => ?_, fun s n l lane hqueue hfabric hstop hfree hroom => ?_, fun s n => leaves_of (lockExpiryEff n) rfl rfl,
    fun d n g hwf hgrant => ?_⟩
  · subst ht
    have hrequest := lockRequest_of_may hmay
    have hrelease := lockRelease_of_may hmay
    exact ⟨fun hallowed hreq hgrant => leaves_of (hostWrite (.vf n) 0x28 4 1) rfl (hrequest.trans (writeLockRequest_of_allowed hallowed hreq hgrant)),
      fun hbad => leaves_of (hostWrite (.vf n) 0x28 4 1) rfl (hrequest.trans (writeLockRequest_of_rejected hbad)),
      fun hgrant => leaves_of (hostWrite (.vf n) 0x28 4 2) rfl (hrelease.trans (writeLockRelease_of_none hgrant)),
      fun _ => leaves_of (hostWrite (.vf n) 0x28 4 2) rfl hrelease⟩
  · have hserve := lockGrant_of_oldest hqueue hfabric hstop hfree hroom
    refine ⟨fun hbad => leaves_of (lockGrantEff lane) rfl (hserve.trans (serveLock_of_refused hbad)), fun hlocked hdrain hname hholds hrepair hheld => ?_⟩
    have hdecide := hserve.trans (serveLock_of_held hlocked hdrain hname hholds hrepair hheld)
    split
    next hnone => exact leaves_of (lockGrantEff lane) rfl (hdecide.trans (decideLock_of_none hnone))
    next r hrecord => exact ⟨_, leaves_of (lockGrantEff lane) rfl (hdecide.trans (decideLock_of_record hrecord)), grantLane_spec lane n r s.dev⟩
  · obtain ⟨-, hnone, hforced⟩ := tn_forceRelease_self hwf n
    exact ⟨hnone, hforced g hgrant⟩

end Sys2Proof.Machine
end

section
/-! SUPPORT. The access table's own commands (13 R388 to R391; O44). -/

namespace Sys2Proof.Machine

open Sys2Proof.Safety

/-! ## A task's accesses to the table's registers -/

/-- The class of a running task's accesses: 2 at the management levels, 3 at the others (13 R379). -/
theorem initiatorUp_of_running {d : Dev} {k : Nat} (hcode : (ctxOf d k).code = csRunning) : initiatorUp d (if (ctxOf d k).level ≤ 1 then 2 else 3) k = true := by
  split
  next hlevel => simp [initiatorUp, hcode, hlevel]
  next hlevel =>
    have habove : 2 ≤ (ctxOf d k).level := by omega
    simp [initiatorUp, hcode, habove]

/-- An access that a running task makes while the table is OPEN and that it permits is performed at once. -/
theorem arriveAccess_of_task {d : Dev} {k cls : Nat} (hcls : cls = if (ctxOf d k).level ≤ 1 then 2 else 3) (hcode : (ctxOf d k).code = csRunning)
    (hfabric : d.bay.fabric = true) (hst : d.act.st = 0x0F) (hwaiting : d.act.waiting = []) {addr bytes v : Nat} {kind : Access}
    (hmay : deniedPiece d cls addr bytes kind = none) :
    arriveAccess (.internal cls k addr bytes kind v) d = performInternal cls k addr bytes kind v d := by
  have hopen : ¬d.act.st = 0x33 := by rw [hst]; decide
  have hup : initiatorUp d cls k = true := hcls ▸ initiatorUp_of_running hcode
  simp only [arriveAccess, hfabric, Bool.not_true, Bool.false_eq_true, if_false, if_neg hopen, serveWaiting_of_none hwaiting, performAccess, hup, if_true,
    internalAccess, hmay]

theorem performInternal_readClaim (cls k v : Nat) (d : Dev) :
    performInternal cls k 0x44000004 4 .read v d = emit (readClaim k d).2 (.internalData cls (readClaim k d).1) := rfl

theorem performInternal_go (cls k : Nat) (d : Dev) : performInternal cls k 0x44000008 4 .write 1 d = updateGo k d := rfl

theorem performInternal_abandon (cls k : Nat) (d : Dev) : performInternal cls k 0x44000008 4 .write 2 d = updateAbandon k d := rfl

theorem readClaim_of_free {d : Dev} (h : d.act.claim = none) (k : Nat) : readClaim k d = (1 + 2 ^ 8 * k, { d with act.claim := some k }) := by
  rw [readClaim, h]

theorem readClaim_of_taken {d : Dev} {h : Nat} (hclaim : d.act.claim = some h) (k : Nat) : readClaim k d = (2 ^ 8 * h, d) := by
  rw [readClaim, hclaim]

section
variable {d : Dev} {k : Nat} (hclaim : d.act.claim = some k) (hst : d.act.st = 0x0F)
include hclaim hst

theorem updateGo_of_sound (h : stageOk d = true) : updateGo k d = { d with act.st := 0x33 } := by
  have hholder : ¬d.act.claim ≠ some k := not_not_intro hclaim
  have hopen : ¬d.act.st ≠ 0x0F := not_not_intro hst
  rw [updateGo, if_neg hholder, if_neg hopen, if_pos h]

theorem updateGo_of_unsound (h : stageOk d = false) : updateGo k d = { d with act.claim := none, act.stage := d.act.entries, act.result := 2 } := by
  have hholder : ¬d.act.claim ≠ some k := not_not_intro hclaim
  have hopen : ¬d.act.st ≠ 0x0F := not_not_intro hst
  rw [updateGo, if_neg hholder, if_neg hopen, h]
  rfl

theorem updateAbandon_of_holder : updateAbandon k d = { d with act.claim := none, act.stage := d.act.entries } := by
  have hholder : ¬d.act.claim ≠ some k := not_not_intro hclaim
  have hopen : ¬d.act.st ≠ 0x0F := not_not_intro hst
  rw [updateAbandon, if_neg hholder, if_neg hopen]
  rfl

end

/-! ## The end of the drain -/

/-- A table that opens with no access waiting opens, and does nothing else. -/
theorem reopen_of_none {d : Dev} (hwaiting : d.act.waiting = []) (hdma : d.act.dma = []) : reopen d = { d with act.st := 0x0F } := by
  have hserved : serveDma { d with act.st := 0x0F } = { d with act.st := 0x0F } := by
    simp only [serveDma, hdma, List.filter_nil, List.map_nil, List.append_nil]
  rw [reopen, hserved]
  exact serveWaiting_of_none (d := { d with act.st := 0x0F }) hwaiting

/-- Settles O44: each of the task's accesses is permitted and performed at once; the drain's end opens the table. -/
theorem accessTableCompletes : Obligations.AccessTableCompletes := by
  unfold Obligations.AccessTableCompletes
  refine ⟨fun s k cls hcls hcode hfabric hst hwaiting => ?_, fun s hst => ⟨fun hwaiting hdma => ?_, leaves_of actDrainDoneEff rfl (if_pos hst), ?_⟩⟩
  · have hread : deniedPiece s.dev cls 0x44000004 4 .read = none → actClaimReadEff k s.dev = emit (readClaim k s.dev).2 (.internalData cls (readClaim k s.dev).1) :=
      fun hmay => by
        rw [actClaimReadEff, ← hcls, arriveAccess_of_task hcls hcode hfabric hst hwaiting hmay, performInternal_readClaim]
    refine ⟨fun hmay hfree => leaves_of (actClaimReadEff k) rfl ((hread hmay).trans (by rw [readClaim_of_free hfree])),
      fun h hmay htaken => leaves_of (actClaimReadEff k) rfl ((hread hmay).trans (by rw [readClaim_of_taken htaken])), fun hmay hclaim => ?_⟩
    have hgo : actUpdateGoEff k s.dev = updateGo k s.dev := by
      rw [actUpdateGoEff, ← hcls, arriveAccess_of_task hcls hcode hfabric hst hwaiting hmay, performInternal_go]
    have habandon : actUpdateAbandonEff k s.dev = updateAbandon k s.dev := by
      rw [actUpdateAbandonEff, ← hcls, arriveAccess_of_task hcls hcode hfabric hst hwaiting hmay, performInternal_abandon]
    exact ⟨fun hsound => leaves_of (actUpdateGoEff k) rfl (hgo.trans (updateGo_of_sound hclaim hst hsound)),
      fun hunsound => leaves_of (actUpdateGoEff k) rfl (hgo.trans (updateGo_of_unsound hclaim hst hunsound)),
      leaves_of (actUpdateAbandonEff k) rfl (habandon.trans (updateAbandon_of_holder hclaim hst))⟩
  · refine leaves_of actDrainDoneEff rfl ((if_pos hst).trans ?_)
    exact reopen_of_none (d := { s.dev with act.entries := s.dev.act.stage, act.result := 1, act.claim := none }) hwaiting hdma
  · exact ⟨_, leaves_of actDrainTimeoutEff rfl (if_pos hst), rfl, rfl, rfl, rfl⟩

end Sys2Proof.Machine
end

section
/-! SUPPORT. The sled comes up, goes down and is removed (02 R40 to R62; 18 R499 to R501; O47, O48). -/

namespace Sys2Proof.Machine

open Sys2Proof.Safety

/-! ## The sled comes up -/

theorem auxLogicResetRelease_of_power {d : Dev} (hpower : d.bay.auxPower = true) (hlogic : d.bay.auxLogic = false) (straps : Nat) (seat : Bool)
    (record : Option Bytes) (cell : Cell) : auxLogicResetReleaseEff straps seat record cell d = { d with
    bay.auxLogic := true, bay.straps := straps, bay.bayPos := straps, bay.seatHigh := seat, bay.loopsMasked := seat, bay.record := record
    bay.unsuitable := !bayRecordOk record, bay.ringBan := bayRingBan record straps
    bay.attnFitted := (match record with | some b => bit (field b 6 1) 1 | none => false)
    bay.chassis := (match record with | some b => slice b 0x0C 16 | none => []), bay.cell := cell
    bay.cellAt := if cell.serial = d.bay.cell.serial then d.bay.cellAt else now d } := by
  have hgate : ¬(!d.bay.auxPower || d.bay.auxLogic) = true := by
    rw [hpower, hlogic]
    decide
  exact if_neg hgate

theorem bayRecordOk_some {r : Bytes} (h : bayRecordOk (some r) = true) :
    r.length = 32 ∧ r.take 4 = ascii [0x49, 0x57, 0x42, 0x59] ∧ field r 4 1 = 1 ∧ 144 ≤ field r 8 2 := by
  simp only [bayRecordOk, Bool.and_eq_true, beq_iff_eq, decide_eq_true_eq] at h
  obtain ⟨⟨⟨⟨hlen, hmagic⟩, hversion⟩, -⟩, hpower⟩ := h
  exact ⟨hlen, hmagic, hversion, hpower⟩

section
variable {d : Dev} (hlogic : d.bay.auxLogic = true) (hcheck : d.bay.checkDone = false)
include hlogic hcheck

theorem keeperCheck_gate : ¬(!d.bay.auxLogic || d.bay.checkDone) = true := by
  rw [hlogic, hcheck]
  decide

theorem keeperCheckDone_of_whole (hwhole : (d.keeper.answers && !d.keeper.zeroised && (keeperKey d).isNone) = false) (boot : BootInputs) :
    keeperCheckDoneEff boot d = connectMain { d with
      bay.keeperState := keeperFinding d, bay.cellState := cellStateOf d.bay.cell, bay.checkDone := true } boot := by
  rw [keeperCheckDoneEff, if_neg (keeperCheck_gate hlogic hcheck), hwhole]
  rfl

theorem keeperCheckDone_of_broken (hanswers : d.keeper.answers = true) (hzeroised : d.keeper.zeroised = false) (hkey : keeperKey d = none) (boot : BootInputs) :
    keeperCheckDoneEff boot d = connectMain { alarm d 4 clsZ 0 0 with
      bay.keeperState := keeperFinding (alarm d 4 clsZ 0 0), bay.cellState := cellStateOf (alarm d 4 clsZ 0 0).bay.cell, bay.checkDone := true } boot := by
  have hbroken : (d.keeper.answers && !d.keeper.zeroised && (keeperKey d).isNone) = true := by
    rw [hanswers, hzeroised, hkey]
    rfl
  rw [keeperCheckDoneEff, if_neg (keeperCheck_gate hlogic hcheck), hbroken]
  rfl

end

theorem respond_zeroises (d : Dev) (src : Nat) : (respond d src clsZ).keeper.zeroised = true ∧ (respond d src clsZ).keeper.answers = d.keeper.answers := by
  have hsteady := (steady_zeroise d src).keeper
  have hkeeper : (respond d src clsZ).keeper = (zeroise d src).keeper := by
    rw [respond, if_pos rfl, submit_keeper]
  rw [hkeeper]
  generalize zeroise d src = e at hsteady
  exact ⟨(congrArg Keeper.zeroised hsteady :), (congrArg Keeper.answers hsteady :)⟩

/-- An alarm of class Z zeroises the keeper, with the fabric and without it (15 R443, R447). -/
theorem alarm_zeroises (d : Dev) (src : Nat) : (alarm d src clsZ 0 0).keeper.zeroised = true ∧ (alarm d src clsZ 0 0).keeper.answers = d.keeper.answers := by
  have hrecord : (recordAlarm d src clsZ (levelNo (raiseLevel d.sen.response clsZ)) 0 0 0).keeper.answers = d.keeper.answers := by
    unfold recordAlarm keeperRecord
    split
    · rfl
    · dsimp only
      split
      · rfl
      · rfl
  unfold alarm
  dsimp only
  generalize recordAlarm d src clsZ (levelNo (raiseLevel d.sen.response clsZ)) 0 0 0 = d1 at hrecord ⊢
  split
  · obtain ⟨hzero, hanswers⟩ := respond_zeroises { d1 with sen.latched := setBit d1.sen.latched src } src
    exact ⟨hzero, hanswers.trans hrecord⟩
  · rw [keeperRespond, if_pos rfl]
    exact ⟨rfl, hrecord⟩

theorem keeperFinding_of_zeroised {d : Dev} (hanswers : d.keeper.answers = true) (hzeroised : d.keeper.zeroised = true) : keeperFinding d = 2 := by
  simp only [keeperFinding, hanswers, hzeroised, Bool.not_true, Bool.true_or, Bool.false_eq_true, if_false, if_true]

/-- Settles O47: each row by its own effect; a broken keeper is zeroised by its alarm. -/
theorem powerUpCompletes : Obligations.PowerUpCompletes := by
  unfold Obligations.PowerUpCompletes
  refine ⟨fun s hoff => ?_, fun s straps seat record cell hpower hlogic => ?_, fun r => bayRecordOk_some, fun s boot hlogic hcheck hwhole => ?_,
    fun s boot hlogic hcheck hanswers hzeroised hkey => ?_, fun s hlogic hoff => ?_, fun s boot hon hramp => ?_, fun d boot hheld => ?_,
    fun d boot hon hramp hcheck hsuitable hloads => ?_, fun s hfabric hstarting hrunning => ?_⟩
  · refine leaves_of auxPowerUpEff rfl (if_neg ?_)
    rw [hoff]
    decide
  · exact ⟨_, leaves_of (auxLogicResetReleaseEff straps seat record cell) rfl (auxLogicResetRelease_of_power hpower hlogic straps seat record cell),
      rfl, rfl, rfl, rfl, rfl, rfl, rfl, rfl, rfl, rfl⟩
  · exact leaves_of (keeperCheckDoneEff boot) rfl (keeperCheckDone_of_whole hlogic hcheck hwhole boot)
  · obtain ⟨hzero, hanswer⟩ := alarm_zeroises s.dev 4
    exact ⟨_, leaves_of (keeperCheckDoneEff boot) rfl (keeperCheckDone_of_broken hlogic hcheck hanswers hzeroised hkey boot), rfl, hzero,
      keeperFinding_of_zeroised (hanswer.trans hanswers) hzero⟩
  · refine leaves_of mainPowerArrivalEff rfl (if_pos ?_)
    rw [hlogic, hoff]
    rfl
  · refine leaves_of (p12vRampDoneEff boot) rfl (if_pos ?_)
    rw [hon, hramp]
    rfl
  · exact if_neg (Bool.eq_false_iff.mp hheld)
  · refine if_pos ?_
    rw [hon, hramp, hcheck, hsuitable, hloads]
    rfl
  · refine leaves_of startupCompleteEff rfl (if_pos ?_)
    rw [hfabric, hstarting, hrunning]
    rfl

/-! ## The sled goes down -/

theorem root_append (d : Dev) (e : LogEntry) : (append d e).keys.root = d.keys.root := by
  unfold append
  split
  · split
    · exact (steady_enterLocked _ _).root
    · rfl
  · rfl

/-- The entries submitted are placed or lost, and the root store stands (15 R451). -/
theorem root_drainLog (d : Dev) : (drainLog d).keys.root = d.keys.root := by
  have hfold : ∀ (l : List LogEntry) (e : Dev), (l.foldl append e).keys.root = e.keys.root := fun l e => by
    induction l generalizing e with
    | nil => rfl
    | cons x l ih => exact (ih _).trans (root_append e x)
  exact hfold _ { d with sen.submitted := [] }

theorem root_cutFuses (d : Dev) : (cutFuses d).keys.root = d.keys.root := by
  unfold cutFuses
  split
  · rfl
  · rfl

/-- What the log still takes at a loss of main power: its entry, and that of a surprise removal. -/
def lastEntries (d : Dev) : Dev :=
  drainLog (if d.bay.removalPending && !d.bay.safeToRemove then logRemoval (logPower d 3 []) 3 else logPower d 3 [])

theorem root_lastEntries (d : Dev) : (lastEntries d).keys.root = d.keys.root := by
  rw [lastEntries, root_drainLog]
  split
  · rfl
  · rfl

/-- The device without main power. -/
def powerCut (d : Dev) : Dev :=
  { coldState (cutFuses d) with bay.p12v := false, bay.ramped := false, bay.mainLoads := false, bay.fabric := false, keeper.timeUs := now d, keeper.usSinceTick := 0 }

section
variable {d : Dev} (hon : d.bay.p12v = true)
include hon

theorem mainPowerLoss_of_stopped (hfabric : d.bay.fabric = false) : mainPowerLossEff d = powerCut d := by
  simp only [mainPowerLossEff, hon, hfabric, Bool.not_true, Bool.false_eq_true, if_false]
  rfl

theorem mainPowerLoss_of_running (hfabric : d.bay.fabric = true) : mainPowerLossEff d = powerCut (lastEntries d) := by
  simp only [mainPowerLossEff, hon, hfabric, Bool.not_true, Bool.false_eq_true, if_false, if_true]
  rfl

end

theorem keeperRecord_bay (d : Dev) (kind source cls : Nat) : (keeperRecord d kind source cls).bay = d.bay := by
  unfold keeperRecord
  dsimp only
  split
  · rfl
  · rfl

theorem keeperEvent_bay (d : Dev) (kind event : Nat) : (keeperEvent d kind fun d => logPower d event []).bay = d.bay := by
  unfold keeperEvent
  split
  · rfl
  · exact keeperRecord_bay ..

/-- Without a cell the keeper goes on from the holdover when auxiliary power is lost (15 R430). -/
theorem auxPowerLoss_of_powered {d : Dev} (hon : d.bay.auxPower = true) : (auxPowerLossEff d).bay.auxPower = false ∧ (auxPowerLossEff d).bay.auxLogic = false ∧
    (auxPowerLossEff d).bay.checkDone = false ∧ (d.bay.cell.seated = false → (auxPowerLossEff d).keeper.onHoldover = true) := by
  have hgate : ¬(!d.bay.auxPower) = true := by
    rw [hon]
    decide
  rw [auxPowerLossEff, if_neg hgate]
  refine ⟨rfl, rfl, rfl, fun hseat => ?_⟩
  have hleft : ∀ e : Dev, (if e.bay.fabric then leaveRing e else e).keeper.onHoldover = e.keeper.onHoldover := fun e => by
    split
    · exact (congrArg Keeper.onHoldover (steady_leaveRing e).keeper :)
    · rfl
  dsimp only
  rw [hleft, keeperEvent_bay, hseat]
  rfl

theorem seatNHigh_gate {d : Dev} (hlogic : d.bay.auxLogic = true) (hseat : d.bay.seatHigh = false) : ¬(!d.bay.auxLogic || d.bay.seatHigh) = true := by
  rw [hlogic, hseat]
  decide

/-! ## Removal -/

theorem attentionPress_of_ignored {d : Dev} (h : d.bay.attnFitted = false ∨ d.bay.fabric = false ∨ d.glb.failStop = true) : attentionPressEff d = d := by
  refine if_pos ?_
  rcases h with h | h | h <;> simp [h]

section
variable {d : Dev} (hfitted : d.bay.attnFitted = true) (hfabric : d.bay.fabric = true) (hstop : d.glb.failStop = false)
include hfitted hfabric hstop

theorem attention_gate : ¬(!d.bay.attnFitted || !d.bay.fabric || d.glb.failStop) = true := by
  rw [hfitted, hfabric, hstop]
  decide

theorem attentionPress_of_idle (hidle : d.bay.removal = .idle) (hpending : d.bay.removalPending = false) : attentionPressEff d =
    { logRemoval { d with bay.removalPending := true, glb.event := setBit d.glb.event 0 } 0 with bay.removal := .abortWindow } := by
  have hdrain : draining d = false := by simp [draining, hidle]
  simp only [attentionPressEff, if_neg (attention_gate hfitted hfabric hstop), hdrain, Bool.false_and, hpending, Bool.false_eq_true, if_false, hidle, if_true]

theorem attentionPress_of_window (hwindow : d.bay.removal = .abortWindow) (hpending : d.bay.removalPending = true) : attentionPressEff d =
    { logRemoval { d with bay.removalPending := false, glb.event := setBit d.glb.event 0 } 1 with bay.removal := .idle } := by
  have hdrain : draining d = false := by simp [draining, hwindow]
  simp only [attentionPressEff, if_neg (attention_gate hfitted hfabric hstop), hdrain, Bool.false_and, hpending, Bool.false_eq_true, if_false, hwindow, if_true]

theorem attentionPress_of_drain (hdrain : draining d = true) (hkind : d.bay.drainKind ≠ 2) : attentionPressEff d = logRemoval d 0 := by
  have hkind' : (d.bay.drainKind != 2) = true := bne_iff_ne.mpr hkind
  simp only [attentionPressEff, if_neg (attention_gate hfitted hfabric hstop), hdrain, hkind', Bool.and_self, if_true]

end

theorem endAllLocks_bay (d : Dev) : (endAllLocks d).bay = d.bay := by
  have hrefuse : ∀ (e : Dev) (n : Nat), EndsOnly e (refuseLock e n) := fun e n => by
    unfold refuseLock
    split
    · exact .trans (b := { e with eng.lockQueue := e.eng.lockQueue.filter (· != n) }) ⟨_, _, _, _, _, _, _, _, _, _, _, _, _, _, rfl, fun _ => rfl⟩ (endsOnly_modTn _ _ _)
    · exact .refl e
  exact (EndsOnly.foldl _ (fun e n => (endsOnly_forceRelease e n).trans (hrefuse _ n)) _ d).bay

theorem startDrain_bay (d : Dev) (kind : Nat) :
    (startDrain d kind).bay.removal = .draining ∧ (startDrain d kind).bay.drainKind = kind ∧ (startDrain d kind).bay.safeToRemove = false := by
  unfold startDrain
  dsimp only
  rw [endAllLocks_bay]
  split
  · exact ⟨rfl, rfl, rfl⟩
  · exact ⟨rfl, rfl, rfl⟩

theorem markSafe_of_no_shutdown {d : Dev} (hkind : d.bay.drainKind ≠ 2) (hnone : d.bay.shutdownCtxs = []) :
    (markSafe d).bay.safeToRemove = true ∧ (markSafe d).bay.removal = .safe := by
  rw [markSafe, if_neg hkind, hnone]
  exact ⟨rfl, rfl⟩

/-- Settles O48: each row by its own effect. -/
theorem removalCompletes : Obligations.RemovalCompletes := by
  unfold Obligations.RemovalCompletes
  refine ⟨fun s hon hfabric => leaves_of mainPowerLossEff rfl (mainPowerLoss_of_stopped hon hfabric),
    fun s hon hfabric => ⟨_, leaves_of mainPowerLossEff rfl (mainPowerLoss_of_running hon hfabric), rfl, rfl, rfl, rfl, rfl, ?_, rfl⟩,
    fun s hon => ⟨_, leaves_of auxPowerLossEff rfl rfl, auxPowerLoss_of_powered hon⟩,
    fun s hlogic hseat hoff => leaves_of seatNHighEff rfl ((if_neg (seatNHigh_gate hlogic hseat)).trans (if_neg (Bool.eq_false_iff.mp hoff))),
    fun s hlogic hseat hon => leaves_of seatNHighEff rfl ((if_neg (seatNHigh_gate hlogic hseat)).trans (if_pos hon)),
    fun s hfitted hfabric hstop hidle hpending => leaves_of attentionPressEff rfl (attentionPress_of_idle hfitted hfabric hstop hidle hpending),
    fun s hfitted hfabric hstop hwindow hpending => leaves_of attentionPressEff rfl (attentionPress_of_window hfitted hfabric hstop hwindow hpending),
    fun s hfitted hfabric hstop hdrain hkind => leaves_of attentionPressEff rfl (attentionPress_of_drain hfitted hfabric hstop hdrain hkind),
    fun s hignored => leaves_of attentionPressEff rfl (attentionPress_of_ignored hignored),
    fun s h => leaves_of removalAbortWindowEndEff rfl (if_pos h), fun s hdraining hdone => ⟨fun hdetached hjoin => ?_, fun hmember => ?_⟩,
    fun s hleaving => leaves_of ringLeaveTimeoutEff rfl (if_pos hleaving), startDrain_bay, fun d hkind hnone => markSafe_of_no_shutdown hkind hnone⟩
  · exact (root_cutFuses _).trans (root_lastEntries s.dev)
  · exact leaves_of removalDrainDoneEff rfl ((if_pos ⟨hdraining, hdone⟩).trans (if_pos ⟨hdetached, Bool.eq_false_iff.mp hjoin⟩))
  · refine leaves_of removalDrainDoneEff rfl ((if_pos ⟨hdraining, hdone⟩).trans (if_neg ?_))
    rintro ⟨hdetached, hjoin⟩
    exact hmember.elim (fun h => h hdetached) hjoin

end Sys2Proof.Machine
end


section
/-! SUPPORT. The reception of frames of the ring (12 R341 to R344): what a frame received alone does, and what it leaves to the meaning of its type. -/

namespace Sys2Proof.Machine
open Sys2Proof.Safety

/-! ## What a reception is -/

theorem onFrame_of_taken {h : Hdr} {type : Nat} {d e : Dev} (f : Dev → Dev) (hr : receive h type d = (e, true)) (hsrc : h.src ≠ memberNo d) :
    onFrame h type f d = f e := by
  rw [onFrame, hr]
  exact if_neg hsrc

theorem onFrame_of_refused {h : Hdr} {type : Nat} {d e : Dev} (f : Dev → Dev) (hr : receive h type d = (e, false)) : onFrame h type f d = e := by
  rw [onFrame, hr]

@[simp] theorem passOn_ring (d : Dev) (h : Hdr) : (passOn d h).ring = d.ring := by
  unfold passOn
  split
  · rfl
  · rfl

/-- The device after a frame for others, or one that a member of the ring passes on, has been passed on. -/
def relayed (d : Dev) (h : Hdr) : Dev := if h.dst = memberNo d ∧ ¬(d.ring.st = 0x33 ∧ authDone d = false) then d else passOn d h

@[simp] theorem relayed_ring (d : Dev) (h : Hdr) : (relayed d h).ring = d.ring := by
  unfold relayed
  split
  · rfl
  · exact passOn_ring d h

theorem joining_iff (d : Dev) : ((d.ring.st == 0x33 && !authDone d) = true) ↔ d.ring.st = 0x33 ∧ authDone d = false := by
  simp

theorem keyselOf_eq_two {type : Nat} : keyselOf type = 2 ↔ type = 2 := by
  unfold keyselOf
  split
  · simp [*]
  · split <;> simp [*]

section
variable {d : Dev} {h : Hdr} (type : Nat) (hup : linksUp d = true) (hport : (portOf d h.east).failed = false) (hlanes : (portOf d h.east).lanes ≠ 0)
  (hsrc : h.src ≠ memberNo d)
include hup hport hlanes hsrc

/-- A frame of another member on a port that works, by the checks of R341 to R344 in order. -/
theorem receive_of_other : receive h type d =
    if h.dst ≠ memberNo d ∧ h.dst ≠ 255 then (relayed d h, false)
    else if (d.ring.st == 0x33 && !authDone d) && type != 2 then (relayed d h, false)
    else if h.type ≠ type ∨ h.keysel ≠ keyselOf type then (countBad (relayed d h), false)
    else if !hasKey d h then (relayed d h, false)
    else if h.keysel ≠ 2 && !h.tagOk then (tagFailure (noteLost (relayed d h) h.src) h.east, false)
    else if h.keysel ≠ 2 && seenBefore (peerOf (relayed d h) h.src) h then (relayed d h, false)
    else (raiseClock (if h.keysel = 2 then relayed d h else modPeer (relayed d h) h.src fun p => noteSeq p h) h.clock, true) := by
  have hrelay : (if h.dst = memberNo d ∧ (!(d.ring.st == 0x33 && !authDone d)) = true then d else passOn d h) = relayed d h := by
    unfold relayed
    simp only [Bool.not_eq_true', ← Bool.not_eq_true, joining_iff]
  unfold receive
  dsimp only
  rw [if_neg (by simp [hup, hport, hlanes]), if_neg hsrc, hrelay]

variable (hdst : h.dst = memberNo d ∨ h.dst = 255) (htake : d.ring.st ≠ 0x33 ∨ authDone d = true ∨ type = 2)
include hdst htake

/-- A frame that this member may take, by the checks of its row. -/
theorem receive_of_mine : receive h type d =
    if h.type ≠ type ∨ h.keysel ≠ keyselOf type then (countBad (relayed d h), false)
    else if !hasKey d h then (relayed d h, false)
    else if h.keysel ≠ 2 && !h.tagOk then (tagFailure (noteLost (relayed d h) h.src) h.east, false)
    else if h.keysel ≠ 2 && seenBefore (peerOf (relayed d h) h.src) h then (relayed d h, false)
    else (raiseClock (if h.keysel = 2 then relayed d h else modPeer (relayed d h) h.src fun p => noteSeq p h) h.clock, true) := by
  rw [receive_of_other type hup hport hlanes hsrc, if_neg (fun ⟨h1, h2⟩ => hdst.elim h1 h2), if_neg]
  rcases htake with h | h | h <;> simp [h]

end

/-! ## The window of a source (R344) -/

theorem seqKey_epoch (h : Hdr) : seqKey h / 2 ^ 56 = h.epoch := by
  unfold seqKey
  omega

theorem foldl_max_lt {l : List Nat} {a b : Nat} (ha : a < b) (hl : ∀ x ∈ l, x < b) : l.foldl max a < b := by
  induction l generalizing a with
  | nil => exact ha
  | cons x t ih => exact ih (max_lt ha (hl x (by simp))) fun y hy => hl y (by simp [hy])

theorem le_foldl_max (l : List Nat) (a : Nat) : a ≤ l.foldl max a := by
  induction l generalizing a with
  | nil => exact le_refl a
  | cons x t ih => exact (le_max_left a x).trans (ih _)

theorem le_foldl_max_of_mem {l : List Nat} {x : Nat} (hx : x ∈ l) (a : Nat) : x ≤ l.foldl max a := by
  induction l generalizing a with
  | nil => cases hx
  | cons y t ih =>
    rcases List.mem_cons.mp hx with rfl | hx
    · exact (le_max_right a x).trans (le_foldl_max t _)
    · exact ih hx _

/-- The window of a source holds a SEQ just accepted. -/
theorem mem_noteSeq {p : Peer} {h : Hdr} (hnew : seenBefore p h = false) : seqKey h ∈ (noteSeq p h).seen := by
  simp only [seenBefore, Bool.or_eq_false_iff, decide_eq_false_iff_not, Nat.not_le] at hnew
  obtain ⟨-, htop⟩ := hnew
  refine List.mem_filter.mpr ⟨by simp, ?_⟩
  rw [Bool.or_eq_true, decide_eq_true_eq]
  refine .inr (foldl_max_lt (by omega) fun x hx => ?_)
  rw [List.mem_filter, List.mem_append, List.mem_singleton] at hx
  obtain ⟨hx | rfl, hepoch⟩ := hx
  · exact (le_foldl_max_of_mem (List.mem_filter.mpr ⟨hx, hepoch⟩) 0).trans_lt htop
  · omega

theorem seenBefore_of_mem {p : Peer} {h : Hdr} (hmem : seqKey h ∈ p.seen) : seenBefore p h = true := by
  simp [seenBefore, hmem]

/-- A SEQ noted with its source is not new again. -/
theorem seenBefore_modPeer_noteSeq {d : Dev} {m : Nat} {h : Hdr} (hnew : seenBefore (peerOf d m) h = false) :
    seenBefore (peerOf (modPeer d m fun p => noteSeq p h) m) h = true := by
  have hmem := mem_noteSeq hnew
  have hne : noteSeq (peerOf d m) h ≠ {} := fun he => by
    rw [he] at hmem
    cases hmem
  have hread : peerOf (modPeer d m fun p => noteSeq p h) m = noteSeq (peerOf d m) h := tabGet_put_self _ _ _ _ hne
  rw [hread]
  exact seenBefore_of_mem hmem

/-! ## Rows of frames -/

theorem leaves_of_refused {row : Instr} {s : State} {h : Hdr} {type : Nat} {d : Dev} {f : Dev → Dev} (hrow : exec row s = s.onDev (onFrame h type f))
    (hr : receive h type s.dev = (d, false)) : leaves row s d :=
  leaves_of _ hrow (onFrame_of_refused f hr)

theorem leaves_of_taken {row : Instr} {s : State} {h : Hdr} {type : Nat} {d e : Dev} {f : Dev → Dev} (hrow : exec row s = s.onDev (onFrame h type f))
    (hr : receive h type s.dev = (d, true)) (hsrc : h.src ≠ memberNo s.dev) (he : f d = e) : leaves row s e :=
  leaves_of _ hrow ((onFrame_of_taken f hr hsrc).trans he)

theorem beatReceived_of_other {h : Hdr} (pace : Nat) {d : Dev} (hsrc : h.src ≠ memberNo d) : beatReceivedEff h pace d = onFrame h 1 (fun d =>
    wakeWhere (modPeer d h.src fun p => { p with pace, beatAt := some (now d), clock := h.clock }) fun c => c.wait == .holder) d :=
  if_neg hsrc

theorem beatReceived_of_refused {h : Hdr} (pace : Nat) {d e : Dev} (hr : receive h 1 d = (e, false)) : beatReceivedEff h pace d = e := by
  by_cases hsrc : h.src = memberNo d
  · rw [beatReceivedEff, if_pos hsrc, hr]
  · rw [beatReceived_of_other pace hsrc, onFrame_of_refused _ hr]

/-- What a JOIN frame of another member does at the member that takes it (R349). -/
def joinTaken (h : Hdr) (j : JoinInfo) (d : Dev) : Dev :=
  if d.ring.st = 0x0F || d.ring.st = 0xF0 then d
  else if !joinAuth d h.src j then logRing d 5 (natLe 1 2)
  else if joinRefused d j then (if j.answer && d.ring.st = 0x33 then joinFailed d 3 else logRing d 5 (natLe 1 3))
  else if !j.answer then answerJoin d h j
  else if h.dst = 255 then recordJoiner d h.src j
  else if d.ring.st = 0x33 then takeAnswer d h j
  else d

theorem joinFrame_of_other {h : Hdr} (j : JoinInfo) {d : Dev} (hsrc : h.src ≠ memberNo d) : joinFrameEff h j d = onFrame h 2 (joinTaken h j) d :=
  if_neg hsrc

theorem joinFrame_of_refused {h : Hdr} (j : JoinInfo) {d e : Dev} (hr : receive h 2 d = (e, false)) : joinFrameEff h j d = e := by
  by_cases hsrc : h.src = memberNo d
  · rw [joinFrameEff, if_pos hsrc, hr]
  · rw [joinFrame_of_other j hsrc, onFrame_of_refused _ hr]

/-! ## O52 -/

/-- Settles O52: the checks of a reception in their order, the window of a source, and each row of a frame that is not taken. -/
theorem frameReception : Obligations.FrameReception := by
  unfold Obligations.FrameReception
  refine ⟨fun d h type hup hport hlanes hsrc e he => ?_, ?_⟩
  · obtain rfl : e = relayed d h := he
    have hpeer : peerOf (relayed d h) h.src = peerOf d h.src := by
      rw [peerOf, peerOf, relayed_ring]
    refine ⟨fun h1 h2 => ?_, fun hdst h1 h2 h3 => ?_, fun hdst htake => ?_⟩
    · rw [receive_of_other type hup hport hlanes hsrc, if_pos ⟨h1, h2⟩]
    · rw [receive_of_other type hup hport hlanes hsrc, if_neg (fun ⟨h1, h2⟩ => hdst.elim h1 h2), if_pos (by simp [h1, h2, h3])]
    · have hrow := receive_of_mine type hup hport hlanes hsrc hdst htake
      have hwrong : h.type = type → h.keysel = keyselOf type → ¬(h.type ≠ type ∨ h.keysel ≠ keyselOf type) := fun h1 h2 => by simp [h1, h2]
      have hsigned : h.keysel = keyselOf type → type ≠ 2 → h.keysel ≠ 2 := fun h1 h2 h3 => h2 (keyselOf_eq_two.mp (h1.symm.trans h3))
      refine ⟨fun hbad => ?_, fun h1 h2 hkey => ?_, fun h1 h2 hkey h3 htag => ?_, fun h1 h2 hkey h3 htag hseen => ?_, fun h1 h2 hkey h3 htag hseen => ?_,
        fun h1 h2 h3 => ?_⟩
      · rw [hrow, if_pos hbad]
      · rw [hrow, if_neg (hwrong h1 h2), if_pos (by simp [hkey])]
      · rw [hrow, if_neg (hwrong h1 h2), if_neg (by simp [hkey]), if_pos (by simp [hsigned h2 h3, htag])]
      · rw [hrow, if_neg (hwrong h1 h2), if_neg (by simp [hkey]), if_neg (by simp [htag]), if_pos (by simp [hsigned h2 h3, hpeer, hseen])]
      · have htaken : receive h type d = (raiseClock (modPeer (relayed d h) h.src fun p => noteSeq p h) h.clock, true) := by
          rw [hrow, if_neg (hwrong h1 h2), if_neg (by simp [hkey]), if_neg (by simp [htag]), if_neg (by simp [hpeer, hseen]), if_neg (hsigned h2 h3)]
        refine ⟨htaken, ?_⟩
        rw [htaken]
        exact seenBefore_modPeer_noteSeq (hpeer ▸ hseen)
      · have hkey : hasKey d h = true := by simp only [hasKey, h3]
        rw [hrow, if_neg (hwrong (h2.trans h1.symm) (by rw [h1, h3]; rfl)), if_neg (by simp [hkey]), if_neg (by simp [h3]), if_neg (by simp [h3]), if_pos h3]
  · intro s h pace j v epoch key seq entries confirm m config sm sp answer c handle f k issue r grant ack origin changes recs b last x hx d
    simp only [List.mem_cons, List.not_mem_nil, or_false] at hx
    rcases hx with rfl | rfl | rfl | rfl | rfl | rfl | rfl | rfl | rfl | rfl | rfl | rfl | rfl | rfl | rfl | rfl
    · exact fun hr => leaves_of (beatReceivedEff h pace) rfl (beatReceived_of_refused pace hr)
    · exact fun hr => leaves_of (joinFrameEff h j) rfl (joinFrame_of_refused j hr)
    all_goals exact fun hr => leaves_of_refused rfl hr

end Sys2Proof.Machine
end


section
/-! SUPPORT. Joining, beats, losses and the timers of the ring (12 R348 to R354; 02 R48, R49). -/

namespace Sys2Proof.Machine
open Sys2Proof.Safety

/-! ## What a frame sent leaves as it was -/

theorem sendVia_links (east west : Bool) (d : Dev) (dst : Nat) (b : FrameBody) : (sendVia east west d dst b).bay = d.bay ∧
    (sendVia east west d dst b).ring.st = d.ring.st ∧ (sendVia east west d dst b).ring.east.lanes = d.ring.east.lanes ∧
    (sendVia east west d dst b).ring.west.lanes = d.ring.west.lanes := by
  cases east <;> cases west <;> exact ⟨rfl, rfl, rfl, rfl⟩

theorem applyRing_links (d : Dev) : (applyRing d).bay = d.bay ∧ (applyRing d).ring.st = d.ring.st ∧ (applyRing d).ring.east.lanes = d.ring.east.lanes ∧
    (applyRing d).ring.west.lanes = d.ring.west.lanes := by
  unfold applyRing
  split
  · exact ⟨rfl, rfl, rfl, rfl⟩
  · exact ⟨rfl, rfl, rfl, rfl⟩

theorem sendFrame_links (d : Dev) (dst : Nat) (b : FrameBody) : (sendFrame d dst b).bay = d.bay ∧ (sendFrame d dst b).ring.st = d.ring.st ∧
    (sendFrame d dst b).ring.east.lanes = d.ring.east.lanes ∧ (sendFrame d dst b).ring.west.lanes = d.ring.west.lanes := by
  obtain ⟨hbay, hst, heast, hwest⟩ := sendVia_links (dst == 255 || goesEast (applyRing d) dst) (dst == 255 || !goesEast (applyRing d) dst) (applyRing d) dst b
  obtain ⟨hbay', hst', heast', hwest'⟩ := applyRing_links d
  exact ⟨hbay.trans hbay', hst.trans hst', heast.trans heast', hwest.trans hwest'⟩

/-- The JOIN frame to every member leaves the bay, the state and the lanes of the ring. -/
theorem sendJoin_links (d : Dev) (dst : Nat) (kem kemCt : Bytes) (answer : Bool) : (sendJoin d dst kem kemCt answer none).bay = d.bay ∧
    (sendJoin d dst kem kemCt answer none).ring.st = d.ring.st ∧ (sendJoin d dst kem kemCt answer none).ring.east.lanes = d.ring.east.lanes ∧
    (sendJoin d dst kem kemCt answer none).ring.west.lanes = d.ring.west.lanes :=
  sendFrame_links _ _ _

/-! ## RING_JOIN high (02 R48) -/

theorem trained_lanes {p : Port} (h : p.lanes = 0 ∨ p.lanes = 4) : (trained p).lanes = 4 := by
  rcases h with h | h <;> simp [trained, h]

theorem beginJoin_links {d e : Dev} (he : e = drbgBefore false d) (hjoin : canJoin e = true) (hup : drbgUp e = true) (heast : e.ring.east.failed = false)
    (hwest : e.ring.west.failed = false) (hle : e.ring.east.lanes = 0 ∨ e.ring.east.lanes = 4) (hlw : e.ring.west.lanes = 0 ∨ e.ring.west.lanes = 4) :
    (beginJoin d).bay.ringJoin = true ∧ (beginJoin d).ring.st = 0x33 ∧ (beginJoin d).ring.east.lanes = 4 ∧ (beginJoin d).ring.west.lanes = 4 := by
  have hgate : ¬(!canJoin e || !drbgUp e || (trained e.ring.east).lanes != 4 || (trained e.ring.west).lanes != 4 || (trained e.ring.east).failed ||
      (trained e.ring.west).failed) = true := by
    rw [hjoin, hup, trained_lanes hle, trained_lanes hlw]
    simp [trained, heast, hwest]
  unfold beginJoin
  dsimp only
  rw [← he, if_neg hgate]
  generalize hd : ({ (draw e 32).2 with
      bay.ringJoin := true, ring.st := 0x33, ring.retry := false, ring.kemPriv := Config.pkPrivate 0x41 0 0 e.ent.draws, ring.foundRing := false
      ring.east := trained e.ring.east, ring.west := trained e.ring.west, ring.epoch := 0, ring.frameCount := 0 } : Dev) = d1
  obtain ⟨hbay, hst, hle', hlw'⟩ := sendJoin_links d1 255 (kemPublic d1) [] false
  subst hd
  exact ⟨(congrArg Bay.ringJoin hbay :), hst, hle'.trans (trained_lanes hle), hlw'.trans (trained_lanes hlw)⟩

/-! ## Beats and losses (R352 to R354) -/

/-- This member's own frame of a beat is the loop's proof, where it was sent for that and comes in on the west port. -/
theorem beatReceived_of_own {h : Hdr} (pace : Nat) {d e : Dev} (hr : receive h 1 d = (e, true)) (hsrc : h.src = memberNo d) : beatReceivedEff h pace d =
    if e.ring.loopProof = true ∧ h.dst = memberNo d ∧ h.east = false then { e with ring.proofHeld := true } else e := by
  have hiff : (e.ring.loopProof && decide (h.dst = memberNo d) && !h.east) = true ↔ e.ring.loopProof = true ∧ h.dst = memberNo d ∧ h.east = false := by
    simp [and_assoc]
  rw [beatReceivedEff, if_pos hsrc, hr]
  simp only [hiff]

/-- Settles O53: each row by its own effect. -/
theorem joiningCompletes : Obligations.JoiningCompletes := by
  unfold Obligations.JoiningCompletes
  refine ⟨fun s => ⟨leaves_of beginJoin rfl rfl, fun hretry => leaves_of joinRetryTimerEff rfl (if_pos hretry)⟩,
    fun d e he hjoin hup heast hwest hle hlw => beginJoin_links he hjoin hup heast hwest hle hlw,
    fun s hst hauth => leaves_of joinAuthTimeoutEff rfl (if_pos (by simp [hst, hauth])), fun s hform => leaves_of ringFormWaitExpiryEff rfl (if_pos hform),
    fun s hbeats => leaves_of beatSendTimerEff rfl (if_pos hbeats),
    fun s h pace d hr hsrc => leaves_of (beatReceivedEff h pace) rfl ((beatReceived_of_other pace hsrc).trans (onFrame_of_taken _ hr hsrc)),
    fun s h pace d hr hsrc => leaves_of (beatReceivedEff h pace) rfl (beatReceived_of_own pace hr hsrc),
    fun s m hup hjoined hpresent hme hnew => leaves_of (memberLossDetectedEff m) rfl (if_pos (by simp [hup, hjoined, hpresent, hme, hnew])),
    fun s hup hjoined hsuspects hmajority hacting =>
      leaves_of standbyViewDelayEff rfl (if_pos (by simp [hup, hjoined, hsuspects, hmajority, hacting])),
    fun s hjoined hproof => leaves_of loopProofTimeoutEff rfl (if_pos (by simp [hjoined, hproof])),
    fun s hst => leaves_of partedTimeoutEff rfl (if_pos hst), fun s => leaves_of prevEpochKeyExpiryEff rfl rfl⟩

end Sys2Proof.Machine
end


section
/-! SUPPORT. The frames of joining, views, keys, maps, leaves and configurations at the member that takes them (12 R345 to R355). -/

namespace Sys2Proof.Machine
open Sys2Proof.Safety

/-- The gate of the frames that only a member of a ring, or one that joins it, takes. -/
theorem ringTakes {d : Dev} (hout : d.ring.st ≠ 0x0F) (hparted : d.ring.st ≠ 0xF0) : ¬(d.ring.st = 0x0F || d.ring.st = 0xF0) = true := by
  simp [hout, hparted]

theorem not_joined_gate {d : Dev} (hjoined : joined d = true) : ¬(!joined d) = true := by
  simp [hjoined]

/-! ## Joining (R349) -/

section
variable {d : Dev} {h : Hdr} {j : JoinInfo} (hout : d.ring.st ≠ 0x0F) (hparted : d.ring.st ≠ 0xF0)
include hout hparted

theorem joinTaken_of_unknown (hauth : ¬joinAuth d h.src j = true) : joinTaken h j d = logRing d 5 (natLe 1 2) :=
  (if_neg (ringTakes hout hparted)).trans (if_pos (by simp [hauth]))

variable (hauth : joinAuth d h.src j = true)
include hauth

theorem joinTaken_of_refused (hrefused : joinRefused d j = true) :
    joinTaken h j d = if j.answer && d.ring.st = 0x33 then joinFailed d 3 else logRing d 5 (natLe 1 3) :=
  ((if_neg (ringTakes hout hparted)).trans (if_neg (by simp [hauth]))).trans (if_pos hrefused)

theorem joinTaken_of_sound (hsound : ¬joinRefused d j = true) : joinTaken h j d =
    if !j.answer then answerJoin d h j else if h.dst = 255 then recordJoiner d h.src j else if d.ring.st = 0x33 then takeAnswer d h j else d :=
  ((if_neg (ringTakes hout hparted)).trans (if_neg (by simp [hauth]))).trans (if_neg hsound)

end

/-- A JOIN of this member's own that has gone round: it is its own neighbour, where it has met nobody. -/
theorem joinFrame_of_own {h : Hdr} {j : JoinInfo} {d e : Dev} (hr : receive h 2 d = (e, true)) (hsrc : h.src = memberNo d) : joinFrameEff h j d =
    if e.ring.st = 0x33 ∧ authDone e = false ∧ j.answer = false ∧ metMembers e = [] then formIfAnchor (meetOn e h.east (memberNo e)) else e := by
  have hiff : (e.ring.st = 0x33 && !authDone e && !j.answer && (metMembers e).isEmpty) = true ↔
      e.ring.st = 0x33 ∧ authDone e = false ∧ j.answer = false ∧ metMembers e = [] := by
    simp [and_assoc]
  rw [joinFrameEff, if_pos hsrc, hr]
  simp only [hiff]

/-! ## Views and configurations (R347, R353) -/

/-- A signed view, by the key that came for its epoch. -/
theorem viewTaken_of_signed {d : Dev} {v : ViewInfo} (hsigned : v.sigMldsa ≠ []) :
    ¬(v.sigMldsa.isEmpty && v.sigP384.isEmpty && v.epoch = d.ring.epoch && joined d) = true := by
  simp [hsigned]

theorem unsigned_iff (sm sp : Bytes) : (sm.isEmpty && sp.isEmpty) = true ↔ sm = [] ∧ sp = [] := by
  simp

/-- Settles O54: each row of a frame by the branch of its meaning. -/
theorem viewFramesComplete : Obligations.ViewFramesComplete := by
  unfold Obligations.ViewFramesComplete
  refine ⟨fun s h j d hr hsrc hout hparted => ?_, fun s h j d hr hsrc => leaves_of (joinFrameEff h j) rfl (joinFrame_of_own hr hsrc),
    fun s h v d hr hsrc hout hparted => ⟨fun hm hp hepoch hjoined => ?_, fun hsigned hkey => ?_⟩,
    fun s h v d e key hr hsrc hout hparted hsigned hkey => ?_, fun s h epoch key d hr hsrc hout hparted hnew => ?_,
    fun s h seq entries d hr hsrc hout hparted hseq => ?_, fun s h entries d hr hsrc hout hparted => ?_,
    fun s h d hr hsrc => ⟨fun hleaving => ?_, fun hjoined hanchor => ?_⟩, fun s h config sm sp d hr hsrc hout hparted hsigned hnew => ?_,
    fun s h config sm sp d hr hsrc hout hparted => ⟨fun hm hp => ?_, fun hsigned hheld => ?_⟩,
    fun s h c d hr hsrc hjoined => ⟨?_, ?_⟩, fun s h handle d hr hsrc hjoined => ⟨fun hprimary => ?_, fun hother => ?_⟩⟩
  · have hrow : ∀ e, joinTaken h j d = e → leaves (.joinFrame h j) s e := fun e he =>
      leaves_of (joinFrameEff h j) rfl (((joinFrame_of_other j hsrc).trans (onFrame_of_taken _ hr hsrc)).trans he)
    split
    next hauth =>
      split
      next hrefused => exact hrow _ (joinTaken_of_refused hout hparted hauth hrefused)
      next hsound =>
        have htaken := joinTaken_of_sound hout hparted hauth hsound
        refine ⟨fun hask => hrow _ (htaken.trans (if_pos (by simp [hask]))), fun hanswer hall => hrow _ (htaken.trans ?_),
          fun hanswer hone hst => hrow _ (htaken.trans ?_)⟩
        · rw [if_neg (by simp [hanswer]), if_pos hall]
        · rw [if_neg (by simp [hanswer]), if_neg hone, if_pos hst]
    next hauth => exact hrow _ (joinTaken_of_unknown hout hparted hauth)
  · exact leaves_of_taken rfl hr hsrc ((if_neg (ringTakes hout hparted)).trans (if_pos (by simp [hm, hp, hepoch, hjoined])))
  · refine leaves_of_taken rfl hr hsrc (((if_neg (ringTakes hout hparted)).trans (if_neg (viewTaken_of_signed hsigned))).trans ?_)
    simp only [hkey]
  · refine leaves_of_taken rfl hr hsrc (((if_neg (ringTakes hout hparted)).trans (if_neg (viewTaken_of_signed hsigned))).trans ?_)
    simp only [hkey]
  · exact leaves_of_taken rfl hr hsrc (if_pos (by simp [hout, hparted, hnew]))
  · exact leaves_of_taken rfl hr hsrc ((if_neg (ringTakes hout hparted)).trans (if_neg hseq))
  · exact leaves_of_taken rfl hr hsrc ((if_neg (ringTakes hout hparted)).trans (if_pos rfl))
  · exact leaves_of_taken rfl hr hsrc ((if_pos rfl).trans (if_pos (by simp [hleaving])))
  · exact leaves_of_taken rfl hr hsrc (((if_neg Bool.false_ne_true).trans (if_pos (by simp [hjoined]))).trans (if_pos (by simp [hanchor])))
  · exact leaves_of_taken rfl hr hsrc (((if_neg (ringTakes hout hparted)).trans (if_neg (by simp [hsigned]))).trans (if_neg (by simp [hnew])))
  · refine leaves_of_taken rfl hr hsrc (((if_neg (ringTakes hout hparted)).trans (if_pos ((unsigned_iff sm sp).mpr ⟨hm, hp⟩))).trans ?_)
    simp only [beq_iff_eq]
  · exact leaves_of_taken rfl hr hsrc (((if_neg (ringTakes hout hparted)).trans (if_neg (by simp [hsigned]))).trans (if_pos (by simp [hheld])))
  · exact leaves_of_taken rfl hr hsrc ((if_neg (not_joined_gate hjoined)).trans (if_pos rfl))
  · exact leaves_of_taken rfl hr hsrc ((if_neg (not_joined_gate hjoined)).trans (if_neg Bool.false_ne_true))
  · exact leaves_of_taken rfl hr hsrc ((if_neg (not_joined_gate hjoined)).trans (if_pos hprimary))
  · exact leaves_of_taken rfl hr hsrc ((if_neg (not_joined_gate hjoined)).trans (if_neg hother))

end Sys2Proof.Machine
end


section
/-! SUPPORT. The frames of commands, locks and records at the member that takes them (12 R21, R22, R356 to R364, R370). -/

namespace Sys2Proof.Machine
open Sys2Proof.Safety

/-! ## A context taken (R121) -/

/-- The lowest number not in a list, where every number tried so far is in it, leaves no number of the run untried. -/
theorem range'_subset_of_lowestNotIn_mem (l : List Nat) (f k : Nat) (h : lowestNotIn l f k ∈ l) : List.range' k (f + 1) ⊆ l := by
  induction f generalizing k with
  | zero => simpa [lowestNotIn] using h
  | succ f ih =>
    rw [lowestNotIn] at h
    rw [List.range'_succ]
    split at h
    next hmem => exact List.cons_subset.mpr ⟨by simpa using hmem, ih (k + 1) h⟩
    next hfree => exact absurd h (by simpa using hfree)

theorem lowestNotIn_not_mem (l : List Nat) (k : Nat) : lowestNotIn l (l.length + 1) k ∉ l := fun h => by
  have hlen := ((List.nodup_range' (s := k) (n := l.length + 1 + 1)).subperm (range'_subset_of_lowestNotIn_mem l _ k h)).length_le
  rw [List.length_range'] at hlen
  omega

theorem mem_ctxsWhere_of_held {d : Dev} {k : Nat} (h : (ctxOf d k).code ≠ csFree) : k ∈ ctxsWhere d ctxHeld := by
  rcases tabGet_eq_or_mem {} d.sch.ctxs k with hnone | hmem
  · exact absurd (congrArg Ctx.code hnone) h
  · exact List.mem_map.mpr ⟨_, List.mem_filter.mpr ⟨hmem, bne_iff_ne.mpr h⟩, rfl⟩

theorem ctxOf_freeCtxNo (d : Dev) : (ctxOf d (freeCtxNo d)).code = csFree := by
  by_contra h
  exact lowestNotIn_not_mem _ _ (mem_ctxsWhere_of_held h)

/-- The context that a forwarded command takes. -/
def forwardCtx (d : Dev) (m : Nat) (f : Forwarded) : Ctx :=
  { code := csWaiting, level := f.level, fn := if f.tenant = 0xFFFF then .pf else .vf f.tenant, gen := f.gen, entry := f.entry, inputs := some f.inputs,
    origin := some { member := m, ctx := f.originCtx, issue := f.issue },
    useNo := nextUseNo d.sch.owed (freeCtxNo d) 256 (((ctxOf d (freeCtxNo d)).useNo + 1) % 256) }

/-- A forwarded command stands ready in the lowest free context. -/
theorem ctxOf_takeForward (d : Dev) (m : Nat) (f : Forwarded) :
    ctxOf (takeForward d m f) (freeCtxNo d) = { forwardCtx d m f with code := csReady, wait := .nothing, want := none } := by
  have hput : ctxOf (setCtx d (freeCtxNo d) (forwardCtx d m f)) (freeCtxNo d) = forwardCtx d m f :=
    ctxOf_setCtx_of_held d (freeCtxNo d) (show csWaiting ≠ csFree by decide)
  have hready := ctxOf_pushReady (setCtx d (freeCtxNo d) (forwardCtx d m f)) (freeCtxNo d)
  rw [hput] at hready
  exact hready

/-! ## Gates -/

theorem joined_cases {d : Dev} (h : joined d = true) : d.ring.st = 0x55 ∨ d.ring.st = 0x96 := by
  simpa [joined] using h

theorem ringTakes_of_joined {d : Dev} (h : joined d = true) : ¬(d.ring.st = 0x0F || d.ring.st = 0xF0) = true := by
  rcases joined_cases h with h | h <;> simp [h]

theorem not_joining {d : Dev} (h : joined d = true) : decide (d.ring.st = 0x33) = false := by
  rcases joined_cases h with h | h <;> simp [h]

/-! ## Change locks (R359) -/

theorem lockHeldBy_of_none {d : Dev} {key : Nat} (who : Nat × Nat) (h : lockOf d key = none) : lockHeldBy d key who = false := by
  rw [lockHeldBy, h]

theorem lockHeldBy_of_holder {d : Dev} {key : Nat} {l : ChangeLock} (h : lockOf d key = some l) : lockHeldBy d key l.holder = true := by
  rw [lockHeldBy, h]
  exact beq_self_eq_true l.holder

/-! ## Replication (R360) -/

section
variable {d : Dev} {src origin issue : Nat} {changes : List Change} {outcome : Reply}

theorem takeReplicate_of_cached {r : Reply} (h : cachedOf d origin issue = some r) :
    takeReplicate d src origin issue changes outcome = sendAck d src origin issue stOk := by
  simp only [takeReplicate, h, Option.isSome_some, if_true]

variable (hnew : cachedOf d origin issue = none)
include hnew

/-- Changes whose outcome is not cached are applied in order. -/
theorem takeReplicate_of_error {st : Nat} {tried : Dev} (happly : applyChanges (decide (d.ring.st = 0x33)) changes d = .error (st, tried)) :
    takeReplicate d src origin issue changes outcome =
      if st = 0 then keepFreezes d tried else sendAck (keepFreezes d tried) src origin issue st := by
  simp only [takeReplicate, hnew, Option.isSome_none, Bool.false_eq_true, if_false, happly]

variable {e : Dev} (happly : applyChanges (decide (d.ring.st = 0x33)) changes d = .ok e)
include happly

theorem takeReplicate_of_full (hfull : cacheRoomFor e = false) : takeReplicate d src origin issue changes outcome = d := by
  simp only [takeReplicate, hnew, Option.isSome_none, Bool.false_eq_true, if_false, happly, hfull, Bool.not_false, if_true]

variable (hroom : cacheRoomFor e = true)
include hroom

theorem takeReplicate_of_applied (hjoin : decide (d.ring.st = 0x33) = false) (hissue : issue ≠ joinKey (memberNo d)) :
    takeReplicate d src origin issue changes outcome = sendAck (cachePut e origin issue outcome) src origin issue stOk := by
  have hst := of_decide_eq_false hjoin
  rw [hjoin] at happly
  simp only [takeReplicate, hnew, Option.isSome_none, Bool.false_eq_true, if_false, hst, decide_false, happly, hroom, Bool.not_true, hissue, Bool.false_and]

theorem takeReplicate_of_joiner (hjoin : d.ring.st = 0x33) {f : Dev} (hf : f = if issue = joinKey (memberNo d) then e else cachePut e origin issue outcome) :
    takeReplicate d src origin issue changes outcome =
      if e.ring.formatDue.isSome then f else sendAck (becomeMember f) src origin issue stOk := by
  have hdue : f.ring.formatDue = e.ring.formatDue := by
    rw [hf]
    split
    · rfl
    · rfl
  rw [decide_eq_true hjoin] at happly
  simp only [takeReplicate, hnew, Option.isSome_none, Bool.false_eq_true, if_false, hjoin, decide_true, happly, hroom, Bool.not_true, ← hf, Bool.true_and, hdue,
    if_true]

end

/-- Settles O55: each row of a frame by the branch of its meaning. -/
theorem recordFramesComplete : Obligations.RecordFramesComplete := by
  unfold Obligations.RecordFramesComplete
  refine ⟨fun s h f d hr hsrc hjoined hshare hnew => ?_, fun s h f d hr hsrc hrefused => ?_, fun s h k issue r d hr hsrc hheld hwrites horigin hsent hissue => ?_,
    fun s h key k d hr hsrc hjoined => ⟨fun hprimary hunknown => ?_, fun l hlock hholder => ?_, fun hnone hprimary => ?_⟩,
    fun s h origin issue changes outcome d hr hsrc hjoined => ?_, fun s h origin issue changes outcome d e hr hsrc hjoin hnew happly hroom f hf => ?_,
    fun s h handle ctx recs d hr hsrc hjoined => ⟨fun hholds => ?_, fun hcommand => ?_, fun hlock => ?_⟩,
    fun s h b recs last d e hr hsrc hjoined hincoming hprimary hcopy => ?_, fun s h b d hr hsrc hjoined hincoming hanchor => ?_,
    fun s h ctx recs last d hr hsrc hjoined => ⟨fun hnone hlast => ?_, fun hsome hlast hctx hleft => ?_, fun hlast hctx hleft => ?_⟩⟩
  · refine ⟨takeForward d h.src f, freeCtxNo d, leaves_of_taken rfl hr hsrc (if_pos (by simp [hjoined, hshare, hnew])), ctxOf_freeCtxNo d, ?_⟩
    rw [ctxOf_takeForward]
    exact ⟨rfl, rfl, rfl, rfl⟩
  · refine leaves_of_taken rfl hr hsrc (if_neg ?_)
    rcases hrefused with h | h
    · simp [h]
    · simp [h]
  · exact leaves_of_taken rfl hr hsrc (if_pos (by simp [hheld, hwrites, horigin, hsent, hissue]))
  · refine leaves_of_taken rfl hr hsrc (((if_neg (not_joined_gate hjoined)).trans (if_neg Bool.false_ne_true)).trans (if_pos ?_))
    cases hlock : lockOf d key with
    | none => simp [hprimary]
    | some l => simp [hprimary, hunknown l hlock]
  · refine leaves_of_taken rfl hr hsrc (((if_neg (not_joined_gate hjoined)).trans (if_pos rfl)).trans (if_pos ?_))
    rw [← hholder]
    exact lockHeldBy_of_holder hlock
  · refine leaves_of_taken rfl hr hsrc (((if_neg (not_joined_gate hjoined)).trans (if_pos rfl)).trans ((if_neg ?_).trans (if_pos hprimary)))
    rw [lockHeldBy_of_none _ hnone]
    exact Bool.false_ne_true
  · have hrow : ∀ e, takeReplicate d h.src origin issue changes outcome = e → leaves (.replicateFrame h false origin issue changes outcome) s e := fun e he =>
      leaves_of_taken rfl hr hsrc (((if_neg (ringTakes_of_joined hjoined)).trans (if_neg Bool.false_ne_true)).trans he)
    have hjoin := not_joining hjoined
    exact ⟨fun r hcached => hrow _ (takeReplicate_of_cached hcached),
      fun e hnew happly hroom hissue => hrow _ (takeReplicate_of_applied hnew (hjoin ▸ happly) hroom hjoin hissue),
      fun st tried hnew happly => hrow _ (takeReplicate_of_error hnew (hjoin ▸ happly)),
      fun e hnew happly hfull => hrow _ (takeReplicate_of_full hnew (hjoin ▸ happly) hfull),
      leaves_of_taken rfl hr hsrc ((if_neg (ringTakes_of_joined hjoined)).trans (if_pos rfl))⟩
  · refine leaves_of_taken rfl hr hsrc (((if_neg (by simp [hjoin])).trans (if_neg Bool.false_ne_true)).trans ?_)
    exact takeReplicate_of_joiner hnew (decide_eq_true hjoin ▸ happly) hroom hjoin hf
  · exact leaves_of_taken rfl hr hsrc (((if_neg (not_joined_gate hjoined)).trans (if_pos rfl)).trans (if_pos hholds))
  · exact leaves_of_taken rfl hr hsrc (((if_neg (not_joined_gate hjoined)).trans (if_neg Bool.false_ne_true)).trans (if_neg (by omega)))
  · exact leaves_of_taken rfl hr hsrc (((if_neg (not_joined_gate hjoined)).trans (if_neg Bool.false_ne_true)).trans (if_pos hlock))
  · refine leaves_of_taken rfl hr hsrc (((if_neg (not_joined_gate hjoined)).trans (if_pos (by simp [hincoming, hprimary]))).trans ?_)
    rw [hcopy]
    cases last
    · rfl
    · rfl
  · exact leaves_of_taken rfl hr hsrc (((if_neg (not_joined_gate hjoined)).trans (if_neg (by simp [hincoming]))).trans (if_pos (by simp [hanchor])))
  · exact leaves_of_taken rfl hr hsrc ((if_neg (not_joined_gate hjoined)).trans (if_pos (by simp [hnone, hlast])))
  · refine leaves_of_taken rfl hr hsrc (((if_neg (not_joined_gate hjoined)).trans (if_neg (by simp [hsome]))).trans ((if_pos (by simp [hctx, hleft])).trans ?_))
    exact if_neg (by simp [hlast])
  · refine leaves_of_taken rfl hr hsrc (((if_neg (not_joined_gate hjoined)).trans (if_neg (by simp [hlast]))).trans ((if_pos (by simp [hctx, hleft])).trans ?_))
    exact if_pos hlast

end Sys2Proof.Machine
end


section
/-! SUPPORT. The ring's links and a joiner's vault (12 R339, R342, R349): O56. -/

namespace Sys2Proof.Machine
open Sys2Proof.Safety

/-! ## A joiner whose vault lists a record -/

/-- A joiner whose vault is to be formatted while it lists a record, on a module whose DRBG gives. -/
def stockedJoiner : Dev :=
  { Dev.reset with
    bay := { resetBay with fabric := true, ringJoin := true, dimms := [{ gigabytes := 16 }, { gigabytes := 16 }], dimmOk := [true, true, false, false] }
    keys := { resetKeys with maskKey := some [] }
    vmp := { resetVmp with slots := [(0, { handle := 1 })] }
    ring := { resetRing with st := 0x33, formatDue := some false }
    ent := { resetEnt with seeded := true } }

/-- The vault a joiner gets from the model, and the one of the statement, whose high-water marks are noted before. -/
def joinedPlain (d : Dev) (p : Population) : Dev :=
  let e := becomeMember (vaultReady (formatVault d p false))
  sendAck e e.ring.acting e.ring.acting (joinKey (memberNo e)) stOk
def joinedMarked (d : Dev) (p : Population) : Dev :=
  let e := becomeMember (vaultReady (formatVault (keepMarks d fun _ => true) p false))
  sendAck e e.ring.acting e.ring.acting (joinKey (memberNo e)) stOk

/-- Two DIMMs of 16 GiB. -/
def twoDimms : Population := { lines := 2 * (16 * 2 ^ 24), channels := 3, count := 2, third := false }

theorem stockedJoiner_facts : stockedJoiner.ring.formatDue = some false ∧ population stockedJoiner = some twoDimms ∧ stockedJoiner.ring.st = 0x33 ∧
    linksUp stockedJoiner = true ∧ drbgBefore false stockedJoiner = stockedJoiner ∧ drbgUp stockedJoiner = true := by decide +kernel

theorem joinedPlain_stockedJoiner : canonical (joinedPlain stockedJoiner twoDimms) = true ∧ (joinedPlain stockedJoiner twoDimms).keys.marks = [] := by
  decide +kernel

theorem joinedMarked_stockedJoiner : canonical (joinedMarked stockedJoiner twoDimms) = true ∧ (joinedMarked stockedJoiner twoDimms).keys.marks = [(1, 1)] := by
  decide +kernel

/-- What follows every command leaves the keys of a canonical device. -/
theorem after_keys (old : Dev) {d : Dev} (h : canonical d = true) : (Dev.after old d).keys = d.keys := by
  obtain ⟨-, -, hkeys, -⟩ := afterFrame old d h _ rfl
  exact hkeys

/-- The row's step formats the vault of the joiner as it stands. -/
theorem joinerFormatDone_stockedJoiner : joinerFormatDoneEff stockedJoiner = joinedPlain stockedJoiner twoDimms := by
  obtain ⟨hdue, hpop, hst, hup, hbefore, hdrbg⟩ := stockedJoiner_facts
  simp only [joinerFormatDoneEff, hdue, hbefore, hpop, hst, hup, hdrbg]
  rfl

/-- Refutes O56 by its clause on JOINER_FORMAT_DONE, on the state `stockedJoiner`: a vault to be formatted that still lists a record. The model formats
the vault as it stands; the clause formats it after the high-water marks of its records are noted, so the mark of handle 1 differs. -/
theorem not_ringLinksComplete : ¬ Obligations.RingLinksComplete := by
  unfold Obligations.RingLinksComplete
  intro h
  obtain ⟨-, -, -, -, -, -, -, hformat, -⟩ := h
  obtain ⟨hdue, hpop, hst, hup, hbefore, hdrbg⟩ := stockedJoiner_facts
  obtain ⟨hplain, hnone⟩ := joinedPlain_stockedJoiner
  obtain ⟨hmarked, hmark⟩ := joinedMarked_stockedJoiner
  have hclause : leaves .joinerFormatDone { dev := stockedJoiner, pending := [] } (joinedMarked stockedJoiner twoDimms) :=
    hformat { dev := stockedJoiner, pending := [] } false twoDimms hdue hpop hst hup stockedJoiner hbefore.symm hdrbg hpop _ rfl
  have hrow : leaves .joinerFormatDone { dev := stockedJoiner, pending := [] } (joinedPlain stockedJoiner twoDimms) :=
    leaves_of joinerFormatDoneEff rfl joinerFormatDone_stockedJoiner
  have hmarks := congrArg (fun d => d.keys.marks) (after_eq_of_leaves hrow hclause)
  simp only [after_keys _ hplain, after_keys _ hmarked, hnone, hmark] at hmarks
  cases hmarks

end Sys2Proof.Machine
end


section
/-! SUPPORT. The vault's events: sweeps, repairs and refresh (07 R206 to R214; 18 R504; 19 R521). -/

namespace Sys2Proof.Machine
open Sys2Proof.Safety

/-! ## The sweep (R206 to R211) -/

/-- The use of a node leaves the counter blocks of the groups. -/
theorem useNode_groups (fuel : Nat) : ∀ (k i dirty : Nat) (d : Dev), (useNode fuel k i dirty d).vmp.groups = d.vmp.groups := by
  induction fuel with
  | zero => exact fun _ _ _ _ => rfl
  | succ f ih =>
    intro k i dirty d
    have hparent : (if (d.vmp.cache.lookup (nodeKey k i)).isSome then d else useNode f (k + 1) (i / 8) 0 d).vmp.groups = d.vmp.groups := by
      split
      · rfl
      · exact ih _ _ _ _
    unfold useNode
    dsimp only
    split
    · rfl
    · generalize (if (d.vmp.cache.lookup (nodeKey k i)).isSome then d else useNode f (k + 1) (i / 8) 0 d) = e at hparent ⊢
      split
      · exact hparent
      · split
        · split
          · exact (ih _ _ _ _).trans hparent
          · exact hparent
        · exact hparent

theorem groupOf_sweepGroup {d : Dev} {g : Nat} (hclean : groupPoisoned d g = false) (hwf : tabWf {} d.vmp.groups = true) : groupOf (sweepGroup d g) g = {} := by
  rw [sweepGroup, if_neg (Bool.eq_false_iff.mp hclean)]
  have hwf' : tabWf {} (useNode 8 1 (g / 8) 1 d).vmp.groups = true := by rw [useNode_groups, hwf]
  exact (tabGet_put _ _ _ _ _ hwf').trans (if_pos rfl)

theorem activityOf_of_empty {d : Dev} (h : d.mnt.occupant = none) (code : Nat) : activityOf d code = none := by
  simp only [activityOf, h]

theorem endActivity_of_empty {d : Dev} (h : d.mnt.occupant = none) (code st status detail : Nat) : endActivity d code st status detail = d := by
  simp only [endActivity, activityOf_of_empty h]

theorem startWaiting_vmp_of_empty {d : Dev} (h : d.mnt.occupant = none) : (startWaiting d).vmp = d.vmp := by
  simp only [startWaiting, activityOf_of_empty h, modActivity]

/-- The sweep's end where no activity is in the slot. -/
theorem settleSweep_vmp {d : Dev} (hslot : d.mnt.occupant = none) : (settleSweep d).vmp =
    { d.vmp with frog := 0x0F, oldKey := none, row := 0, sweeps := holdAt 32 (d.vmp.sweeps + 1), event := setBit d.vmp.event 4, sweepHosted := false,
                 sweepRate := d.vmp.frogRate } := by
  unfold settleSweep
  dsimp only
  rw [endActivity_of_empty, startWaiting_vmp_of_empty]
  · exact hslot
  · exact hslot

section
variable {d : Dev} (found : List LineFail)

theorem frogGroupStep_of_held (hknown : frogKnown d.vmp.frog = true)
    (hheld : d.vmp.frog ≠ 0x55 ∨ d.vmp.st ≠ 0x96 ∨ vmpHeld d = true ∨ d.glb.failStop = true) : frogGroupStepEff found d = d := by
  rw [frogGroupStepEff, if_neg (by simp [hknown]), if_pos hheld]

variable (hfrog : d.vmp.frog = 0x55) (hready : d.vmp.st = 0x96) (hfree : vmpHeld d = false) (hstop : d.glb.failStop = false) {e : Dev}
  (he : e = found.foldl (fun d x => if onWalk d (groupLines d.vmp.row) x then meetFail x d else d) d)
include hfrog hready hfree hstop he

/-- The group at the working row, after the failed checks that reading it met. -/
theorem frogGroupStep_of_running : frogGroupStepEff found d =
    if e.vmp.st ≠ 0x96 ∨ e.vmp.frog ≠ 0x55 then e
    else
      let e' := { (lastLevels e.vmp.row).foldl (clearNode e.vmp.row) (sweepGroup e e.vmp.row) with vmp.row := e.vmp.row + 1 }
      if e.vmp.row + 1 < groupCount e'.vmp.n then e' else settleSweep e' := by
  have hknown : ¬(!frogKnown d.vmp.frog) = true := by
    rw [hfrog]
    decide
  rw [frogGroupStepEff, if_neg hknown, if_neg (by simp [hfrog, hready, hfree, hstop]), he]

end

/-! ## Repairs (R213) -/

section
variable {d : Dev} {entry outcome : Nat} {missing : List Nat} (recs : List Record) {p : Poison} (hp : p = tabGet {} d.vmp.poison entry) (hopen : p.outcome = 0)
  (hlevel : p.level ≠ 0xC) (hbuilt : vaultBuilt d = true) (hok : outcomeOk d p outcome missing = true)
include hp hopen hlevel hbuilt hok

/-- A repair that may end, by its outcome. -/
theorem poisonRepairDone_of_open : poisonRepairDoneEff entry outcome missing recs d =
    if outcome = 1 ∨ outcome = 5 then closeEntry d entry outcome 0
    else closeEntry ((if outcome = 3 then missing.eraseDups else []).foldl (reportHandle entry) ((unitSlots d p).foldl (rebuildRecord recs) (freshCounters d p)))
      entry outcome (holdAt 16 (if outcome = 3 then missing.eraseDups else []).length) := by
  subst hp
  rw [poisonRepairDoneEff, if_neg (by simp [hopen, hlevel, hbuilt, hok])]

end

/-! ## DIMM temperature (19 R521) -/

section
variable {d : Dev} (b : Nat) (temp : Int) (hfabric : d.bay.fabric = true) (hfitted : (d.bay.dimms.getD b {}).fitted = true)
include hfabric hfitted

theorem dimmTempExcursion_of_fitted : dimmTempExcursionEff b temp d =
    if decide (85 < temp) == d.bay.refreshDouble.getD b false then { d with bay.hubTemps := modifyAt d.bay.hubTemps b fun _ => some temp }
    else logPower { d with bay.hubTemps := modifyAt d.bay.hubTemps b fun _ => some temp,
                           bay.refreshDouble := modifyAt d.bay.refreshDouble b fun _ => decide (85 < temp) }
      (if 85 < temp then 7 else 8) (zeroBytes 1 ++ natLe 1 b ++ natLe 1 (signed 8 temp)) := by
  unfold dimmTempExcursionEff
  dsimp only
  rw [if_neg (by rw [hfabric, hfitted]; decide)]
  simp only [decide_eq_true_eq]

end

/-- Settles O57: each row by its own effect; the sweep by the group at the working row. -/
theorem vaultEventsComplete : Obligations.VaultEventsComplete := by
  unfold Obligations.VaultEventsComplete
  refine ⟨fun s hperiod hready hidle => ?_, fun s hretry => leaves_of frogDrawRetryEff rfl (if_pos hretry),
    fun s found hknown hheld => leaves_of (frogGroupStepEff found) rfl (frogGroupStep_of_held found hknown hheld),
    fun s found d hfrog hready hfree hstop he => ?_, fun d g hclean hwf => groupOf_sweepGroup hclean hwf, fun d hslot => ?_,
    fun s entry outcome missing recs p hp hopen hlevel hbuilt hok => ?_, fun s b temp hfabric hfitted hubs hhubs => ?_⟩
  · have hgate : ¬(s.dev.vmp.frogPeriod = 0 ∨ s.dev.vmp.st ≠ 0x96 ∨ s.dev.vmp.frog ≠ 0x0F) := by simp [hperiod, hready, hidle]
    exact ⟨fun hback => leaves_of frogPeriodExpiryEff rfl ((if_neg hgate).trans (if_pos hback)),
      fun hclear => leaves_of frogPeriodExpiryEff rfl ((if_neg hgate).trans (if_neg (Bool.eq_false_iff.mp hclear)))⟩
  · have hrow := frogGroupStep_of_running found hfrog hready hfree hstop he
    refine ⟨fun hended => leaves_of (frogGroupStepEff found) rfl (hrow.trans (if_pos hended)), fun hst hsweeps e he' => ?_⟩
    have hgoes := hrow.trans (if_neg (by simp [hst, hsweeps]))
    rw [← he'] at hgoes
    exact ⟨fun hmore => leaves_of (frogGroupStepEff found) rfl (hgoes.trans (if_pos hmore)),
      fun hlast => leaves_of (frogGroupStepEff found) rfl (hgoes.trans (if_neg (Nat.not_lt.mpr hlast)))⟩
  · rw [settleSweep_vmp hslot]
    exact ⟨rfl, rfl, bit_setBit_same _ _, rfl⟩
  · have hrow := poisonRepairDone_of_open recs hp hopen hlevel hbuilt hok
    refine ⟨fun hcopy => leaves_of (poisonRepairDoneEff entry outcome missing recs) rfl (hrow.trans (if_pos hcopy)), fun hbuild => ?_, fun hreported => ?_⟩
    · refine leaves_of (poisonRepairDoneEff entry outcome missing recs) rfl (hrow.trans ((if_neg (by omega)).trans ?_))
      rw [if_neg (by omega)]
      rfl
    · subst hreported
      exact leaves_of (poisonRepairDoneEff entry 3 missing recs) rfl hrow
  · subst hhubs
    have hrow := dimmTempExcursion_of_fitted b temp hfabric hfitted
    exact ⟨fun hsame => leaves_of (dimmTempExcursionEff b temp) rfl (hrow.trans (if_pos (beq_iff_eq.mpr hsame))),
      fun hchanged => leaves_of (dimmTempExcursionEff b temp) rfl (hrow.trans (if_neg (mt beq_iff_eq.mp hchanged)))⟩

end Sys2Proof.Machine
end


section
/-! SUPPORT. The handlers of the four error scopes (17 R477 to R484). -/

namespace Sys2Proof.Machine
open Sys2Proof.Safety

theorem raiseFault_of_stopped (f : FaultInfo) {d : Dev} (h : d.glb.failStop = true ∨ d.bay.fabric = false) : raiseFault f d = d := by
  refine if_pos ?_
  rcases h with h | h <;> simp [h]

/-! ## Command scope (R480) -/

section
variable {d : Dev} {x : HeldFault} (again : Inputs) (second : Bool) (hx : (scopeOf d 0).current = some x) {e : Dev} (he : e = takeHandlerCore d) {c : Ctx}
  (hc : c = ctxOf e x.info.object)
include hx he hc

theorem commandScope_of_held : commandScopeEff again second d =
    if !ctxHeld c || writesHeld c then endHandling e 0 0
    else if x.info.cause = 6 && !c.ranAgain && c.held.isNone && second then
      endHandling (runAgain (modCtx e x.info.object fun c => { c with avoid := if x.info.subsystem = 4 then none else some x.info.unit }) x.info.object again) 0 0
    else endHandling (endFaulty e x.info.object) 0 1 := by
  subst he hc
  simp only [commandScopeEff, hx]

end

/-! ## Tenant scope (R481) -/

/-- A tenant-scope handling on the device whose tasks of the tenant have ended. -/
theorem tenantScope_of_held {d : Dev} {x : HeldFault} (q : Option Nat) (hx : (scopeOf d 1).current = some x) {e : Dev}
    (he : e = (ctxsWhere (forceRelease (takeHandlerCore d) x.info.object) (endsWithTenant x.info.object)).foldl endFaulty
      (forceRelease (takeHandlerCore d) x.info.object)) : tenantScopeEff q d =
    endHandling (modTn (q.elim e fun q => if qpExists e (.vf x.info.object) q then dropQueuePair e x.info.object q else e) x.info.object
      fun t => { t with st := 0 }) 1 2 := by
  subst he
  cases q <;> simp only [tenantScopeEff, hx, Option.elim]

/-! ## Ring scope (R482) -/

section
variable {d : Dev} {x : HeldFault} (ok : Bool) (hx : (scopeOf d 2).current = some x) {e : Dev} (he : e = takeHandlerCore d)
include hx he

theorem ringScope_of_held : ringScopeEff ok d =
    if x.info.cause = 8 then endHandling ((lostMembers e x.info.object).foldl askAgain e) 2 0
    else if x.info.cause = 5 then endHandling (failLink e (x.info.unit = 0)) 2 4
    else if x.info.cause = 9 && x.info.object != memberNo e && silent e x.info.object then
      if e.flt.noAckRetried then endHandling (reportSuspect { e with flt.noAckRetried := false } x.info.object) 2 0
      else endHandling (sendAgain { e with flt.noAckRetried := true } x.info.object) 2 4
    else if ok then endHandling e 2 0
    else endHandling (rejoin e) 2 5 := by
  subst he
  simp only [ringScopeEff, hx]

theorem ringScope_of_silent (hcause : x.info.cause = 9) (hother : x.info.object ≠ memberNo e) (hsilent : silent e x.info.object = true) : ringScopeEff ok d =
    if e.flt.noAckRetried then endHandling (reportSuspect { e with flt.noAckRetried := false } x.info.object) 2 0
    else endHandling (sendAgain { e with flt.noAckRetried := true } x.info.object) 2 4 := by
  have h8 : x.info.cause ≠ 8 := by rw [hcause]; decide
  have h5 : x.info.cause ≠ 5 := by rw [hcause]; decide
  rw [ringScope_of_held ok hx he, if_neg h8, if_neg h5, if_pos (by simp [hcause, hother, hsilent])]

theorem ringScope_of_rest (h8 : x.info.cause ≠ 8) (h5 : x.info.cause ≠ 5)
    (hrest : x.info.cause ≠ 9 ∨ x.info.object = memberNo e ∨ silent e x.info.object = false) : ringScopeEff ok d =
    if ok then endHandling e 2 0 else endHandling (rejoin e) 2 5 := by
  rw [ringScope_of_held ok hx he, if_neg h8, if_neg h5, if_neg]
  rcases hrest with h | h | h <;> simp [h]

end

theorem lostMembers_of_other {d : Dev} {m : Nat} (h : m ≠ memberNo d) : lostMembers d m = [m] := if_neg h

theorem lostMembers_of_own {d : Dev} {m : Nat} (h : m = memberNo d) : lostMembers d m = d.ring.lostFrom := if_pos h

/-! ## Module scope (R483) -/

section
variable {d : Dev} {x : HeldFault} (restored : Bool) (hx : (scopeOf d 3).current = some x) {e : Dev} (he : e = takeHandlerCore d)
include hx he

theorem moduleScope_of_held : moduleScopeEff restored d =
    if unitFault x.info then handleUnit e (servedBy d x.info) x
    else if x.info.cause = 0xA || x.info.cause = 0xB || (x.info.subsystem = 9 && x.info.cause = 4) then endHandling (failVault e) 3 3
    else if x.info.subsystem = 1 then endHandling (hostReset e) 3 6
    else if x.info.cause = 7 && [2, 3, 8, 10].contains x.info.subsystem then failStopFor (nextFault e 3) x
    else if restored then endHandling e 3 6
    else if x.info.cause = 0xC && x.info.subsystem != 12 then endHandling e 3 0
    else failStopFor (nextFault e 3) x := by
  subst he
  simp only [moduleScopeEff, hx]

variable (hunit : unitFault x.info = false)
include hunit

theorem moduleScope_of_vault (hvault : x.info.cause = 0xA ∨ x.info.cause = 0xB ∨ (x.info.subsystem = 9 ∧ x.info.cause = 4)) :
    moduleScopeEff restored d = endHandling (failVault e) 3 3 := by
  rw [moduleScope_of_held restored hx he, if_neg (Bool.eq_false_iff.mp hunit), if_pos]
  simpa [or_assoc] using hvault

variable (hA : x.info.cause ≠ 0xA) (hB : x.info.cause ≠ 0xB) (hmem : x.info.subsystem ≠ 9 ∨ x.info.cause ≠ 4)
include hA hB hmem

/-- A fault of no unit and not of the vault. -/
theorem moduleScope_of_rest : moduleScopeEff restored d =
    if x.info.subsystem = 1 then endHandling (hostReset e) 3 6
    else if x.info.cause = 7 && [2, 3, 8, 10].contains x.info.subsystem then failStopFor (nextFault e 3) x
    else if restored then endHandling e 3 6
    else if x.info.cause = 0xC && x.info.subsystem != 12 then endHandling e 3 0
    else failStopFor (nextFault e 3) x := by
  have hvault : ¬(x.info.cause = 0xA || x.info.cause = 0xB || (x.info.subsystem = 9 && x.info.cause = 4)) = true := by
    rcases hmem with h | h <;> simp [hA, hB, h]
  rw [moduleScope_of_held restored hx he, if_neg (Bool.eq_false_iff.mp hunit), if_neg hvault]

theorem moduleScope_of_other (hhost : x.info.subsystem ≠ 1) (hstall : x.info.cause ≠ 7 ∨ x.info.subsystem ∉ [2, 3, 8, 10]) : moduleScopeEff restored d =
    if restored then endHandling e 3 6
    else if x.info.cause = 0xC && x.info.subsystem != 12 then endHandling e 3 0
    else failStopFor (nextFault e 3) x := by
  have hgoes : ¬(x.info.cause = 7 && [2, 3, 8, 10].contains x.info.subsystem) = true := fun h => by
    rw [Bool.and_eq_true, decide_eq_true_eq, List.contains_iff_mem] at h
    exact hstall.elim (fun h7 => h7 h.1) fun hsub => hsub h.2
  rw [moduleScope_of_rest restored hx he hunit hA hB hmem, if_neg hhost, if_neg hgoes]

end

/-- Settles O58: each handler by the fault it holds. -/
theorem faultHandlingCompletes : Obligations.FaultHandlingCompletes := by
  unfold Obligations.FaultHandlingCompletes
  refine ⟨fun s f => leaves_of (raiseFault f) rfl rfl, fun d f => raiseFault_of_stopped f, fun s x again second hx d hd c hc => ?_,
    fun s x hx n hn d hd e he => ?_, fun s x ok hx d hd => ?_, fun s x restored hx d hd => ?_, fun s scope x hstop hfabric hx => ?_⟩
  · refine ⟨fun hover => ?_, fun hheld hwrites hcause hran hnone => ?_, fun hheld hwrites hends => ?_⟩
    · refine leaves_of (commandScopeEff again second) rfl ((commandScope_of_held again second hx hd hc).trans (if_pos ?_))
      rcases hover with h | h <;> simp [h]
    · exact leaves_of (commandScopeEff again true) rfl (((commandScope_of_held again true hx hd hc).trans (if_neg (by simp [hheld, hwrites]))).trans
        (if_pos (by simp [hcause, hran, hnone])))
    · refine leaves_of (commandScopeEff again second) rfl (((commandScope_of_held again second hx hd hc).trans (if_neg (by simp [hheld, hwrites]))).trans
        (if_neg ?_))
      rcases hends with h | h | h | h
      · simp [h]
      · simp [h]
      · simp [Option.isNone_iff_eq_none, Option.isSome_iff_ne_none.mp h]
      · simp [h]
  · subst hn hd
    refine ⟨leaves_of (tenantScopeEff none) rfl (tenantScope_of_held none hx he), fun q hq => leaves_of (tenantScopeEff (some q)) rfl ?_⟩
    rw [tenantScope_of_held (some q) hx he, Option.elim, if_pos hq]
  · refine ⟨fun h8 => ?_, fun h5 => ?_, fun h9 hother hsilent => ?_, fun h8 h5 hrest => ?_⟩
    · have hrow := (ringScope_of_held ok hx hd).trans (if_pos h8)
      refine ⟨fun hother => leaves_of (ringScopeEff ok) rfl ?_, fun hown => leaves_of (ringScopeEff ok) rfl ?_⟩
      · rw [hrow, lostMembers_of_other hother]
        rfl
      · rw [hrow, lostMembers_of_own hown]
    · have h8 : x.info.cause ≠ 8 := by rw [h5]; decide
      exact leaves_of (ringScopeEff ok) rfl (((ringScope_of_held ok hx hd).trans (if_neg h8)).trans (if_pos h5))
    · have hrow := ringScope_of_silent ok hx hd h9 hother hsilent
      exact ⟨fun hretried => leaves_of (ringScopeEff ok) rfl (hrow.trans (if_pos hretried)),
        fun hfirst => leaves_of (ringScopeEff ok) rfl (hrow.trans (if_neg (Bool.eq_false_iff.mp hfirst)))⟩
    · have hrow := ringScope_of_rest ok hx hd h8 h5 hrest
      exact ⟨fun hok => leaves_of (ringScopeEff ok) rfl (hrow.trans (if_pos hok)),
        fun hlost => leaves_of (ringScopeEff ok) rfl (hrow.trans (if_neg (Bool.eq_false_iff.mp hlost)))⟩
  · refine ⟨fun hunit => leaves_of (moduleScopeEff restored) rfl ((moduleScope_of_held restored hx hd).trans (if_pos hunit)), fun hunit =>
      ⟨fun hvault => leaves_of (moduleScopeEff restored) rfl (moduleScope_of_vault restored hx hd hunit hvault), fun hA hB hmem => ?_⟩⟩
    have hrest := moduleScope_of_rest restored hx hd hunit hA hB hmem
    refine ⟨fun hhost => leaves_of (moduleScopeEff restored) rfl (hrest.trans (if_pos hhost)), fun h7 hsub => ?_, fun hhost hstall => ?_⟩
    · have hhost : x.info.subsystem ≠ 1 := fun h => by simp [h] at hsub
      exact leaves_of (moduleScopeEff restored) rfl ((hrest.trans (if_neg hhost)).trans (if_pos (by simpa [h7] using hsub)))
    · have hrow := moduleScope_of_other restored hx hd hunit hA hB hmem hhost hstall
      refine ⟨fun hok => leaves_of (moduleScopeEff restored) rfl (hrow.trans (if_pos hok)), fun hlost hC hlog => ?_, fun hlost hfatal => ?_⟩
      · exact leaves_of (moduleScopeEff restored) rfl ((hrow.trans (if_neg (Bool.eq_false_iff.mp hlost))).trans (if_pos (by simp [hC, hlog])))
      · refine leaves_of (moduleScopeEff restored) rfl ((hrow.trans (if_neg (Bool.eq_false_iff.mp hlost))).trans (if_neg ?_))
        rcases hfatal with h | h <;> simp [h]
  · refine leaves_of (handlerTimeLimitEff scope) rfl ?_
    simp only [handlerTimeLimitEff, hx, hstop, hfabric, Bool.not_true, Bool.or_self, Bool.false_eq_true, if_false]

end Sys2Proof.Machine
end


section
/-! SUPPORT. The debug ports, the journal flash and what expires (14 R403, R404; 19 R529; 06 R163, R167). -/

namespace Sys2Proof.Machine
open Sys2Proof.Safety

/-! ## The service UART and the TAP (R403, R404) -/

theorem statusLineEff_of_fabric {d : Dev} (hfabric : d.bay.fabric = true) :
    serviceUartStatusLineEff d = (statusLine d).elim d fun l => emit d (.uart l) := by
  rw [serviceUartStatusLineEff, if_pos hfabric]
  cases statusLine d <;> rfl

/-- A byte of the console at an address of the interconnect does not stop the model. -/
theorem exec_serviceUartInput_of_inside {s : State} (b : Nat) {addr : Nat} (bytes : Nat) (kind : Access) (h : addr < 2 ^ 40) :
    exec (.serviceUartInput b addr bytes kind) s = s.onDev (serviceUartInputEff b addr bytes kind) :=
  (exec_serviceUartInput b addr bytes kind s).trans (if_neg fun ⟨_, _, hend⟩ => Nat.not_le.mpr h hend)

theorem exec_jtagAccess_of_inside {s : State} {addr : Nat} (bytes : Nat) (kind : Access) (v : Nat) {start : Bool}
    (h : ¬(jtagOpen s.dev = true ∧ start = false ∧ addressEnd ≤ addr)) :
    exec (.jtagAccess addr bytes kind v start) s = s.onDev (jtagAccessEff addr bytes kind v start) :=
  (exec_jtagAccess addr bytes kind v start s).trans (if_neg h)

theorem jtagAccess_of_open {d : Dev} (addr bytes : Nat) (kind : Access) (v : Nat) (start : Bool) (hopen : jtagOpen d = true) :
    jtagAccessEff addr bytes kind v start d = if start then startFactoryTest d else debugAccess addr bytes kind v d :=
  if_neg (by simp [hopen])

/-- INTENT of transition 0 stands in the low byte of the word. -/
theorem setIntent_zero (w : Nat) : setIntent w 0 = w ||| 0xFF := rfl

/-! ## Rewrites and expiries -/

/-- A rewrite of the flash changes no content. -/
theorem journalFlashRefreshEff_eq (slot : Nat) (d : Dev) : journalFlashRefreshEff slot d = d := by
  unfold journalFlashRefreshEff
  dsimp only
  split
  · rfl
  · split <;> rfl

/-- Settles O60: each row by its own effect. -/
theorem debugAndExpiriesComplete : Obligations.DebugAndExpiriesComplete := by
  unfold Obligations.DebugAndExpiriesComplete
  refine ⟨fun s l hfabric hline => ?_, fun s hfabric hline => ?_, fun s b addr bytes kind haddr => ⟨fun hinput => ?_, fun hclosed => ?_⟩,
    fun s addr bytes kind v haddr hopen => ?_, fun s addr bytes kind v start hclosed => ?_, fun s addr bytes kind v hopen hblank hphase => ?_,
    fun s slot => leaves_of (journalFlashRefreshEff slot) rfl (journalFlashRefreshEff_eq slot s.dev),
    fun s n => leaves_of (fun d => abortComponent d n) rfl rfl, fun s h r hfabric hvault hdue => ?_⟩
  · refine leaves_of serviceUartStatusLineEff rfl ((statusLineEff_of_fabric hfabric).trans ?_)
    rw [hline]
    rfl
  · refine leaves_of serviceUartStatusLineEff rfl ((statusLineEff_of_fabric hfabric).trans ?_)
    rw [hline]
    rfl
  · exact leaves_of _ (exec_serviceUartInput_of_inside b bytes kind haddr) (if_pos hinput)
  · exact leaves_of _ (exec_serviceUartInput_of_inside b bytes kind haddr) (if_neg (Bool.eq_false_iff.mp hclosed))
  · exact leaves_of _ (exec_jtagAccess_of_inside bytes kind v fun ⟨_, _, hend⟩ => Nat.not_le.mpr haddr hend) (jtagAccess_of_open addr bytes kind v false hopen)
  · exact leaves_of _ (exec_jtagAccess_of_inside bytes kind v fun ⟨hopen, _, _⟩ => Bool.false_ne_true (hclosed.symm.trans hopen)) (if_pos (by simp [hclosed]))
  · have hrow := jtagAccess_of_open addr bytes kind v true hopen
    refine ⟨_, leaves_of _ (exec_jtagAccess_of_inside bytes kind v fun ⟨_, hstart, _⟩ => Bool.false_ne_true hstart.symm)
      (hrow.trans ((if_pos rfl).trans (if_pos ⟨hblank, hphase⟩))), ?_, rfl, rfl⟩
    rw [← setIntent_zero]
    rfl
  · refine leaves_of (retiringVersionExpiryEff h) rfl ?_
    rw [retiringVersionExpiryEff, if_neg (by simp [hfabric, hvault])]
    simp only [hdue]

end Sys2Proof.Machine
end
